-- ==== Sys2Proof/Word.lean ====
section
/-! DEFINITION. Words and the numbers of objects.
A byte and the two wider numbers that frames carry (R167, R168), and the number ranges of the objects the
device holds ("Numbering of objects" in spec/00_scope.md). -/

namespace Sys2Proof

/-- One byte of a frame or of a table entry. -/
abbrev Byte := BitVec 8
/-- A number of range 0..65535 in a frame (R168: two bytes, high byte first). -/
abbrev Word16 := BitVec 16
/-- A number of four bytes in a frame (R168). -/
abbrev Word32 := BitVec 32

/-- Table block 0..511 (R1). -/
abbrev BlockNo := Fin 512
/-- Grant space 0..63 (R21). -/
abbrev SpaceNo := Fin 64
/-- Work order 0..63 (R100). -/
abbrev WorkOrderNo := Fin 64
/-- Permit 0..255 (R118). -/
abbrev PermitNo := Fin 256
/-- Occupancy record 0..63 (R91). -/
abbrev RecordNo := Fin 64
/-- Pairing slot 0..3 (R149). -/
abbrev SlotNo := Fin 4
/-- Door lane 0..3 (R161). -/
abbrev LaneNo := Fin 4
/-- Address of a door unit on its lane 0..15 (R161). -/
abbrev DoorAddress := Fin 16
/-- Site number 0..127. -/
abbrev SiteNo := Fin 128
/-- Zone number 0..31. -/
abbrev ZoneNo := Fin 32
/-- Room number 0..31. -/
abbrev RoomNo := Fin 32
/-- A credential number (R118: 1..4294967295; the value 0 names no credential). -/
abbrev Credential := BitVec 32

end Sys2Proof
end

