-- ==== Sys2Proof/Syntax.lean ====
section
/-! DEFINITION. The commands and events of the device: one constructor of `Instr` for each row of
spec/opcode_table.json. The block has no processor's instructions: a row is a command taken at an authority port,
an event of a port's lines, an event of a door lane, or a deadline of the monotonic count. -/

namespace Sys2Proof

/-- The three authorities, and so the three ports (R167). -/
inductive Authority where
  | sec
  | fac
  | lld
  deriving DecidableEq, Repr

/-- A door, written lane:address (R132). -/
structure DoorId where
  lane : LaneNo
  address : DoorAddress
  deriving DecidableEq, Repr

/-- The payload of a command frame. A payload that ends where the layout of R168 ends gives the command's
arguments, each in the bytes that carry it; one that is too short or too long for its code is kept as the
bytes it is (R169 refuses it BAD_ARGUMENT). -/
inductive Payload (α : Type) where
  | fields (args : α)
  | malformed (bytes : List Byte)
  deriving DecidableEq, Repr

/-- A command that carries no argument (READ STATUS, R171; ESTATE CLEAR, R172). -/
structure NoArgs where
  deriving DecidableEq, Repr

/-- A command whose one argument is one byte: a space, work order, permit or lane number. -/
structure NumberArgs where
  number : Byte
  deriving DecidableEq, Repr

/-- WRITE BLOCK (R15). -/
structure WriteBlockArgs where
  block : Word16
  kind : Byte
  entries : Vector Byte 64
  deriving DecidableEq, Repr

/-- FREE BLOCKS (R17). -/
structure FreeBlocksArgs where
  first : Word16
  count : Word16
  deriving DecidableEq, Repr

/-- READ BLOCK (R19). -/
structure ReadBlockArgs where
  block : Word16
  deriving DecidableEq, Repr

/-- The descriptor fields that DEFINE SPACE and STAGE SPACE carry (R25, R27). Scope site and scope zone are
always carried (R168). -/
structure DescriptorArgs where
  scope : Byte
  site : Byte
  zone : Byte
  origin : Word16
  length : Byte
  isPrivate : Byte
  deriving DecidableEq, Repr

/-- STAGE SPACE (R27). -/
structure StageSpaceArgs where
  space : Byte
  descriptor : DescriptorArgs
  deriving DecidableEq, Repr

/-- PURGE (R70): the argument is always carried (R168). -/
structure PurgeArgs where
  form : Byte
  argument : Byte
  deriving DecidableEq, Repr

/-- SET CLOCK (R76). -/
structure SetClockArgs where
  day : Word16
  minute : Word16
  second : Byte
  deriving DecidableEq, Repr

/-- SET POSTURE (R87). -/
structure SetPostureArgs where
  posture : Byte
  deriving DecidableEq, Repr

/-- SET SITE ALLOWANCE (R89). -/
structure SetSiteAllowanceArgs where
  site : Byte
  extra : Byte
  forced : Byte
  deriving DecidableEq, Repr

/-- A room designator as three bytes (R168). -/
structure DesignatorArgs where
  site : Byte
  zone : Byte
  room : Byte
  deriving DecidableEq, Repr

/-- One option of CREATE WORK ORDER (R103): a space, a window (start and length) or none, a party cap. -/
structure OptionArgs where
  space : Byte
  window : Option (Word16 × Word16)
  cap : Byte
  deriving DecidableEq, Repr

/-- CREATE WORK ORDER (R103). -/
structure CreateWorkOrderArgs where
  options : List OptionArgs
  home : DesignatorArgs
  requiredMinimum : Byte
  renewal : Byte
  preference : Byte
  refuseOnShortfall : Byte
  firstDay : Word16
  lastDay : Word16
  deriving DecidableEq, Repr

/-- ENDORSE (R104). -/
structure EndorseArgs where
  workOrder : Byte
  value : Byte
  deriving DecidableEq, Repr

/-- ISSUE PERMIT (R120). -/
structure IssuePermitArgs where
  workOrder : Byte
  credential : Word32
  role : Byte
  deriving DecidableEq, Repr

/-- A door as two bytes, lane then address (R168). -/
structure DoorArgs where
  lane : Byte
  address : Byte
  deriving DecidableEq, Repr

/-- BIND DOOR (R133): a door, with a room designator and a side, or Unbound (`none`). -/
structure BindDoorArgs where
  door : DoorArgs
  binding : Option (DesignatorArgs × Byte)
  deriving DecidableEq, Repr

/-- REMOTE CONSENT (R158). -/
structure RemoteConsentArgs where
  door : DoorArgs
  decision : Byte
  deriving DecidableEq, Repr

/-- SET TIMINGS (R170). -/
structure SetTimingsArgs where
  pairingWindow : Byte
  passageTime : Byte
  consentWait : Byte
  deriving DecidableEq, Repr

/-- The commands and events of spec/opcode_table.json, one constructor a row, in the table's order.
A command row names the port it is taken at and the payload of its frame; an event row names the lane, door,
slot or record it happens at. -/
inductive Instr where
  /-- POWER_ON (R179). -/
  | powerOn
  /-- WRITE_BLOCK (R15). -/
  | writeBlock (port : Authority) (payload : Payload WriteBlockArgs)
  /-- FREE_BLOCKS (R17). -/
  | freeBlocks (port : Authority) (payload : Payload FreeBlocksArgs)
  /-- READ_BLOCK (R19). -/
  | readBlock (port : Authority) (payload : Payload ReadBlockArgs)
  /-- DEFINE_SPACE (R25). -/
  | defineSpace (port : Authority) (payload : Payload DescriptorArgs)
  /-- STAGE_SPACE (R27). -/
  | stageSpace (port : Authority) (payload : Payload StageSpaceArgs)
  /-- CANCEL_STAGE (R33). -/
  | cancelStage (port : Authority) (payload : Payload NumberArgs)
  /-- RETIRE_SPACE (R35). -/
  | retireSpace (port : Authority) (payload : Payload NumberArgs)
  /-- READ_SPACE (R36). -/
  | readSpace (port : Authority) (payload : Payload NumberArgs)
  /-- PURGE (R70). -/
  | purge (port : Authority) (payload : Payload PurgeArgs)
  /-- SET_CLOCK (R76). -/
  | setClock (port : Authority) (payload : Payload SetClockArgs)
  /-- SET_POSTURE (R87). -/
  | setPosture (port : Authority) (payload : Payload SetPostureArgs)
  /-- SET_SITE_ALLOWANCE (R89). -/
  | setSiteAllowance (port : Authority) (payload : Payload SetSiteAllowanceArgs)
  /-- FORCE_EXIT (R98). -/
  | forceExit (port : Authority) (payload : Payload NumberArgs)
  /-- READ_ROOM (R99). -/
  | readRoom (port : Authority) (payload : Payload DesignatorArgs)
  /-- CREATE_WORK_ORDER (R103). -/
  | createWorkOrder (port : Authority) (payload : Payload CreateWorkOrderArgs)
  /-- ENDORSE (R104). -/
  | endorse (port : Authority) (payload : Payload EndorseArgs)
  /-- ACTIVATE (R110). -/
  | activate (port : Authority) (payload : Payload NumberArgs)
  /-- WITHDRAW (R114). -/
  | withdraw (port : Authority) (payload : Payload NumberArgs)
  /-- READ_WORK_ORDER (R117). -/
  | readWorkOrder (port : Authority) (payload : Payload NumberArgs)
  /-- ISSUE_PERMIT (R120). -/
  | issuePermit (port : Authority) (payload : Payload IssuePermitArgs)
  /-- REVOKE (R127). -/
  | revoke (port : Authority) (payload : Payload NumberArgs)
  /-- READ_PERMIT (R131). -/
  | readPermit (port : Authority) (payload : Payload NumberArgs)
  /-- BIND_DOOR (R133). -/
  | bindDoor (port : Authority) (payload : Payload BindDoorArgs)
  /-- READ_DOOR (R148). -/
  | readDoor (port : Authority) (payload : Payload DoorArgs)
  /-- REMOTE_CONSENT (R158). -/
  | remoteConsent (port : Authority) (payload : Payload RemoteConsentArgs)
  /-- HOLD_LANE (R164). -/
  | holdLane (port : Authority) (payload : Payload NumberArgs)
  /-- RELEASE_LANE (R164). -/
  | releaseLane (port : Authority) (payload : Payload NumberArgs)
  /-- RESET_LANE (R165). -/
  | resetLane (port : Authority) (payload : Payload NumberArgs)
  /-- SET_TIMINGS (R170). -/
  | setTimings (port : Authority) (payload : Payload SetTimingsArgs)
  /-- READ_STATUS (R171). -/
  | readStatus (port : Authority) (payload : Payload NoArgs)
  /-- ESTATE_CLEAR (R172). -/
  | estateClear (port : Authority) (payload : Payload NoArgs)
  /-- UNKNOWN_COMMAND (R169): a code that names no command, with the payload of its frame. -/
  | unknownCommand (port : Authority) (code : Byte) (bytes : List Byte)
  /-- COMMAND_FRAME_RECEIVED (R167): bytes arriving on the port's receive line, in the order they arrive. -/
  | commandFrameReceived (port : Authority) (bytes : List Byte)
  /-- FRAME_GAP_TIMEOUT (R167). -/
  | frameGapTimeout (port : Authority)
  /-- PORT_BREAK (R178). -/
  | portBreak (port : Authority)
  /-- READY_LINE_ASSERTED (R176). -/
  | readyLineAsserted (port : Authority)
  /-- FRAME_FINISHED (R176): with the level of the ready line sampled at this choice. -/
  | frameFinished (port : Authority) (ready : Bool)
  /-- SECOND_TICK (R75). -/
  | secondTick
  /-- PASSAGE_DEADLINE (R143). -/
  | passageDeadline (door : DoorId)
  /-- STEP_DEADLINE (R157). -/
  | stepDeadline (slot : SlotNo)
  /-- CONSENT_DEADLINE (R158). -/
  | consentDeadline (slot : SlotNo)
  /-- CHECKIN_DEADLINE (R125). -/
  | checkinDeadline (permit : PermitNo)
  /-- STAY_DEADLINE (R126). -/
  | stayDeadline (permit : PermitNo)
  /-- SELECTION_DEADLINE (R111). -/
  | selectionDeadline (workOrder : WorkOrderNo)
  /-- SWITCH_DEADLINE (R32). -/
  | switchDeadline (space : SpaceNo)
  /-- POLL_TURN (R162). -/
  | pollTurn (lane : LaneNo)
  /-- VERDICT_SENT (R135). -/
  | verdictSent (lane : LaneNo)
  /-- CANCEL_SENT (R162). -/
  | cancelSent (lane : LaneNo)
  /-- POLL_UNANSWERED (R163). -/
  | pollUnanswered (lane : LaneNo)
  /-- PRESENT_ENTER (R134). -/
  | presentEnter (door : DoorId) (credential : Credential)
  /-- PRESENT_EXIT (R144). -/
  | presentExit (door : DoorId) (credential : Credential)
  /-- PRESENT_CHECKIN (R123). -/
  | presentCheckin (door : DoorId) (credential : Credential)
  /-- PASSAGE (R142). -/
  | passage (door : DoorId)
  /-- NOTHING (R134). -/
  | nothing (door : DoorId)
  /-- LANE_BREAK_END (R165). -/
  | laneBreakEnd (lane : LaneNo)
  /-- FRAMING_ERROR (R178). -/
  | framingError (port : Authority)
  /-- BAD_LENGTH (R167): with the length the receiver has read. -/
  | badLength (port : Authority) (length : Word16)
  deriving DecidableEq, Repr

end Sys2Proof
end

