-- ==== Sys2Proof/Machine/State.lean ====
section
/-! DEFINITION. The state of the device: what each block of the block diagram owns (spec/00_scope.md), the ports
and the lanes, the resolution requests that wait, the queue of waiting commands, and what meets the requests. Plain
data. -/

namespace Sys2Proof.Machine

/-! ### Numbers and names shared by the tables -/

/-- A room designator s.z.r (R2). -/
structure Designator where
  site : SiteNo
  zone : ZoneNo
  room : RoomNo
  deriving DecidableEq, Repr

/-- What a summary speaks for: one room, or with `none` every room of the zone (R52, R57). -/
structure Coverage where
  site : SiteNo
  zone : ZoneNo
  room : Option RoomNo
  deriving DecidableEq, Repr

/-- A daily window S/L in minutes (section 5.4). -/
structure Window where
  start : Nat
  length : Nat
  deriving DecidableEq, Repr

/-- The kinds of table block (R3). -/
inductive Kind where
  | estate
  | site
  | zone
  deriving DecidableEq, Repr

/-- The custodian of a room (R6, R7). -/
inductive Custodian where
  | bank
  | landlord
  deriving DecidableEq, Repr

/-- The roles a permit may carry (R85). -/
inductive Role where
  | technician
  | apprentice
  | supervisor
  | escort
  deriving DecidableEq, Repr

/-- The posture (R86). -/
inductive Posture where
  | normal
  | restricted
  | lockdown
  deriving DecidableEq, Repr

/-- The deny codes of R168; the codes of a walk and the reason codes of a selection are among them. -/
inductive DenyCode where
  | doorUnbound | held | clockUnset | lockdown | noPermit | revoked | alreadyInside | workOrderInactive
  | dayRange | notGranted | outOfScope | length | tableFree | tableKind | foreignTable | badOrigin
  | entryInvalid | privateConflict | overlayFault | securityBar | custodian | outsideWindow | pairingBusy
  | partyFull | roomFull | occupancyTableFull | doorBusy | notInside | escortAbsent | pairingBroken
  | consentRefused | consentTimeout | cancelled | spaceSwitched
  deriving DecidableEq, Repr

/-- The refusal codes of R168. -/
inductive RefusalCode where
  | unknownCommand | badArgument | notPermitted | notOwner | inUse | tableNotReady | spaceTableFull
  | stagePending | notStaged | workOrderTableFull | closing | noOption | shortfall | duplicateCredential
  | permitTableFull | notInside | doorBusy | tooLate | occupied
  deriving DecidableEq, Repr

/-! ### Rights memory (R1) -/

/-- A table block: Free (`none`) or owned by one authority with one kind, and its 64 entry bytes. -/
structure Block where
  owner : Option (Authority × Kind)
  bytes : Vector Byte 64
  deriving DecidableEq, Repr

/-- A Free block holds eight entries of zero bytes (R1, R18, R20). -/
def Block.free : Block := ⟨none, Vector.replicate 64 0⟩

/-! ### Space directory (R21, R22) -/

/-- The scope of a space (R22). -/
inductive Scope where
  | estate
  | site (s : SiteNo)
  | zone (s : SiteNo) (z : ZoneNo)
  deriving DecidableEq, Repr

/-- A descriptor (R22); a top origin of `none` names no table. -/
structure Descriptor where
  authority : Authority
  scope : Scope
  topOrigin : Option BlockNo
  topLength : Nat
  isPrivate : Bool
  deriving DecidableEq, Repr

/-- A staged descriptor waiting to become current, with the switch deadline (R28). -/
structure StagedSwitch where
  descriptor : Descriptor
  deadline : Nat
  deriving DecidableEq, Repr

/-- A space record (R21). It is in use while it has a current descriptor; its Go flag is set while a switch
waits, and only then has it a staged descriptor and a switch deadline (R28, R29). -/
structure SpaceRecord where
  current : Option Descriptor
  waiting : Option StagedSwitch
  generation : BitVec 8
  drain : Nat
  deriving DecidableEq, Repr

/-! ### Summaries and the resolution cache (R52, R57, R62) -/

/-- A grant summary (R52). -/
structure GrantSummary where
  covers : Coverage
  category : Nat
  custodian : Custodian
  guaranteed : Nat
  ceiling : Nat
  remote : Bool
  escort : Bool
  windows : List Window
  common : Bool
  deriving DecidableEq, Repr

/-- One item of an overlay summary (R55, R57). -/
structure OverlayItem where
  bar : Bool
  force : Bool
  window : Option Window
  deriving DecidableEq, Repr

/-- An overlay summary (R57). -/
structure OverlaySummary where
  covers : Coverage
  items : List OverlayItem
  deriving DecidableEq, Repr

/-- What a cache entry holds (R62). -/
inductive Summary where
  | grant (g : GrantSummary)
  | overlay (o : OverlaySummary)
  deriving DecidableEq, Repr

/-- A cache entry (R62): the tag's space and generation; the tag's site, zone and room, and the common mark, are
those of the summary (R63). -/
structure CacheEntry where
  space : SpaceNo
  generation : BitVec 8
  summary : Summary
  deriving DecidableEq, Repr

/-! ### Estate clock, site allowances, rooms -/

/-- The time of a Set estate clock (R74). -/
structure ClockTime where
  day : Nat
  minute : Nat
  second : Nat
  deriving DecidableEq, Repr

/-- A site record: extra allowance E and forced minimum F (R88). -/
structure SiteRecord where
  extra : Nat
  forced : Nat
  deriving DecidableEq, Repr

/-- An occupancy record in use (R91). -/
structure OccupancyRecord where
  room : Designator
  load : Nat
  inside : List PermitNo
  pending : List PermitNo
  guaranteed : Nat
  ceiling : Nat
  overAllowance : Bool
  deriving DecidableEq, Repr

/-! ### Work orders (R100) -/

/-- One option of a work order. -/
structure WorkOption where
  space : SpaceNo
  window : Option Window
  cap : Nat
  deriving DecidableEq, Repr

/-- The preference of a work order (R107). -/
inductive Preference where
  | longer
  | shorter
  deriving DecidableEq, Repr

/-- How a Closing work order was closed (R130 names it as the cause of later freeings). -/
inductive ClosingCause where
  | withdrawn
  | expired
  deriving DecidableEq, Repr

/-- The state of a work order in use (R101). -/
inductive WorkOrderState where
  | pending
  | active
  | lapsed
  | closing (cause : ClosingCause)
  deriving DecidableEq, Repr

/-- A work-order record in use (R100, R102). Options are numbered from 1. Work order 0 has no home room and no
day range. -/
structure WorkOrder where
  issuer : Authority
  state : WorkOrderState
  options : List WorkOption
  home : Option Designator
  requiredMinimum : Nat
  renewal : Nat
  preference : Preference
  refuseOnShortfall : Bool
  days : Option (Nat × Nat)
  endorsedByFacilities : Bool
  endorsedByLandlord : Bool
  selected : Option Nat
  capInForce : Nat
  shortfall : Bool
  deadline : Option Nat
  party : Nat
  deriving DecidableEq, Repr

/-! ### Permits (R118, R119) -/

/-- The stay of an Inside permit: its room, its two deadlines and the three flags that only a reservation or a
stay can set. -/
structure Stay where
  room : Designator
  remote : Bool
  stayDeadline : Option Nat
  checkInDeadline : Option Nat
  overdue : Bool
  overstay : Bool
  deriving DecidableEq, Repr

/-- The state of a permit with what it holds in that state only (the table of R119). -/
inductive PermitState where
  | idle
  | pending (room : Designator) (door : DoorId) (remote : Bool)
  | inside (stay : Stay)
  deriving DecidableEq, Repr

/-- A permit record in use (R118). -/
structure Permit where
  credential : Credential
  workOrder : WorkOrderNo
  role : Role
  revoked : Bool
  state : PermitState
  deriving DecidableEq, Repr

/-! ### Doors (R132), verdicts (R135) and pairing slots (R149) -/

/-- The side of a door (R133). -/
inductive Side where
  | outer
  | inner
  deriving DecidableEq, Repr

/-- The room and side a door is bound to (R133). -/
structure Binding where
  room : Designator
  side : Side
  deriving DecidableEq, Repr

/-- The presence of a door unit (R161, R163). -/
inductive Presence where
  | unknown
  | ready
  | failed
  deriving DecidableEq, Repr

/-- The decision values an admission keeps (R138), with the requirement level of its reading (R139, R150). -/
structure DecisionValues where
  space : SpaceNo
  guaranteed : Nat
  ceiling : Nat
  category : Nat
  remote : Bool
  windows : List Window
  optionWindow : Option Window
  overlay : OverlaySummary
  level : Nat
  deriving DecidableEq, Repr

/-- A permit held by a door in Passage Open for an Enter, with the windows kept for its stay deadline
(R121, R132). -/
structure HeldPermit where
  permit : PermitNo
  windows : List Window
  optionWindow : Option Window
  deriving DecidableEq, Repr

/-- The admission in progress at a door, with what the door holds for it (R132). -/
inductive Admission where
  | idle
  | pairing (contractor : PermitNo) (values : DecisionValues)
  | awaitingConsent (contractor : PermitNo) (values : DecisionValues)
  | openEnter (held : List HeldPermit) (deadline : Option Nat)
  | openExit (held : Option PermitNo) (deadline : Option Nat)
  deriving DecidableEq, Repr

/-- The mark of an Open verdict that answers an Exit or a CheckIn (R135): none, not-recorded or check-in. -/
inductive OpenMark where
  | plain
  | notRecorded
  | checkIn
  deriving DecidableEq, Repr

/-- What a verdict says (R135): Open to an Enter, which carries no mark (R140); Open to an Exit or a CheckIn; or a
deny. The door unit is sent the same message for an Open to an Enter and for an unmarked one to an Exit; a change to
Lockdown withdraws the first alone (R86). -/
inductive VerdictOutcome where
  | admitted
  | opened (mark : OpenMark)
  | deny (code : DenyCode)
  deriving DecidableEq, Repr

/-- A verdict waiting at a door (R135): its outcome, the credentials it names, and whether it is an Open made for
the admission that the door holds. -/
structure Verdict where
  outcome : VerdictOutcome
  credentials : List Credential
  admits : Bool
  deriving DecidableEq, Repr

/-- A door record (R132, and R161 for the miss count). -/
structure Door where
  binding : Option Binding
  presence : Presence
  misses : Nat
  admission : Admission
  outgoing : List Verdict
  cancelPending : Bool
  deriving DecidableEq, Repr

/-- What a pairing slot waits for (R149). -/
inductive Step where
  | escort
  | contractor
  | finalEscort
  | consent
  deriving DecidableEq, Repr

/-- The escort accepted at step 2 of a two-round pairing (R149). -/
structure HeldEscort where
  permit : PermitNo
  credential : Credential
  windows : List Window
  deriving DecidableEq, Repr

/-- The timer of a slot: a deadline, or while frozen the whole seconds left (R149, R159). -/
inductive SlotTimer where
  | running (deadline : Nat)
  | frozen (secondsLeft : Nat)
  deriving DecidableEq, Repr

/-- A pairing slot in use (R149). -/
structure Slot where
  door : DoorId
  contractor : PermitNo
  rounds : Nat
  expects : Step
  escort : Option HeldEscort
  timer : SlotTimer
  deriving DecidableEq, Repr

/-! ### Lanes (R161) and ports (section 12) -/

/-- Where a lane controller stands in its turn (R162, R165): between turns; sending a verdict, the one whose frame is
on the lane; sending a CANCEL; waiting for the answer to its poll; driving a break. -/
inductive LanePhase where
  | between
  | sendingVerdict (v : Verdict)
  | sendingCancel
  | polling
  | breaking
  deriving DecidableEq, Repr

/-- A lane controller (R161, R162): poll position, hold flag, the turn in progress, and the frames it has sent in
the turn in progress or the last one, oldest first. -/
structure Lane where
  position : DoorAddress
  held : Bool
  phase : LanePhase
  sent : List (List Byte)
  deriving DecidableEq, Repr

/-- The cause of a switch (R29). -/
inductive SwitchCause where
  | immediate
  | drained
  | forced
  deriving DecidableEq, Repr

/-- The cause of a freed permit (R130). -/
inductive ReleaseCause where
  | revoked
  | withdrawn
  | expired
  | released
  | exit
  deriving DecidableEq, Repr

/-- The cause of a PASSBACK (R144). -/
inductive PassbackCause where
  | notInside
  | doorBusy
  deriving DecidableEq, Repr

/-- The cause of a DOOR_ANNOUNCED (R163). -/
inductive AnnounceCause where
  | first
  | recovered
  deriving DecidableEq, Repr

/-- Why a selection failed (R107, R108). -/
inductive SelectionFailure where
  | noOption (reasons : List DenyCode)
  | shortfall (option : Nat) (cap : Nat)
  deriving DecidableEq, Repr

/-- The admission state of a door as notices and replies name it (R132). -/
inductive AdmissionState where
  | idle
  | pairing
  | awaitingConsent
  | passageOpen
  deriving DecidableEq, Repr

/-- The notices of R168, each with the contents that the rule that queues it gives. -/
inductive Notice where
  | entered (permit : PermitNo) (credential : Credential) (room : Designator) (door : DoorId) (side : Side)
      (secondsToStay : Option Nat)
  | exited (forced : Bool) (permit : PermitNo) (credential : Credential) (room : Designator)
      (door : Option (DoorId × Side))
  | checkedIn (permit : PermitNo) (room : Designator) (door : DoorId) (seconds : Nat)
  | denied (door : DoorId) (binding : Option Binding) (credential : Credential) (code : DenyCode)
      (permit : Option (PermitNo × WorkOrderNo))
  | passback (door : DoorId) (binding : Option Binding) (credential : Credential) (cause : PassbackCause)
  | unrecordedPassage (door : DoorId) (binding : Option Binding) (state : AdmissionState)
  | overdue (permit : PermitNo) (credential : Credential) (workOrder : WorkOrderNo) (room : Designator)
  | overstay (permit : PermitNo) (credential : Credential) (workOrder : WorkOrderNo) (room : Designator)
  | consentRequest (door : DoorId) (binding : Option Binding) (permit : PermitNo) (credential : Credential)
      (workOrder : WorkOrderNo) (level : Nat) (seconds : Nat)
  | doorAnnounced (door : DoorId) (binding : Option Binding) (cause : AnnounceCause)
  | doorFailed (door : DoorId) (binding : Option Binding)
  | overAllowance (room : Designator) (load : Nat) (allowance : Nat)
  | spaceSwitched (space : SpaceNo) (generation : BitVec 8) (cause : SwitchCause) (abandoned : Nat)
  | optionSelected (workOrder : WorkOrderNo) (option : Nat) (cap : Nat) (remaining : Nat) (level : Nat)
      (shortfall : Bool)
  | workOrderLapsed (workOrder : WorkOrderNo) (failure : SelectionFailure)
  | shortfall (workOrder : WorkOrderNo) (option : Nat) (cap : Nat) (requiredMinimum : Nat)
  | permitReleased (permit : PermitNo) (credential : Credential) (cause : ReleaseCause)
  deriving DecidableEq, Repr

/-- What a reply says (R167): Accepted with results, or Refused with a code and the values given with it, as
bytes laid out by R168. -/
inductive Answer where
  | accepted (results : List Byte)
  | refused (code : RefusalCode) (values : List Byte)
  deriving DecidableEq, Repr, Inhabited

/-- A reply: the command's code and what it says (R169). -/
structure Reply where
  code : Byte
  answer : Answer
  deriving DecidableEq, Repr

/-- A command frame held in a receive frame buffer (R167). -/
structure CommandFrame where
  code : Byte
  payload : List Byte
  deriving DecidableEq, Repr

/-- The receiver of a port (R167): hunting for a start marker, or holding the bytes of a frame so far and whether
that frame began while the buffer still held a command (R169). -/
inductive Receiver where
  | hunting
  | receiving (bytes : List Byte) (lost : Bool)
  deriving DecidableEq, Repr

/-- An authority port (R167, R169, R174, R176): receiver, receive frame buffer, the reply waiting to be sent,
the frame being sent (`none` while the transmitter is idle), notice queue oldest first, dropped flag, the level of
the ready line at the last choice, and the levels that it will have at the next choices of an idle transmitter
(the controller's input, and the model's own field: assumption 3). The attention line is `Port.attention` of this
record (R177). -/
structure Port where
  receiver : Receiver
  buffer : Option CommandFrame
  reply : Option Reply
  transmitter : Option (List Byte)
  queue : List Notice
  dropped : Bool
  ready : Bool
  levels : List Bool
  deriving DecidableEq, Repr

/-- The three ports. -/
structure Ports where
  sec : Port
  fac : Port
  lld : Port
  deriving DecidableEq, Repr

/-- The three timings (R170). -/
structure Timings where
  pairingWindow : Nat
  passageTime : Nat
  consentWait : Nat
  deriving DecidableEq, Repr

/-! ### Decisions that wait for a resolution request (R38) -/

/-- The one reading of the estate clock and of the monotonic count from which a decision makes all of its judgements
(R78). -/
structure Reading where
  clock : Option ClockTime
  count : Nat
  deriving DecidableEq, Repr

/-- What a requester is answered: a summary or what it asked for, a code, or nothing, where an ESTATE CLEAR has
discarded the request with the admission or selection that made it (R38). -/
inductive Resolution (α : Type) where
  | ok (a : α)
  | error (c : DenyCode)
  | discarded
  deriving DecidableEq, Repr

/-- An eligible option with the three values by which options are compared (R106). -/
structure Candidate where
  index : Nat
  cap : Nat
  level : Nat
  remaining : Nat
  deriving DecidableEq, Repr

/-- An Enter presentation of a contractor that has passed steps 1 to 4 (R136, R137): its door, credential and room, its
permit with the permit's record and work order, the option selected, and the reading of the decision (R78). -/
structure ContractorEntry where
  door : DoorId
  credential : Credential
  room : Designator
  permit : PermitNo
  record : Permit
  workOrder : WorkOrder
  option : WorkOption
  time : ClockTime
  count : Nat
  deriving DecidableEq, Repr

/-- An escort step that has passed its checks up to the rights (R152, R153): its door, credential and room, the slot of
the door with its record, the door's decision values, the escort's permit, the contractor's work order, the record of
work order 0, and the reading of the decision (R78). -/
structure EscortEntry where
  door : DoorId
  credential : Credential
  room : Designator
  slotNo : SlotNo
  slot : Slot
  values : DecisionValues
  permit : PermitNo
  job : WorkOrderNo
  roster : WorkOrder
  time : ClockTime
  count : Nat
  deriving DecidableEq, Repr

/-- What runs a selection, with what is to be done behind it (R110, R111, R112, R77): an ACTIVATE of a port, whose
transmitter was idle or not when it was taken; a selection deadline; the entry of a minute by advance, with the work
orders whose turn is still to come; or SET CLOCK, with its reply and these work orders. -/
inductive SelectionRun where
  | activate (p : Authority) (wasIdle : Bool)
  | deadline
  | minute (rest : List WorkOrderNo)
  | clockSet (wasIdle : Bool) (answer : Answer) (rest : List WorkOrderNo)
  deriving DecidableEq, Repr

/-- A selection that tests an option (section 7.3): what runs it, its reading, its work order with the record and the
home room, the option that is tested with its index, the options behind it, and the results of those before it. -/
structure SelectionEntry where
  run : SelectionRun
  now : Reading
  number : WorkOrderNo
  workOrder : WorkOrder
  home : Designator
  time : ClockTime
  index : Nat
  option : WorkOption
  left : List WorkOption
  tested : List (Resolution Candidate)
  deriving DecidableEq, Repr

/-- A decision that waits for the resolver. -/
inductive Errand where
  | contractor (e : ContractorEntry)
  | escort (e : EscortEntry)
  | selection (e : SelectionEntry)
  deriving DecidableEq, Repr

/-- What a waiting decision waits for (R38): its grant request; with the grant summary, its overlay request; or, with
both answered, the end of the decision of the row in hand, which it may not touch (R134). -/
inductive WaitingFor where
  | grant
  | overlay (g : GrantSummary)
  | turn (rights : Resolution (GrantSummary × OverlaySummary))
  deriving DecidableEq, Repr

/-- A decision that waits, and what for. -/
structure Waiting where
  errand : Errand
  asks : WaitingFor
  deriving DecidableEq, Repr

/-! ### What meets a resolution request (R16, R26, R38, R46, R72) -/

/-- What meets one request, in order: the commands and events taken after the part of the decision that goes before the
request and before its lookup, those taken after its lookup and before the walk's read of the estate table, those before
its read of the site table, those before its read of the zone table, and those before its end. A read that the request
does not make holds nothing up. -/
structure Meetings where
  beforeLookup : List Instr
  beforeEstate : List Instr
  beforeSite : List Instr
  beforeZone : List Instr
  beforeEnd : List Instr
  deriving DecidableEq, Repr

/-- Nothing meets the request. -/
def Meetings.none : Meetings := ⟨[], [], [], [], []⟩

/-! ### The device -/

/-- The state of the device. -/
structure State where
  /-- Rights memory (R1). -/
  blocks : Vector Block 512
  /-- Space directory (R21). -/
  spaces : Vector SpaceRecord 64
  /-- Resolution cache, most recent entry first (R62). -/
  cache : List CacheEntry
  /-- Estate clock: `none` while Unset, when its day, minute and second are 0 (R74). -/
  clock : Option ClockTime
  /-- Monotonic second count (R74). -/
  count : Nat
  /-- Posture (R86). -/
  posture : Posture
  /-- Site allowance table (R88). -/
  sites : Vector SiteRecord 128
  /-- Occupancy table (R91). -/
  occupancy : Vector (Option OccupancyRecord) 64
  /-- Work-order table (R100). -/
  workOrders : Vector (Option WorkOrder) 64
  /-- Permit table (R118). -/
  permits : Vector (Option Permit) 256
  /-- Door table (R132): lane l, address a at place 16 l + a. -/
  doors : Vector Door 64
  /-- Pairing slots (R149). -/
  slots : Vector (Option Slot) 4
  /-- Lane controllers (R161). -/
  lanes : Vector Lane 4
  /-- Authority ports (R167). -/
  ports : Ports
  /-- Timings (R170). -/
  timings : Timings
  /-- The resolution requests that wait for the resolver, in the order in which they were made, each with the decision
  that made it (R38). No step leaves one behind. -/
  waiting : List Waiting
  /-- What meets the resolution requests to come, one entry for each request in the order they are served (R26, R38,
  R46, R72). With no entry left nothing meets a request. The order of the commands and events and the request is the
  outside's; the field is the model's own (assumption 13). -/
  meetings : List Meetings
  /-- The commands and events that wait for the device, first in, first out. The model's own field. -/
  pending : List Instr
  deriving DecidableEq, Repr

/-- No step of this block ends in a fault: the manual gives every command and event of the table an effect in
every state, if only that nothing changes. The type has no constructor. -/
inductive Fault where
  deriving DecidableEq, Repr

/-- Why a step answers with no meaning. -/
inductive Refusal where
  /-- Raised by `exec` for a row of the opcode table that has no meaning yet. Safe: the model stops. -/
  | notModelled (mnemonic : String)
  deriving DecidableEq, Repr

/-! ### Power-on values (R179, and the rule named at each) -/

/-- A space record out of use (R37). -/
def SpaceRecord.unused : SpaceRecord := ⟨none, none, 0, 0⟩

/-- Space 0 or 1 at power-on (R37): Security's, Estate scope, origin none. The top length is DESIGN CHOICE
(assumption 2): the manual gives none for a descriptor that names no table. -/
def SpaceRecord.security (isPrivate : Bool) : SpaceRecord := ⟨some ⟨.sec, .estate, none, 1, isPrivate⟩, none, 0, 0⟩

/-- Every space record at power-on (R37). -/
def initialSpaces : Vector SpaceRecord 64 :=
  ((Vector.replicate 64 SpaceRecord.unused).set 0 (.security true)).set 1 (.security false)

/-- Work order 0, the escort roster (R102). The two endorsement flags, which R102 says are not read and gives no
value, are held clear, and so is the shortfall flag, to which R102 gives no value either: DESIGN CHOICE (assumption 39).
The party load is 0 at power-on (R113). -/
def WorkOrder.escortRoster : WorkOrder where
  issuer := .sec
  state := .active
  options := [⟨1, none, 127⟩]
  home := none
  requiredMinimum := 0
  renewal := 60
  preference := .longer
  refuseOnShortfall := false
  days := none
  endorsedByFacilities := false
  endorsedByLandlord := false
  selected := some 1
  capInForce := 127
  shortfall := false
  deadline := none
  party := 0

/-- Every work-order record at power-on (R101, R102). -/
def initialWorkOrders : Vector (Option WorkOrder) 64 :=
  (Vector.replicate 64 none).set 0 (some .escortRoster)

/-- A door at power-on (R132, R161). -/
def Door.initial : Door := ⟨none, .unknown, 0, .idle, [], false⟩

/-- A lane at power-on (R161): not held, poll position 0, no turn in progress. -/
def Lane.initial : Lane := ⟨0, false, .between, []⟩

/-- A port at power-on (R179). The level of the ready line is the controller's: withdrawn is DESIGN CHOICE
(assumption 3). -/
def Port.initial : Port := ⟨.hunting, none, none, none, [], false, false, []⟩

/-- The timings at power-on (R170). -/
def Timings.initial : Timings := ⟨20, 10, 60⟩

/-- The device right after power-on (R179). -/
def State.reset : State where
  blocks := Vector.replicate 512 Block.free
  spaces := initialSpaces
  cache := []
  clock := none
  count := 0
  posture := .lockdown
  sites := Vector.replicate 128 ⟨0, 0⟩
  occupancy := Vector.replicate 64 none
  workOrders := initialWorkOrders
  permits := Vector.replicate 256 none
  doors := Vector.replicate 64 Door.initial
  slots := Vector.replicate 4 none
  lanes := Vector.replicate 4 Lane.initial
  ports := ⟨.initial, .initial, .initial⟩
  timings := .initial
  waiting := []
  meetings := []
  pending := []

end Sys2Proof.Machine
end

