-- ==== Sys2Proof/Config.lean ====
section
/-! DEFINITION. What the manual leaves open.
A constant of this file has no body: no proof can see its value, so a claim about the model holds for every
value of it. -/

namespace Sys2Proof

/-- The byte that stands before a list of more than 255 members. R168 gives a list one byte for the number of
its members, and READ WORK ORDER (R117) may have to list 256 permits: the manual states no byte for that
number. DESIGN CHOICE: a free value (assumption 10). Safe. -/
opaque Config.longListCount : Nat → Byte

/-- What the reply to an ACTIVATE says whose selection an ESTATE CLEAR has discarded. R169 gives every command taken its
reply, R38 discards the selection, and the manual states no outcome for that reply. DESIGN CHOICE: a free value for each
state of the device right after the clear (assumption 44). Safe. -/
opaque Config.discardedReply : Machine.State → Machine.Answer

end Sys2Proof
end

