-- ==== Sys2Proof/Machine/Codec.lean ====
section
/-! DEFINITION. Bytes on the wire: numbers, flags, absent items and lists as R168 lays them out, and the frame
check of R166 and R167. -/

namespace Sys2Proof.Machine

/-- The number whose high byte is `hi` and whose low byte is `lo` (R168: high byte first). -/
def word16 (hi lo : Byte) : Word16 := hi ++ lo

/-- The number of four bytes, high byte first (R168). -/
def word32 (b3 b2 b1 b0 : Byte) : Word32 := (b3 ++ b2) ++ (b1 ++ b0)

/-- The two bytes of a number, high byte first (R168). -/
def bytes16 (w : Word16) : List Byte := [w.extractLsb' 8 8, w.extractLsb' 0 8]

/-- The four bytes of a number, high byte first (R168). -/
def bytes32 (w : Word32) : List Byte :=
  [w.extractLsb' 24 8, w.extractLsb' 16 8, w.extractLsb' 8 8, w.extractLsb' 0 8]

/-- A number of range 0..255 as one byte (R168). -/
def num1 (n : Nat) : List Byte := [BitVec.ofNat 8 n]

/-- A number of range 0..65535 as two bytes (R168). -/
def num2 (n : Nat) : List Byte := bytes16 (BitVec.ofNat 16 n)

/-- A number of a wider range as four bytes (R168). -/
def num4 (n : Nat) : List Byte := bytes32 (BitVec.ofNat 32 n)

/-- A flag: 0 for no or clear, 1 for yes or set (R168). -/
def flagByte (b : Bool) : List Byte := [if b then 1 else 0]

/-- An item that is absent in some cases: one byte, 1 or 0, and then its own bytes when it is present (R168). -/
def optional {α : Type} (f : α → List Byte) : Option α → List Byte
  | none => [0]
  | some a => 1 :: f a

/-- The byte that gives the number of a list's members (R168). -/
def countByte (n : Nat) : Byte := if n < 256 then BitVec.ofNat 8 n else Config.longListCount n

/-- A list: the number of its members in one byte, then the members (R168). -/
def counted {α : Type} (f : α → List Byte) (l : List α) : List Byte := countByte l.length :: l.flatMap f

/-- The generator polynomial x^16 + x^12 + x^5 + 1 of the frame check (R166), less its x^16. -/
def checkPolynomial : Word16 := 0x1021

/-- The register of the frame check moved by `n` bits (R166). -/
def checkShift : Nat → Word16 → Word16
  | 0, c => c
  | n + 1, c => checkShift n (if c.msb then (c <<< 1) ^^^ checkPolynomial else c <<< 1)

/-- The register of the frame check after one byte, taken most significant bit first (R166). -/
def checkByte (c : Word16) (b : Byte) : Word16 := checkShift 8 (c ^^^ (b.setWidth 16 <<< 8))

/-- The frame check of a run of bytes: it starts at 65535 and has no final inversion (R166, R167). -/
def frameCheck (bytes : List Byte) : Word16 := bytes.foldl checkByte 65535

/-- A frame on a door lane (R166): address, kind, payload length, payload, frame check. -/
def laneFrame (address : DoorAddress) (kind : Byte) (payload : List Byte) : List Byte :=
  let body := num1 address.val ++ [kind] ++ num1 payload.length ++ payload
  body ++ bytes16 (frameCheck body)

/-- A frame on an authority port (R167): start marker, length, kind, code, payload, frame check. -/
def portFrame (kind code : Byte) (payload : List Byte) : List Byte :=
  let body := num2 (payload.length + 2) ++ [kind, code] ++ payload
  126 :: (body ++ bytes16 (frameCheck body))

end Sys2Proof.Machine
end

