-- ==== Sys2Proof/Decode.lean ====
section
/-! DEFINITION. Reading and writing the payloads of command frames (R168, R169), and the frames with which door units
answer on a lane (R166).
The opcode table gives no row any bits, so `decodeTableWord` answers none. What a command's bytes are is given by
R168: the code of each command and the layout of its arguments. `decodeCommand` reads a code and a payload and is
total; `encodeCommand` writes them. -/

namespace Sys2Proof

open Machine (word16 word32 bytes16 bytes32)

/-- The command that a word of opcode-table bits spells. spec/opcode_table.json gives bits to no row, so no word
spells one. -/
def decodeTableWord (_nbits _w : Nat) : Option Instr := none

/-! ### Arguments as bytes (R168) -/

/-- The arguments a payload gives, or the payload kept as it is when it does not end where its layout ends
(R168, R169). -/
def Payload.read {α : Type} (parse : List Byte → Option α) (bytes : List Byte) : Payload α :=
  match parse bytes with
  | some a => .fields a
  | none => .malformed bytes

/-- The bytes of a payload. -/
def Payload.write {α : Type} (encode : α → List Byte) : Payload α → List Byte
  | .fields a => encode a
  | .malformed bytes => bytes

/-- No arguments: an empty payload. -/
def NoArgs.parse : List Byte → Option NoArgs
  | [] => some {}
  | _ => none
/-- No arguments as bytes. -/
def NoArgs.encode (_ : NoArgs) : List Byte := []

/-- One number of one byte. -/
def NumberArgs.parse : List Byte → Option NumberArgs
  | [n] => some ⟨n⟩
  | _ => none
/-- One number as bytes. -/
def NumberArgs.encode (a : NumberArgs) : List Byte := [a.number]

/-- R15: block number, kind, 64 entry bytes. -/
def WriteBlockArgs.parse : List Byte → Option WriteBlockArgs
  | b1 :: b0 :: kind :: entries =>
    if h : entries.length = 64 then some ⟨word16 b1 b0, kind, ⟨entries.toArray, by simpa using h⟩⟩ else none
  | _ => none
/-- R15 as bytes. -/
def WriteBlockArgs.encode (a : WriteBlockArgs) : List Byte := bytes16 a.block ++ a.kind :: a.entries.toList

/-- R17: first block number, count. -/
def FreeBlocksArgs.parse : List Byte → Option FreeBlocksArgs
  | [f1, f0, c1, c0] => some ⟨word16 f1 f0, word16 c1 c0⟩
  | _ => none
/-- R17 as bytes. -/
def FreeBlocksArgs.encode (a : FreeBlocksArgs) : List Byte := bytes16 a.first ++ bytes16 a.count

/-- R19: block number. -/
def ReadBlockArgs.parse : List Byte → Option ReadBlockArgs
  | [b1, b0] => some ⟨word16 b1 b0⟩
  | _ => none
/-- R19 as bytes. -/
def ReadBlockArgs.encode (a : ReadBlockArgs) : List Byte := bytes16 a.block

/-- R25: scope, scope site, scope zone, top origin, top length, private flag. -/
def DescriptorArgs.parse : List Byte → Option DescriptorArgs
  | [scope, site, zone, o1, o0, length, isPrivate] => some ⟨scope, site, zone, word16 o1 o0, length, isPrivate⟩
  | _ => none
/-- R25 as bytes. -/
def DescriptorArgs.encode (a : DescriptorArgs) : List Byte :=
  [a.scope, a.site, a.zone] ++ bytes16 a.origin ++ [a.length, a.isPrivate]

/-- R27: space number, then the descriptor. -/
def StageSpaceArgs.parse : List Byte → Option StageSpaceArgs
  | space :: rest => (DescriptorArgs.parse rest).map (StageSpaceArgs.mk space)
  | [] => none
/-- R27 as bytes. -/
def StageSpaceArgs.encode (a : StageSpaceArgs) : List Byte := a.space :: a.descriptor.encode

/-- R70: form, argument. -/
def PurgeArgs.parse : List Byte → Option PurgeArgs
  | [form, argument] => some ⟨form, argument⟩
  | _ => none
/-- R70 as bytes. -/
def PurgeArgs.encode (a : PurgeArgs) : List Byte := [a.form, a.argument]

/-- R76: day, minute of day, second. -/
def SetClockArgs.parse : List Byte → Option SetClockArgs
  | [d1, d0, m1, m0, second] => some ⟨word16 d1 d0, word16 m1 m0, second⟩
  | _ => none
/-- R76 as bytes. -/
def SetClockArgs.encode (a : SetClockArgs) : List Byte := bytes16 a.day ++ bytes16 a.minute ++ [a.second]

/-- R87: posture. -/
def SetPostureArgs.parse : List Byte → Option SetPostureArgs
  | [p] => some ⟨p⟩
  | _ => none
/-- R87 as bytes. -/
def SetPostureArgs.encode (a : SetPostureArgs) : List Byte := [a.posture]

/-- R89: site, extra allowance, forced minimum. -/
def SetSiteAllowanceArgs.parse : List Byte → Option SetSiteAllowanceArgs
  | [site, extra, forced] => some ⟨site, extra, forced⟩
  | _ => none
/-- R89 as bytes. -/
def SetSiteAllowanceArgs.encode (a : SetSiteAllowanceArgs) : List Byte := [a.site, a.extra, a.forced]

/-- R99: a designator. -/
def DesignatorArgs.parse : List Byte → Option DesignatorArgs
  | [site, zone, room] => some ⟨site, zone, room⟩
  | _ => none
/-- A designator as bytes (R168). -/
def DesignatorArgs.encode (a : DesignatorArgs) : List Byte := [a.site, a.zone, a.room]

/-- One option of R103, off the front of the bytes: space, window or absent, party cap. -/
def OptionArgs.take : List Byte → Option (OptionArgs × List Byte)
  | space :: 0 :: cap :: rest => some (⟨space, none, cap⟩, rest)
  | space :: 1 :: s1 :: s0 :: l1 :: l0 :: cap :: rest =>
    some (⟨space, some (word16 s1 s0, word16 l1 l0), cap⟩, rest)
  | _ => none
/-- One option as bytes (R168). -/
def OptionArgs.encode (o : OptionArgs) : List Byte :=
  o.space :: Machine.optional (fun w => bytes16 w.1 ++ bytes16 w.2) o.window ++ [o.cap]

/-- `n` options off the front of the bytes. -/
def OptionArgs.takeMany : Nat → List Byte → Option (List OptionArgs × List Byte)
  | 0, bytes => some ([], bytes)
  | n + 1, bytes =>
    match OptionArgs.take bytes with
    | none => none
    | some (o, rest) =>
      match OptionArgs.takeMany n rest with
      | none => none
      | some (os, rest') => some (o :: os, rest')

/-- What follows the options in R103. -/
def CreateWorkOrderArgs.parseTail (options : List OptionArgs) : List Byte → Option CreateWorkOrderArgs
  | [site, zone, room, minimum, renewal, preference, refuse, f1, f0, l1, l0] =>
    some ⟨options, ⟨site, zone, room⟩, minimum, renewal, preference, refuse, word16 f1 f0, word16 l1 l0⟩
  | _ => none

/-- R103: a list of options, a home room, a required minimum, a renewal interval, a preference, a
refuse-on-shortfall flag, a first day and a last day. -/
def CreateWorkOrderArgs.parse : List Byte → Option CreateWorkOrderArgs
  | [] => none
  | n :: rest =>
    match OptionArgs.takeMany n.toNat rest with
    | none => none
    | some (os, tail) => CreateWorkOrderArgs.parseTail os tail
/-- R103 as bytes. -/
def CreateWorkOrderArgs.encode (a : CreateWorkOrderArgs) : List Byte :=
  Machine.counted OptionArgs.encode a.options ++ a.home.encode ++
    [a.requiredMinimum, a.renewal, a.preference, a.refuseOnShortfall] ++ bytes16 a.firstDay ++ bytes16 a.lastDay

/-- R104: work order number, value. -/
def EndorseArgs.parse : List Byte → Option EndorseArgs
  | [workOrder, value] => some ⟨workOrder, value⟩
  | _ => none
/-- R104 as bytes. -/
def EndorseArgs.encode (a : EndorseArgs) : List Byte := [a.workOrder, a.value]

/-- R120: work order number, credential number, role. -/
def IssuePermitArgs.parse : List Byte → Option IssuePermitArgs
  | [workOrder, c3, c2, c1, c0, role] => some ⟨workOrder, word32 c3 c2 c1 c0, role⟩
  | _ => none
/-- R120 as bytes. -/
def IssuePermitArgs.encode (a : IssuePermitArgs) : List Byte := a.workOrder :: bytes32 a.credential ++ [a.role]

/-- R148: a door. -/
def DoorArgs.parse : List Byte → Option DoorArgs
  | [lane, address] => some ⟨lane, address⟩
  | _ => none
/-- A door as bytes (R168: lane then address). -/
def DoorArgs.encode (a : DoorArgs) : List Byte := [a.lane, a.address]

/-- R133: a door, then the binding or its absence. -/
def BindDoorArgs.parse : List Byte → Option BindDoorArgs
  | [lane, address, 0] => some ⟨⟨lane, address⟩, none⟩
  | [lane, address, 1, site, zone, room, side] => some ⟨⟨lane, address⟩, some (⟨site, zone, room⟩, side)⟩
  | _ => none
/-- R133 as bytes. -/
def BindDoorArgs.encode (a : BindDoorArgs) : List Byte :=
  a.door.encode ++ Machine.optional (fun b => b.1.encode ++ [b.2]) a.binding

/-- R158: a door, a decision. -/
def RemoteConsentArgs.parse : List Byte → Option RemoteConsentArgs
  | [lane, address, decision] => some ⟨⟨lane, address⟩, decision⟩
  | _ => none
/-- R158 as bytes. -/
def RemoteConsentArgs.encode (a : RemoteConsentArgs) : List Byte := a.door.encode ++ [a.decision]

/-- R170: pairing window, passage time, consent wait. -/
def SetTimingsArgs.parse : List Byte → Option SetTimingsArgs
  | [w, p, c] => some ⟨w, p, c⟩
  | _ => none
/-- R170 as bytes. -/
def SetTimingsArgs.encode (a : SetTimingsArgs) : List Byte := [a.pairingWindow, a.passageTime, a.consentWait]

/-! ### Commands as code and payload (R168) -/

/-- The command that a frame's code and payload name, at the port it arrived on (R168, R169). Total: a code that
names no command is UNKNOWN_COMMAND, and a payload of the wrong size is kept as it is. -/
def decodeCommand (p : Authority) (code : Byte) (bytes : List Byte) : Instr :=
  match code.toNat with
  | 1 => .writeBlock p (.read WriteBlockArgs.parse bytes)
  | 2 => .freeBlocks p (.read FreeBlocksArgs.parse bytes)
  | 3 => .readBlock p (.read ReadBlockArgs.parse bytes)
  | 4 => .defineSpace p (.read DescriptorArgs.parse bytes)
  | 5 => .stageSpace p (.read StageSpaceArgs.parse bytes)
  | 6 => .cancelStage p (.read NumberArgs.parse bytes)
  | 7 => .retireSpace p (.read NumberArgs.parse bytes)
  | 8 => .readSpace p (.read NumberArgs.parse bytes)
  | 9 => .purge p (.read PurgeArgs.parse bytes)
  | 10 => .setClock p (.read SetClockArgs.parse bytes)
  | 11 => .setPosture p (.read SetPostureArgs.parse bytes)
  | 12 => .setSiteAllowance p (.read SetSiteAllowanceArgs.parse bytes)
  | 13 => .forceExit p (.read NumberArgs.parse bytes)
  | 14 => .readRoom p (.read DesignatorArgs.parse bytes)
  | 15 => .createWorkOrder p (.read CreateWorkOrderArgs.parse bytes)
  | 16 => .endorse p (.read EndorseArgs.parse bytes)
  | 17 => .activate p (.read NumberArgs.parse bytes)
  | 18 => .withdraw p (.read NumberArgs.parse bytes)
  | 19 => .readWorkOrder p (.read NumberArgs.parse bytes)
  | 20 => .issuePermit p (.read IssuePermitArgs.parse bytes)
  | 21 => .revoke p (.read NumberArgs.parse bytes)
  | 22 => .readPermit p (.read NumberArgs.parse bytes)
  | 23 => .bindDoor p (.read BindDoorArgs.parse bytes)
  | 24 => .readDoor p (.read DoorArgs.parse bytes)
  | 25 => .remoteConsent p (.read RemoteConsentArgs.parse bytes)
  | 26 => .holdLane p (.read NumberArgs.parse bytes)
  | 27 => .releaseLane p (.read NumberArgs.parse bytes)
  | 28 => .resetLane p (.read NumberArgs.parse bytes)
  | 29 => .setTimings p (.read SetTimingsArgs.parse bytes)
  | 30 => .readStatus p (.read NoArgs.parse bytes)
  | 31 => .estateClear p (.read NoArgs.parse bytes)
  | _ => .unknownCommand p code bytes

/-- The port, code and payload of a command (R168); none for an event, which no command frame carries. -/
def encodeCommand : Instr → Option (Authority × Byte × List Byte)
  | .writeBlock p a => some (p, 1, a.write WriteBlockArgs.encode)
  | .freeBlocks p a => some (p, 2, a.write FreeBlocksArgs.encode)
  | .readBlock p a => some (p, 3, a.write ReadBlockArgs.encode)
  | .defineSpace p a => some (p, 4, a.write DescriptorArgs.encode)
  | .stageSpace p a => some (p, 5, a.write StageSpaceArgs.encode)
  | .cancelStage p a => some (p, 6, a.write NumberArgs.encode)
  | .retireSpace p a => some (p, 7, a.write NumberArgs.encode)
  | .readSpace p a => some (p, 8, a.write NumberArgs.encode)
  | .purge p a => some (p, 9, a.write PurgeArgs.encode)
  | .setClock p a => some (p, 10, a.write SetClockArgs.encode)
  | .setPosture p a => some (p, 11, a.write SetPostureArgs.encode)
  | .setSiteAllowance p a => some (p, 12, a.write SetSiteAllowanceArgs.encode)
  | .forceExit p a => some (p, 13, a.write NumberArgs.encode)
  | .readRoom p a => some (p, 14, a.write DesignatorArgs.encode)
  | .createWorkOrder p a => some (p, 15, a.write CreateWorkOrderArgs.encode)
  | .endorse p a => some (p, 16, a.write EndorseArgs.encode)
  | .activate p a => some (p, 17, a.write NumberArgs.encode)
  | .withdraw p a => some (p, 18, a.write NumberArgs.encode)
  | .readWorkOrder p a => some (p, 19, a.write NumberArgs.encode)
  | .issuePermit p a => some (p, 20, a.write IssuePermitArgs.encode)
  | .revoke p a => some (p, 21, a.write NumberArgs.encode)
  | .readPermit p a => some (p, 22, a.write NumberArgs.encode)
  | .bindDoor p a => some (p, 23, a.write BindDoorArgs.encode)
  | .readDoor p a => some (p, 24, a.write DoorArgs.encode)
  | .remoteConsent p a => some (p, 25, a.write RemoteConsentArgs.encode)
  | .holdLane p a => some (p, 26, a.write NumberArgs.encode)
  | .releaseLane p a => some (p, 27, a.write NumberArgs.encode)
  | .resetLane p a => some (p, 28, a.write NumberArgs.encode)
  | .setTimings p a => some (p, 29, a.write SetTimingsArgs.encode)
  | .readStatus p a => some (p, 30, a.write NoArgs.encode)
  | .estateClear p a => some (p, 31, a.write NoArgs.encode)
  | .unknownCommand p code bytes => some (p, code, bytes)
  | .powerOn | .commandFrameReceived .. | .frameGapTimeout _ | .portBreak _ | .readyLineAsserted _
  | .frameFinished .. | .secondTick | .passageDeadline _ | .stepDeadline _ | .consentDeadline _
  | .checkinDeadline _ | .stayDeadline _ | .selectionDeadline _ | .switchDeadline _ | .pollTurn _
  | .verdictSent _ | .cancelSent _ | .pollUnanswered _ | .presentEnter .. | .presentExit ..
  | .presentCheckin .. | .passage _ | .nothing _ | .laneBreakEnd _ | .framingError _ | .badLength .. => none

/-! ### Answers of door units (R166) -/

/-- The report that a PRESENT carries, by its intent byte; none for credential 0 and an unknown intent (R166). -/
def presentReport (d : DoorId) (credential : Word32) (intent : Byte) : Option Instr :=
  if credential = 0 then none
  else if intent = 1 then some (.presentEnter d credential)
  else if intent = 2 then some (.presentExit d credential)
  else if intent = 3 then some (.presentCheckin d credential)
  else none

/-- The report that an answer gives, by its address, kind and payload (R166); none where it is no report that the
table of R166 lists. -/
def answerReport (l : LaneNo) (address kind : Byte) (payload : List Byte) : Option Instr :=
  if h : address.toNat < 16 then
    let d : DoorId := ⟨l, ⟨address.toNat, h⟩⟩
    match kind.toNat, payload with
    | 8, [c3, c2, c1, c0, intent] => presentReport d (word32 c3 c2 c1 c0) intent
    | 9, [] => some (.passage d)
    | 10, [] => some (.nothing d)
    | _, _ => none
  else none

/-- The event that the bytes received in a lane's answer time stand for (R163, R166). A frame whose length byte does not
match the number of bytes received, whose check fails or whose kind is no report leaves the poll unanswered, and so
does a PRESENT with credential 0 or an unknown intent. That a report whose payload has not its kind's length does so
too is DESIGN CHOICE (assumption 41). -/
def decodeAnswer (l : LaneNo) (frame : List Byte) : Instr :=
  match frame with
  | address :: kind :: length :: rest =>
    let payload := rest.take length.toNat
    match rest.drop length.toNat with
    | [c1, c0] =>
      if Machine.frameCheck (address :: kind :: length :: payload) = word16 c1 c0 then
        (answerReport l address kind payload).getD (.pollUnanswered l)
      else .pollUnanswered l
    | _ => .pollUnanswered l
  | _ => .pollUnanswered l

/-- The frame with which a door unit makes a report (R166); none for what is no report. -/
def encodeAnswer : Instr → Option (LaneNo × List Byte)
  | .presentEnter d c => some (d.lane, Machine.laneFrame d.address 8 (bytes32 c ++ [1]))
  | .presentExit d c => some (d.lane, Machine.laneFrame d.address 8 (bytes32 c ++ [2]))
  | .presentCheckin d c => some (d.lane, Machine.laneFrame d.address 8 (bytes32 c ++ [3]))
  | .passage d => some (d.lane, Machine.laneFrame d.address 9 [])
  | .nothing d => some (d.lane, Machine.laneFrame d.address 10 [])
  | _ => none

end Sys2Proof
end

