-- ==== Sys2Proof/Machine/Codes.lean ====
section
/-! DEFINITION. The values of codes (R168, R11) and the bytes of what notices, replies and verdicts carry. -/

namespace Sys2Proof.Machine

/-- Value of a deny code (R168). -/
def DenyCode.value : DenyCode → Byte
  | .doorUnbound => 1 | .held => 2 | .clockUnset => 3 | .lockdown => 4 | .noPermit => 5 | .revoked => 6
  | .alreadyInside => 7 | .workOrderInactive => 8 | .dayRange => 9 | .notGranted => 10 | .outOfScope => 11
  | .length => 12 | .tableFree => 13 | .tableKind => 14 | .foreignTable => 15 | .badOrigin => 16
  | .entryInvalid => 17 | .privateConflict => 18 | .overlayFault => 19 | .securityBar => 20 | .custodian => 21
  | .outsideWindow => 22 | .pairingBusy => 23 | .partyFull => 24 | .roomFull => 25 | .occupancyTableFull => 26
  | .doorBusy => 27 | .notInside => 28 | .escortAbsent => 29 | .pairingBroken => 30 | .consentRefused => 31
  | .consentTimeout => 32 | .cancelled => 33 | .spaceSwitched => 34

/-- Value of a refusal code (R168). -/
def RefusalCode.value : RefusalCode → Byte
  | .unknownCommand => 1 | .badArgument => 2 | .notPermitted => 3 | .notOwner => 4 | .inUse => 5
  | .tableNotReady => 6 | .spaceTableFull => 7 | .stagePending => 8 | .notStaged => 9
  | .workOrderTableFull => 10 | .closing => 11 | .noOption => 12 | .shortfall => 13
  | .duplicateCredential => 14 | .permitTableFull => 15 | .notInside => 16 | .doorBusy => 17 | .tooLate => 18
  | .occupied => 19

/-- Owner code of a table block (R11). -/
def ownerCode : Option (Authority × Kind) → Byte
  | none => 0
  | some (.sec, _) => 1
  | some (.fac, _) => 2
  | some (.lld, _) => 3

/-- Kind code of a table block (R11). -/
def kindCode : Option (Authority × Kind) → Byte
  | none => 0
  | some (_, .estate) => 1
  | some (_, .site) => 2
  | some (_, .zone) => 3

/-- Value of an authority, in the order in which R22 lists them (R168). -/
def authorityValue : Authority → Byte
  | .sec => 0 | .fac => 1 | .lld => 2

/-- Value of a scope, in the order in which R22 lists them (R168). -/
def scopeValue : Scope → Byte
  | .estate => 0 | .site _ => 1 | .zone _ _ => 2

/-- Value of a posture (R86, R168). -/
def postureValue : Posture → Byte
  | .normal => 0 | .restricted => 1 | .lockdown => 2

/-- Value of a role (R85, R168). -/
def roleValue : Role → Byte
  | .technician => 0 | .apprentice => 1 | .supervisor => 2 | .escort => 3

/-- Value of a side (R133, R168). -/
def sideValue : Side → Byte
  | .outer => 0 | .inner => 1

/-- Value of a presence (R132, R168). -/
def presenceValue : Presence → Byte
  | .unknown => 0 | .ready => 1 | .failed => 2

/-- Value of an admission state (R132, R168). -/
def admissionValue : AdmissionState → Byte
  | .idle => 0 | .pairing => 1 | .awaitingConsent => 2 | .passageOpen => 3

/-- Value of a preference (R100, R168). -/
def preferenceValue : Preference → Byte
  | .longer => 0 | .shorter => 1

/-- Value of a work-order state (R100, R168). -/
def workOrderStateValue : WorkOrderState → Byte
  | .pending => 0 | .active => 1 | .lapsed => 2 | .closing _ => 3

/-- Value of a permit state (R118, R168). -/
def permitStateValue : PermitState → Byte
  | .idle => 0 | .pending .. => 1 | .inside _ => 2

/-- Value of the cause of a switch (R29, R168). -/
def switchCauseValue : SwitchCause → Byte
  | .immediate => 0 | .drained => 1 | .forced => 2

/-- Value of the cause of a freed permit (R130, R168). -/
def releaseCauseValue : ReleaseCause → Byte
  | .revoked => 0 | .withdrawn => 1 | .expired => 2 | .released => 3 | .exit => 4

/-- Value of the cause of a PASSBACK (R144, R168). -/
def passbackCauseValue : PassbackCause → Byte
  | .notInside => 0 | .doorBusy => 1

/-- Value of the cause of a DOOR_ANNOUNCED (R163, R168). -/
def announceCauseValue : AnnounceCause → Byte
  | .first => 0 | .recovered => 1

/-- Value of the mark of an Open verdict (R166). -/
def openMarkValue : OpenMark → Byte
  | .plain => 0 | .notRecorded => 1 | .checkIn => 2

/-! ### Items of several bytes (R168) -/

/-- A designator: site, zone, room. -/
def designatorBytes (r : Designator) : List Byte := num1 r.site.val ++ num1 r.zone.val ++ num1 r.room.val

/-- A door: lane, address. -/
def doorBytes (d : DoorId) : List Byte := num1 d.lane.val ++ num1 d.address.val

/-- A window: start, length. -/
def windowBytes (w : Window) : List Byte := num2 w.start ++ num2 w.length

/-- The binding of a door: a designator with a side. -/
def bindingBytes (b : Binding) : List Byte := designatorBytes b.room ++ [sideValue b.side]

/-- A descriptor (R22): authority, scope, scope site, scope zone, top origin (65535 for none), top length,
private flag. A scope site or scope zone that the scope does not use is carried as 0. -/
def descriptorBytes (d : Descriptor) : List Byte :=
  let place : Nat × Nat := match d.scope with
    | .estate => (0, 0)
    | .site s => (s.val, 0)
    | .zone s z => (s.val, z.val)
  [authorityValue d.authority, scopeValue d.scope] ++ num1 place.1 ++ num1 place.2 ++
    num2 (match d.topOrigin with | none => 65535 | some o => o.val) ++ num1 d.topLength ++ flagByte d.isPrivate

/-! ### Notices (R167, R168) -/

/-- Code of a notice (R168). -/
def Notice.code : Notice → Byte
  | .entered .. => 1 | .exited .. => 2 | .checkedIn .. => 3 | .denied .. => 4 | .passback .. => 5
  | .unrecordedPassage .. => 6 | .overdue .. => 7 | .overstay .. => 8 | .consentRequest .. => 9
  | .doorAnnounced .. => 10 | .doorFailed .. => 11 | .overAllowance .. => 12 | .spaceSwitched .. => 13
  | .optionSelected .. => 14 | .workOrderLapsed .. => 15 | .shortfall .. => 16 | .permitReleased .. => 17

/-- Whether a notice is of class Safety (R175). -/
def Notice.isSafety : Notice → Bool
  | .overdue .. | .overstay .. | .consentRequest .. | .unrecordedPassage .. | .doorFailed .. => true
  | .entered .. | .exited .. | .checkedIn .. | .denied .. | .passback .. | .doorAnnounced .. | .overAllowance ..
  | .spaceSwitched .. | .optionSelected .. | .workOrderLapsed .. | .shortfall .. | .permitReleased .. => false

/-- Contents of a notice, in the order in which the rule that queues it lists them (R168). PASSBACK and CONSENT_REQUEST
carry their binding behind a presence byte, as every binding that may be Unbound does: DESIGN CHOICE (assumption 22). -/
def Notice.contents : Notice → List Byte
  | .entered p c r d side stay =>
    num1 p.val ++ bytes32 c ++ designatorBytes r ++ doorBytes d ++ [sideValue side] ++ optional num4 stay
  | .exited forced p c r d =>
    flagByte forced ++ num1 p.val ++ bytes32 c ++ designatorBytes r ++
      optional (fun x => doorBytes x.1) d ++ optional (fun x => [sideValue x.2]) d
  | .checkedIn p r d seconds => num1 p.val ++ designatorBytes r ++ doorBytes d ++ num2 seconds
  | .denied d b c code p =>
    doorBytes d ++ optional bindingBytes b ++ bytes32 c ++ [code.value] ++
      optional (fun x => num1 x.1.val) p ++ optional (fun x => num1 x.2.val) p
  | .passback d b c cause => doorBytes d ++ optional bindingBytes b ++ bytes32 c ++ [passbackCauseValue cause]
  | .unrecordedPassage d b st => doorBytes d ++ optional bindingBytes b ++ [admissionValue st]
  | .overdue p c w r => num1 p.val ++ bytes32 c ++ num1 w.val ++ designatorBytes r
  | .overstay p c w r => num1 p.val ++ bytes32 c ++ num1 w.val ++ designatorBytes r
  | .consentRequest d b p c w level seconds =>
    doorBytes d ++ optional bindingBytes b ++ num1 p.val ++ bytes32 c ++ num1 w.val ++ num1 level ++ num1 seconds
  | .doorAnnounced d b cause => doorBytes d ++ optional bindingBytes b ++ [announceCauseValue cause]
  | .doorFailed d b => doorBytes d ++ optional bindingBytes b
  | .overAllowance r load a => designatorBytes r ++ num1 load ++ num1 a
  | .spaceSwitched sp g cause n => num1 sp.val ++ [g, switchCauseValue cause] ++ num1 n
  | .optionSelected w o cap rem level short =>
    num1 w.val ++ num1 o ++ num1 cap ++ num2 rem ++ num1 level ++ flagByte short
  | .workOrderLapsed w (.noOption reasons) =>
    num1 w.val ++ [0] ++ 1 :: counted (fun c => [DenyCode.value c]) reasons ++ [0] ++ [0]
  | .workOrderLapsed w (.shortfall o cap) => num1 w.val ++ [1] ++ [0] ++ 1 :: num1 o ++ 1 :: num1 cap
  | .shortfall w o cap minimum => num1 w.val ++ num1 o ++ num1 cap ++ num1 minimum
  | .permitReleased p c cause => num1 p.val ++ bytes32 c ++ [releaseCauseValue cause]

/-- The frame of a notice, with the dropped mark read as its sending begins (R167, R174). -/
def Notice.frame (dropped : Bool) (n : Notice) : List Byte :=
  portFrame 3 n.code (flagByte n.isSafety ++ flagByte dropped ++ n.contents)

/-- The frame of a reply (R167, R169). -/
def Reply.frame (r : Reply) : List Byte :=
  portFrame 2 r.code <|
    match r.answer with
    | .accepted results => [0, 0] ++ results
    | .refused code values => [1, code.value] ++ values

/-! ### Frames to a door unit (R166) -/

/-- The outcome byte of a verdict: 0 for Open, or the value of a deny code. -/
def verdictOutcomeValue : VerdictOutcome → Byte
  | .admitted | .opened _ => 0
  | .deny c => c.value

/-- The mark byte of a verdict. -/
def verdictMarkValue : VerdictOutcome → Byte
  | .admitted => openMarkValue .plain
  | .opened m => openMarkValue m
  | .deny _ => 0

/-- The passage time a verdict carries: 0 for a deny and for an Open with the check-in mark. -/
def verdictPassageTime (passageTime : Nat) : VerdictOutcome → Nat
  | .opened .checkIn => 0
  | .admitted | .opened _ => passageTime
  | .deny _ => 0

/-- The VERDICT frame, with the passage time that stands when it is sent (R166, R170). -/
def verdictFrame (address : DoorAddress) (passageTime : Nat) (v : Verdict) : List Byte :=
  laneFrame address 2 <|
    [verdictOutcomeValue v.outcome, verdictMarkValue v.outcome] ++
      num1 (verdictPassageTime passageTime v.outcome) ++ num1 v.credentials.length ++ v.credentials.flatMap bytes32

/-- The POLL frame. -/
def pollFrame (address : DoorAddress) : List Byte := laneFrame address 1 []

/-- The CANCEL frame. -/
def cancelFrame (address : DoorAddress) : List Byte := laneFrame address 3 []

end Sys2Proof.Machine
end

