-- ==== Sys2Proof/Machine/Ops.lean ====
section
/-! DEFINITION. Reading and writing the tables of the device, queuing notices, and taking a command at a port.
Every meaning reads and writes state through these. -/

namespace Sys2Proof.Machine

/-! ### Tables -/

/-- The records of a table with their numbers, in number order. -/
def numbered {α : Type} {n : Nat} (v : Vector α n) : List (Fin n × α) := (List.finRange n).zip v.toList

/-- The lowest number whose record satisfies `p`. -/
def lowest {α : Type} {n : Nat} (p : α → Bool) (v : Vector α n) : Option (Fin n) :=
  ((numbered v).find? fun x => p x.2).map Prod.fst

/-- The lowest number from `k` up whose record satisfies `p`. -/
def lowestFrom {α : Type} {n : Nat} (k : Nat) (p : α → Bool) (v : Vector α n) : Option (Fin n) :=
  ((numbered v).find? fun x => decide (k ≤ x.1.val) && p x.2).map Prod.fst

/-- The numbers whose records satisfy `p`, in number order. -/
def numbersWhere {α : Type} {n : Nat} (p : α → Bool) (v : Vector α n) : List (Fin n) :=
  ((numbered v).filter fun x => p x.2).map Prod.fst

/-- How many records of a table satisfy `p`. -/
def countWhere {α : Type} {n : Nat} (p : α → Bool) (v : Vector α n) : Nat := v.toList.countP p

/-- A list in the order of the numbers that `key` gives its members; members of equal number keep their order. -/
def byNumber {α : Type} (key : α → Nat) (l : List α) : List α := l.insertionSort fun a b => key a ≤ key b

/-- A table block. -/
def State.block (s : State) (b : BlockNo) : Block := s.blocks.get b
/-- Write a table block. -/
def State.setBlock (s : State) (b : BlockNo) (x : Block) : State := { s with blocks := s.blocks.set b x }
/-- The block of a number that a pointer gives; a number past 511 reads as a Free block, and no pointer that
passed R13 or R25 gives one. -/
def State.blockAt (s : State) (b : Nat) : Block := if h : b < 512 then s.block ⟨b, h⟩ else Block.free

/-- A space record. -/
def State.space (s : State) (n : SpaceNo) : SpaceRecord := s.spaces.get n
/-- Write a space record. -/
def State.setSpace (s : State) (n : SpaceNo) (x : SpaceRecord) : State := { s with spaces := s.spaces.set n x }

/-- A site record. -/
def State.site (s : State) (n : SiteNo) : SiteRecord := s.sites.get n
/-- Write a site record. -/
def State.setSite (s : State) (n : SiteNo) (x : SiteRecord) : State := { s with sites := s.sites.set n x }

/-- An occupancy record, or none when the number is out of use. -/
def State.record (s : State) (n : RecordNo) : Option OccupancyRecord := s.occupancy.get n
/-- Write an occupancy record. -/
def State.setRecord (s : State) (n : RecordNo) (x : Option OccupancyRecord) : State :=
  { s with occupancy := s.occupancy.set n x }

/-- A work-order record, or none when unused. -/
def State.workOrder (s : State) (n : WorkOrderNo) : Option WorkOrder := s.workOrders.get n
/-- Write a work-order record. -/
def State.setWorkOrder (s : State) (n : WorkOrderNo) (x : Option WorkOrder) : State :=
  { s with workOrders := s.workOrders.set n x }

/-- A permit record, or none when unused. -/
def State.permit (s : State) (n : PermitNo) : Option Permit := s.permits.get n
/-- Write a permit record. -/
def State.setPermit (s : State) (n : PermitNo) (x : Option Permit) : State := { s with permits := s.permits.set n x }

/-- The place of a door in the door table. -/
def doorIndex (d : DoorId) : Fin 64 := ⟨16 * d.lane.val + d.address.val, by omega⟩
/-- The door at a place of the door table. -/
def doorOfIndex (i : Fin 64) : DoorId := ⟨⟨i.val / 16, by omega⟩, ⟨i.val % 16, by omega⟩⟩
/-- A door record. -/
def State.door (s : State) (d : DoorId) : Door := s.doors.get (doorIndex d)
/-- Write a door record. -/
def State.setDoor (s : State) (d : DoorId) (x : Door) : State := { s with doors := s.doors.set (doorIndex d) x }
/-- Every door, in lane and then address order. -/
def allDoors : List DoorId := (List.finRange 64).map doorOfIndex
/-- The doors of a lane, in address order. -/
def laneDoors (l : LaneNo) : List DoorId := (List.finRange 16).map fun a => ⟨l, a⟩

/-- A pairing slot, or none when free. -/
def State.slot (s : State) (k : SlotNo) : Option Slot := s.slots.get k
/-- Write a pairing slot. -/
def State.setSlot (s : State) (k : SlotNo) (x : Option Slot) : State := { s with slots := s.slots.set k x }

/-- A lane controller. -/
def State.lane (s : State) (l : LaneNo) : Lane := s.lanes.get l
/-- Write a lane controller. -/
def State.setLane (s : State) (l : LaneNo) (x : Lane) : State := { s with lanes := s.lanes.set l x }

/-- A port of the three. -/
def Ports.get (ps : Ports) : Authority → Port
  | .sec => ps.sec
  | .fac => ps.fac
  | .lld => ps.lld
/-- Write a port of the three. -/
def Ports.set (ps : Ports) (a : Authority) (x : Port) : Ports :=
  match a with
  | .sec => { ps with sec := x }
  | .fac => { ps with fac := x }
  | .lld => { ps with lld := x }
/-- An authority port. -/
def State.port (s : State) (a : Authority) : Port := s.ports.get a
/-- Write an authority port. -/
def State.setPort (s : State) (a : Authority) (x : Port) : State := { s with ports := s.ports.set a x }

/-! ### Views of a record -/

/-- A space is in use while it has a current descriptor (R21). -/
def SpaceRecord.inUse (r : SpaceRecord) : Bool := r.current.isSome
/-- The Go flag (R21, R28). -/
def SpaceRecord.go (r : SpaceRecord) : Bool := r.waiting.isSome
/-- The owner of a space is the authority of its current descriptor (R21). -/
def SpaceRecord.owner (r : SpaceRecord) : Option Authority := r.current.map Descriptor.authority

/-- The admission state of a door (R132). -/
def Admission.state : Admission → AdmissionState
  | .idle => .idle
  | .pairing .. => .pairing
  | .awaitingConsent .. => .awaitingConsent
  | .openEnter .. | .openExit .. => .passageOpen

/-- The permits held by the admission in progress at a door, contractor then escort (R132). -/
def Admission.held : Admission → List PermitNo
  | .idle => []
  | .pairing n _ | .awaitingConsent n _ => [n]
  | .openEnter held _ => held.map HeldPermit.permit
  | .openExit held _ => held.toList

/-- Doors in the order of the first permit that each holds, those that hold none last: the pairings that a lane reset
cancels are taken in this order (R175, assumption 21). -/
def State.byHeldPermit (s : State) (ds : List DoorId) : List DoorId :=
  byNumber (fun d => match (s.door d).admission.held with | n :: _ => n.val | [] => 256) ds

/-- Slots in the order of their contractors (R175). -/
def State.byContractor (s : State) (ks : List SlotNo) : List SlotNo :=
  byNumber (fun k => match s.slot k with | some x => x.contractor.val | none => 256) ks

/-- What a summary speaks for: the tag's site, zone and room of its cache entry (R63). -/
def Summary.covers : Summary → Coverage
  | .grant g => g.covers
  | .overlay o => o.covers

/-- Whether the permit is Pending or Inside, and so on a room's list and counted in loads (R119). -/
def PermitState.counted : PermitState → Bool
  | .idle => false
  | .pending .. | .inside _ => true

/-- Weight of a role in load units (R85). -/
def Role.weight : Role → Nat
  | .technician => 2
  | .apprentice => 3
  | .supervisor => 2
  | .escort => 1

/-- Weight of a permit (R85); 0 for a number out of use. -/
def State.weight (s : State) (n : PermitNo) : Nat :=
  match s.permit n with
  | some p => p.role.weight
  | none => 0

/-- The permit bound to a credential, if any (R118). -/
def State.permitOf (s : State) (c : Credential) : Option PermitNo :=
  lowest (fun r => match r with | some p => p.credential == c | none => false) s.permits

/-- The credential of a permit in use; 0 for a number out of use. -/
def State.credentialOf (s : State) (n : PermitNo) : Credential :=
  match s.permit n with
  | some p => p.credential
  | none => 0

/-- The issuer of a work order; Security for a number out of use. -/
def State.issuer (s : State) (w : WorkOrderNo) : Authority :=
  match s.workOrder w with
  | some r => r.issuer
  | none => .sec

/-- The occupancy record of a room, if it has one (R91). -/
def State.recordOf (s : State) (r : Designator) : Option RecordNo :=
  lowest (fun x => match x with | some o => o.room = r | none => false) s.occupancy

/-- The selected option of a work order (R100). -/
def WorkOrder.selectedOption (w : WorkOrder) : Option WorkOption := w.selected.bind fun k => w.options[k - 1]?

/-- The pairing slot of a door, if it has one (R149). -/
def State.slotOf (s : State) (d : DoorId) : Option SlotNo :=
  lowest (fun x => match x with | some k => k.door = d | none => false) s.slots

/-- Whether a slot names the permit, as contractor or as escort (R149). -/
def Slot.holds (k : Slot) (n : PermitNo) : Bool :=
  k.contractor == n || (match k.escort with | some e => e.permit == n | none => false)

/-- The slot that holds a permit, if any (R128, R149). -/
def State.slotHolding (s : State) (n : PermitNo) : Option SlotNo :=
  lowest (fun x => match x with | some k => k.holds n | none => false) s.slots

/-! ### The transmitter and the notice queues (R174, R176) -/

/-- The transmitter's choice (R176): while it is idle, a waiting reply first, else the oldest notice when the
ready line is asserted, else nothing. A notice carries the dropped mark and clears the flag as its sending
begins (R174). -/
def Port.choose (q : Port) : Port :=
  match q.transmitter with
  | some _ => q
  | none =>
    match q.reply with
    | some r => { q with reply := none, transmitter := some r.frame }
    | none =>
      match q.ready, q.queue with
      | true, n :: rest => { q with queue := rest, dropped := false, transmitter := some (n.frame q.dropped) }
      | _, _ => q

/-- The queue without its oldest Routine notice. -/
def dropOldestRoutine : List Notice → List Notice
  | [] => []
  | n :: rest => if n.isSafety then n :: dropOldestRoutine rest else rest

/-- A notice joins a queue by its class and the number of entries held (the table of R174). -/
def Port.join (q : Port) (n : Notice) : Port :=
  if n.isSafety then
    if q.queue.length < 32 then { q with queue := q.queue ++ [n] }
    else if q.queue.all Notice.isSafety then { q with dropped := true }
    else { q with queue := dropOldestRoutine q.queue ++ [n] }
  else if q.queue.length < 30 then { q with queue := q.queue ++ [n] }
  else { q with dropped := true }

/-- The ready line sampled for the choice of an idle transmitter (R176): the controller's next level, or the last one
while it gives none (assumption 3). A transmitter at work makes no choice and samples nothing. -/
def Port.sample (q : Port) : Port :=
  match q.transmitter, q.levels with
  | none, level :: rest => { q with ready := level, levels := rest }
  | _, _ => q

/-- Queue a notice to one port; an idle transmitter samples the ready line and may begin it at once (R174, R176). -/
def State.notify (s : State) (a : Authority) (n : Notice) : State := s.setPort a ((s.port a).join n).sample.choose

/-- Queue a notice to Security and to an issuer: one copy when Security is the issuer (R175). -/
def State.notifyBoth (s : State) (issuer : Authority) (n : Notice) : State :=
  let s1 := s.notify .sec n
  if issuer = .sec then s1 else s1.notify issuer n

/-! ### Taking a command (R169) -/

/-- Hold the place of the reply that the command being carried out will make: the buffer is free from the moment
the command is taken, the reply is made ready before the notices the command causes, so an idle transmitter is the
reply's from now on, and the port takes no other command before this one's reply has begun (R169, R176). -/
def State.reserveReply (s : State) (p : Authority) : State :=
  let q := s.port p
  s.setPort p
    { q with buffer := none, reply := some ⟨0, .accepted []⟩, transmitter := some (q.transmitter.getD []) }

/-- Make the reply ready: an idle transmitter began it, a busy one leaves it waiting (R169, R176). -/
def State.makeReply (s : State) (p : Authority) (wasIdle : Bool) (r : Reply) : State :=
  let q := s.port p
  s.setPort p (if wasIdle then { q with reply := none, transmitter := some r.frame } else { q with reply := some r })

/-- Carry out a command whole and make its one reply ready in the same action (R169). -/
def carryOut (p : Authority) (code : Byte) (body : State → State × Answer) (s : State) : State :=
  let r := body (s.reserveReply p)
  r.1.makeReply p (s.port p).transmitter.isNone ⟨code, r.2⟩

/-- Take a command at a port (R169). A port whose buffer holds another frame loses this one. A port with a reply
waiting holds this frame in its buffer. Otherwise the command is carried out. -/
def takeCommand (p : Authority) (code : Byte) (payload : List Byte) (body : State → State × Answer) (s : State) :
    State :=
  let q := s.port p
  if q.buffer = none ∨ q.buffer = some ⟨code, payload⟩ then
    if q.reply.isSome then s.setPort p { q with buffer := some ⟨code, payload⟩ }
    else carryOut p code body s
  else s

/-- Refuse with a code and nothing more; nothing changes. -/
def refuse (code : RefusalCode) (s : State) : State × Answer := (s, .refused code [])

/-- What a command does with its payload: the command's body where the payload ends where its layout ends, and
refused BAD_ARGUMENT where it does not (R169). -/
def judgePayload {α : Type} (payload : Payload α) (body : α → State → State × Answer) (s : State) : State × Answer :=
  match payload with
  | .fields a => body a s
  | .malformed _ => refuse .badArgument s

/-- Take the command of a command row at its port (R169). -/
def runCommand {α : Type} (p : Authority) (code : Byte) (payload : Payload α) (encode : α → List Byte)
    (body : α → State → State × Answer) (s : State) : Host.Outcome State Fault Refusal :=
  .next <| takeCommand p code (match payload with | .fields a => encode a | .malformed bytes => bytes)
    (judgePayload payload body) s

/-! ### Verdicts and DENIED (R135, R141) -/

/-- Add a verdict to the end of a door's outgoing list (R135). -/
def State.addVerdict (s : State) (d : DoorId) (v : Verdict) : State :=
  s.setDoor d { s.door d with outgoing := (s.door d).outgoing ++ [v] }

/-- Queue DENIED for a credential at a door (R141). -/
def State.notifyDenied (s : State) (d : DoorId) (c : Credential) (code : DenyCode) : State :=
  match s.permitOf c with
  | none => s.notify .sec (.denied d (s.door d).binding c code none)
  | some n =>
    match s.permit n with
    | none => s.notify .sec (.denied d (s.door d).binding c code none)
    | some p =>
      s.notifyBoth (s.issuer p.workOrder) (.denied d (s.door d).binding c code (some (n, p.workOrder)))

/-- Deny a presentation: a verdict for its credential, and DENIED (R141). -/
def State.denyPresentation (s : State) (d : DoorId) (c : Credential) (code : DenyCode) : State :=
  (s.addVerdict d ⟨.deny code, [c], false⟩).notifyDenied d c code

/-- A verdict made for an admission that has ended: its sending changes no state of the door (R135). -/
def Verdict.ended (v : Verdict) : Verdict := { v with admits := false }

/-- The admission at a door ends: the door is Idle and holds nothing, and an Open still waiting for it opens no
admission any more (R135). -/
def State.endAdmission (s : State) (d : DoorId) : State :=
  let x := s.door d
  s.setDoor d { x with admission := .idle, outgoing := x.outgoing.map Verdict.ended }

end Sys2Proof.Machine
end

