-- ==== Sys2Proof/Machine/Operands.lean ====
section
/-! DEFINITION. The values that command arguments may have: each function answers none for a value out of its
range, which the command's rule refuses BAD_ARGUMENT. -/

namespace Sys2Proof.Machine

/-- A table block 0..511 (R1). -/
def block? (w : Word16) : Option BlockNo := if h : w.toNat < 512 then some ⟨w.toNat, h⟩ else none
/-- A space number 0..63 (R21). -/
def space? (b : Byte) : Option SpaceNo := if h : b.toNat < 64 then some ⟨b.toNat, h⟩ else none
/-- A work order number 0..63 (R100). -/
def workOrder? (b : Byte) : Option WorkOrderNo := if h : b.toNat < 64 then some ⟨b.toNat, h⟩ else none
/-- A permit number: one byte names every permit 0..255 (R118, R168). -/
def permitNo (b : Byte) : PermitNo := ⟨b.toNat, b.isLt⟩
/-- A lane number 0..3 (R161). -/
def lane? (b : Byte) : Option LaneNo := if h : b.toNat < 4 then some ⟨b.toNat, h⟩ else none
/-- A site number 0..127. -/
def site? (b : Byte) : Option SiteNo := if h : b.toNat < 128 then some ⟨b.toNat, h⟩ else none
/-- A zone number 0..31. -/
def zone? (b : Byte) : Option ZoneNo := if h : b.toNat < 32 then some ⟨b.toNat, h⟩ else none
/-- A room number 0..31. -/
def room? (b : Byte) : Option RoomNo := if h : b.toNat < 32 then some ⟨b.toNat, h⟩ else none

/-- A flag: 0 or 1 (R168). -/
def flag? (b : Byte) : Option Bool := if b = 0 then some false else if b = 1 then some true else none

/-- A kind code 1, 2 or 3 (R11, R15). -/
def kind? (b : Byte) : Option Kind :=
  if b = 1 then some .estate else if b = 2 then some .site else if b = 3 then some .zone else none

/-- A posture code (R87, R168). -/
def posture? (b : Byte) : Option Posture :=
  if b = 0 then some .normal else if b = 1 then some .restricted else if b = 2 then some .lockdown else none

/-- A role code (R120, R168). -/
def role? (b : Byte) : Option Role :=
  if b = 0 then some .technician else if b = 1 then some .apprentice
  else if b = 2 then some .supervisor else if b = 3 then some .escort else none

/-- A side code (R133, R168). -/
def side? (b : Byte) : Option Side := if b = 0 then some .outer else if b = 1 then some .inner else none

/-- A preference code (R103, R168). -/
def preference? (b : Byte) : Option Preference :=
  if b = 0 then some .longer else if b = 1 then some .shorter else none

/-- A room designator: site up to 127, zone and room up to 31 (R99, R103, R133). -/
def designator? (a : DesignatorArgs) : Option Designator :=
  match site? a.site, zone? a.zone, room? a.room with
  | some s, some z, some r => some ⟨s, z, r⟩
  | _, _, _ => none

/-- A door: lane up to 3, address up to 15 (R133, R148, R158). -/
def door? (a : DoorArgs) : Option DoorId :=
  match lane? a.lane with
  | none => none
  | some l => if h : a.address.toNat < 16 then some ⟨l, ⟨a.address.toNat, h⟩⟩ else none

/-- A scope with its scope site and scope zone; one the scope does not use is ignored (R25). -/
def scope? (a : DescriptorArgs) : Option Scope :=
  if a.scope = 0 then some .estate
  else if a.scope = 1 then (site? a.site).map Scope.site
  else if a.scope = 2 then
    match site? a.site, zone? a.zone with
    | some s, some z => some (.zone s z)
    | _, _ => none
  else none

/-- The longest top table of a scope in blocks (R22). -/
def maxTopLength : Scope → Nat
  | .estate => 16
  | .site _ | .zone _ _ => 4

/-- The descriptor that DEFINE SPACE or STAGE SPACE carries, naming the issuer: every field within the ranges of
R25, and the range ending at block 511 at most. Origin none, 65535, is given as `none`. -/
def descriptor? (issuer : Authority) (a : DescriptorArgs) : Option Descriptor :=
  match scope? a, flag? a.isPrivate with
  | some scope, some isPrivate =>
    if a.length.toNat = 0 ∨ maxTopLength scope < a.length.toNat then none
    else if a.origin = 65535 then some ⟨issuer, scope, none, a.length.toNat, isPrivate⟩
    else
      match block? a.origin with
      | none => none
      | some o =>
        if 511 < o.val + a.length.toNat - 1 then none
        else some ⟨issuer, scope, some o, a.length.toNat, isPrivate⟩
  | _, _ => none

/-- An option of CREATE WORK ORDER within its ranges (R103). -/
def option? (a : OptionArgs) : Option WorkOption :=
  match space? a.space with
  | none => none
  | some sp =>
    if a.cap.toNat = 0 ∨ 127 < a.cap.toNat then none
    else
      match a.window with
      | none => some ⟨sp, none, a.cap.toNat⟩
      | some (start, length) =>
        if 1440 ≤ start.toNat ∨ length.toNat = 0 ∨ 1440 < length.toNat then none
        else some ⟨sp, some ⟨start.toNat, length.toNat⟩, a.cap.toNat⟩

/-- The options of CREATE WORK ORDER, every one within its ranges (R103). -/
def options? : List OptionArgs → Option (List WorkOption)
  | [] => some []
  | a :: rest =>
    match option? a, options? rest with
    | some o, some os => some (o :: os)
    | _, _ => none

/-- The renewal interval as stored: rounded up to 5, 15, 30 or 60 (R103). -/
def renewalStored (b : Byte) : Nat :=
  if b.toNat ≤ 5 then 5 else if b.toNat ≤ 15 then 15 else if b.toNat ≤ 30 then 30 else 60

/-- A value clamped into a range (R170). -/
def clamp (low high n : Nat) : Nat := min high (max low n)

/-- What CREATE WORK ORDER asks for, with every argument within its range (R103 step 1): the record that an
accepted command writes. -/
def newWorkOrder? (issuer : Authority) (a : CreateWorkOrderArgs) : Option WorkOrder :=
  match options? a.options, designator? a.home, preference? a.preference, flag? a.refuseOnShortfall with
  | some options, some home, some preference, some refuseFlag =>
    if options.length = 0 ∨ 7 < options.length ∨ 127 < a.requiredMinimum.toNat
        ∨ a.lastDay.toNat < a.firstDay.toNat then none
    else some
      { issuer := issuer, state := .pending, options := options, home := some home,
        requiredMinimum := a.requiredMinimum.toNat, renewal := renewalStored a.renewal,
        preference := preference, refuseOnShortfall := refuseFlag,
        days := some (a.firstDay.toNat, a.lastDay.toNat),
        endorsedByFacilities := false, endorsedByLandlord := false, selected := none, capInForce := 0,
        shortfall := false, deadline := none, party := 0 }
  | _, _, _, _ => none

/-- The binding that BIND DOOR carries, within its ranges; the outer `none` is a value out of range (R133). -/
def binding? : Option (DesignatorArgs × Byte) → Option (Option Binding)
  | none => some none
  | some (r, side) =>
    match designator? r, side? side with
    | some room, some sd => some (some ⟨room, sd⟩)
    | _, _ => none

end Sys2Proof.Machine
end

