-- ==== Sys2Proof/Machine/BlockCommands.lean ====
section
/-! DEFINITION. The block commands (section 1.7). -/

namespace Sys2Proof.Machine

/-- Whether a block lies in the top-table range of a descriptor (R22). -/
def Descriptor.names (d : Descriptor) (b : Nat) : Bool :=
  match d.topOrigin with
  | none => false
  | some o => decide (o.val ≤ b) && decide (b < o.val + d.topLength)

/-- Whether a block lies in the top-table range of a space's current or staged descriptor (R17). -/
def State.namedBySpace (s : State) (b : Nat) : Bool :=
  s.spaces.toList.any fun r =>
    (match r.current with | some d => d.names b | none => false) ||
      (match r.waiting with | some w => w.descriptor.names b | none => false)

/-- Whether a block is owned by an authority (R1). -/
def State.ownedBy (s : State) (a : Authority) (b : Nat) : Bool :=
  match (s.blockAt b).owner with
  | some (o, _) => o = a
  | none => false

/-- Make every block of a range Free with zero entries, all in one step (R18). -/
def State.freeRange (s : State) (first count : Nat) : State :=
  { s with blocks := Vector.ofFn fun b : BlockNo =>
      if first ≤ b.val ∧ b.val < first + count then Block.free else s.block b }

/-- What WRITE BLOCK does with its arguments (R15, R16). -/
def writeBlock (p : Authority) (a : WriteBlockArgs) (s : State) : State × Answer :=
  match block? a.block, kind? a.kind with
  | some b, some k =>
    match (s.block b).owner with
    | some (o, old) =>
      if o = p then
        (s.setBlock b ⟨some (p, k), a.entries⟩,
          .accepted (num2 b.val ++ [ownerCode (some (o, old)), kindCode (some (o, old))]))
      else (s, .refused .notOwner (num2 b.val))
    | none => (s.setBlock b ⟨some (p, k), a.entries⟩, .accepted (num2 b.val ++ [ownerCode none, kindCode none]))
  | _, _ => refuse .badArgument s

/-- WRITE BLOCK (R15, R16). -/
def execWriteBlock (p : Authority) (a : Payload WriteBlockArgs) (s : State) : Host.Outcome State Fault Refusal :=
  runCommand p 1 a WriteBlockArgs.encode (writeBlock p) s

/-- What FREE BLOCKS does with its arguments (R17, R18). -/
def freeBlocks (p : Authority) (a : FreeBlocksArgs) (s : State) : State × Answer :=
  let first := a.first.toNat
  let count := a.count.toNat
  if count = 0 ∨ 511 < first + count - 1 then refuse .badArgument s
  else
    match (List.range' first count).find? fun b => !s.ownedBy p b with
    | some b => (s, .refused .notOwner (num2 b))
    | none =>
      match (List.range' first count).find? fun b => s.namedBySpace b with
      | some b => (s, .refused .inUse (num2 b))
      | none => (s.freeRange first count, .accepted (num2 first ++ num2 count))

/-- FREE BLOCKS (R17, R18). -/
def execFreeBlocks (p : Authority) (a : Payload FreeBlocksArgs) (s : State) : Host.Outcome State Fault Refusal :=
  runCommand p 2 a FreeBlocksArgs.encode (freeBlocks p) s

/-- What READ BLOCK does with its argument (R19). -/
def readBlock (a : ReadBlockArgs) (s : State) : State × Answer :=
  match block? a.block with
  | none => refuse .badArgument s
  | some b =>
    (s, .accepted ([ownerCode (s.block b).owner, kindCode (s.block b).owner] ++ (s.block b).bytes.toList))

/-- READ BLOCK (R19). -/
def execReadBlock (p : Authority) (a : Payload ReadBlockArgs) (s : State) : Host.Outcome State Fault Refusal :=
  runCommand p 3 a ReadBlockArgs.encode readBlock s

end Sys2Proof.Machine
end

