-- ==== Sys2Proof/Machine/Clear.lean ====
section
/-! DEFINITION. ESTATE CLEAR (section 12.4). -/

namespace Sys2Proof.Machine

/-- A port with its notice queue emptied and its dropped flag cleared; its attention line falls (R173, R178). -/
def Port.emptied (q : Port) : Port := { q with queue := [], dropped := false }

/-- The effects of an accepted ESTATE CLEAR (R173): power-on values, but for the clock and the monotonic count,
the posture, the lanes' hold flags and poll positions, and the timings. The frames and replies of the ports, and
the turns in progress on the lanes, are not the clear's. No request waits any more (R38). -/
def State.cleared (s : State) : State :=
  { s with
    blocks := State.reset.blocks
    spaces := State.reset.spaces
    cache := []
    sites := State.reset.sites
    occupancy := State.reset.occupancy
    workOrders := State.reset.workOrders
    permits := State.reset.permits
    doors := State.reset.doors
    slots := State.reset.slots
    waiting := []
    ports := ⟨s.ports.sec.emptied, s.ports.fac.emptied, s.ports.lld.emptied⟩ }

/-- What ESTATE CLEAR does (R172, R173). -/
def estateClear (p : Authority) (_ : NoArgs) (s : State) : State × Answer :=
  if p ≠ .sec then refuse .notPermitted s
  else if s.occupancy.toList.any Option.isSome then refuse .occupied s
  else (s.cleared, .accepted [])

/-- ESTATE CLEAR (R172, R173). -/
def execEstateClear (p : Authority) (a : Payload NoArgs) (s : State) : Host.Outcome State Fault Refusal :=
  runCommand p 31 a NoArgs.encode (estateClear p) s

end Sys2Proof.Machine
end

