-- ==== Sys2Proof/Machine/Clock.lean ====
section
/-! DEFINITION. Windows, remaining time and deadlines (chapter 5), and the advance of the estate clock. -/

namespace Sys2Proof.Machine

/-- The reading that a decision takes when it begins (R78). -/
def State.reading (s : State) : Reading := ⟨s.clock, s.count⟩

/-- The offset of minute `m` from a window's start, taken modulo 1440 into 0..1439 (R79). -/
def Window.offset (w : Window) (m : Nat) : Nat := (m + 1440 - w.start) % 1440

/-- Whether a window contains a minute of day (R79). -/
def Window.contains (w : Window) (m : Nat) : Bool :=
  if w.length = 1440 then true else if w.length = 0 then false else decide (w.offset m < w.length)

/-- The remaining minutes of a window that contains the minute (R80). -/
def Window.remaining (w : Window) (m : Nat) : Nat := if w.length = 1440 then 1440 else w.length - w.offset m

/-- Whether every window of a list contains the minute. -/
def allContain (ws : List Window) (m : Nat) : Bool := ws.all fun w => w.contains m

/-- The effective remaining over a set of windows that all contain the minute; 1440 for no window (R81). -/
def effectiveRemaining (ws : List Window) (m : Nat) : Nat := ws.foldl (fun r w => min r (w.remaining m)) 1440

/-- Remaining minutes converted into a deadline on the monotonic count (R82). -/
def minuteDeadline (count : Nat) (t : ClockTime) (minutes : Nat) : Nat := count + 60 * minutes - t.second

/-- Whether an overlay item is active at a minute (R59, R83). -/
def OverlayItem.active (i : OverlayItem) (m : Nat) : Bool :=
  match i.window with
  | none => true
  | some w => w.contains m

/-- The day check of a work order (R83); a work order with no day range always passes. -/
def WorkOrder.dayPasses (w : WorkOrder) (day : Nat) : Bool :=
  match w.days with
  | none => true
  | some (first, last) => decide (first ≤ day) && decide (day ≤ last)

/-- What one advance of the estate clock enters (R75). -/
inductive ClockAdvance where
  /-- The clock is Unset, or day 65535 has ended: nothing is handed on. -/
  | unset
  /-- Within a minute. -/
  | second (t : ClockTime)
  /-- A new minute of the same day. -/
  | minute (t : ClockTime)
  /-- A new minute that is a day change. -/
  | day (t : ClockTime)
  deriving DecidableEq, Repr

/-- The estate clock one second on (R75). -/
def advance : Option ClockTime → ClockAdvance
  | none => .unset
  | some t =>
    if t.second + 1 < 60 then .second { t with second := t.second + 1 }
    else if t.minute + 1 < 1440 then .minute { t with minute := t.minute + 1, second := 0 }
    else if t.day < 65535 then .day ⟨t.day + 1, 0, 0⟩
    else .unset

end Sys2Proof.Machine
end

