-- ==== Sys2Proof/Machine/Flags.lean ====
section
/-! DEFINITION. Lines and flags that are functions of other state: the attention line, the driver enable of a
lane, the room allowance and the over-allowance flag. -/

namespace Sys2Proof.Machine

/-- The attention line: asserted while the queue holds a Safety notice (R177). -/
def Port.attention (q : Port) : Bool := q.queue.any Notice.isSafety

/-- How many Safety notices a queue holds (R171). -/
def Port.safetyHeld (q : Port) : Nat := q.queue.countP Notice.isSafety

/-- The driver enable of a lane: asserted while the device sends a frame or a break (section 11.6). -/
def Lane.driverEnable (l : Lane) : Bool :=
  match l.phase with
  | .sendingVerdict _ | .sendingCancel | .breaking => true
  | .between | .polling => false

/-- The allowance of a room with guaranteed load G and ceiling, at a site's E and F and a posture (R90). -/
def allowance (posture : Posture) (site : SiteRecord) (guaranteed ceiling : Nat) : Nat :=
  match posture with
  | .normal => min ceiling (guaranteed + site.extra)
  | .restricted => min ceiling (min guaranteed site.forced)
  | .lockdown => 0

/-- The allowance of a room as posture and site stand (R90). -/
def State.allowanceAt (s : State) (room : Designator) (guaranteed ceiling : Nat) : Nat :=
  allowance s.posture (s.site room.site) guaranteed ceiling

/-- Evaluate the over-allowance flag of a record in use (R96): OVER_ALLOWANCE is queued only when the flag goes
from clear to set. -/
def State.evaluateOver (s : State) (n : RecordNo) : State :=
  match s.record n with
  | none => s
  | some o =>
    let a := s.allowanceAt o.room o.guaranteed o.ceiling
    if a < o.load then
      if o.overAllowance then s
      else (s.setRecord n (some { o with overAllowance := true })).notify .sec (.overAllowance o.room o.load a)
    else s.setRecord n (some { o with overAllowance := false })

/-- Evaluate the flags of the records whose room satisfies `p`, in order of record number (R97). -/
def State.evaluateWhere (s : State) (p : Designator → Bool) : State :=
  (numbersWhere (fun x => match x with | some o => p o.room | none => false) s.occupancy).foldl State.evaluateOver s

end Sys2Proof.Machine
end

