-- ==== Sys2Proof/Machine/Loads.lean ====
section
/-! DEFINITION. Changes of load: reservation, passage, release and exit of permits (R94, R95, R113, R119, R121,
R122), the freeing of permits (R130) and of work orders (R116). -/

namespace Sys2Proof.Machine

/-! ### Freeing -/

/-- Free a permit record: its credential is unbound, and PERMIT_RELEASED goes to its work order's issuer
(R130). -/
def State.freePermit (s : State) (n : PermitNo) (cause : ReleaseCause) : State :=
  match s.permit n with
  | none => s
  | some p => (s.setPermit n none).notify (s.issuer p.workOrder) (.permitReleased n p.credential cause)

/-- The permits of a work order, in number order. -/
def State.permitsOf (s : State) (w : WorkOrderNo) : List PermitNo :=
  numbersWhere (fun r => match r with | some p => p.workOrder = w | none => false) s.permits

/-- Whether a work order has a permit Pending or Inside (R116). -/
def State.hasCounted (s : State) (w : WorkOrderNo) : Bool :=
  (lowest (fun r => match r with | some p => p.workOrder = w && p.state.counted | none => false) s.permits).isSome

/-- The cause that the freeing of a work order gives its remaining permits (R130). -/
def ClosingCause.release : ClosingCause → ReleaseCause
  | .withdrawn => .withdrawn
  | .expired => .expired

/-- The freeing test of a work order: a Closing one with no permit Pending or Inside frees its remaining permits
and then its record (R116). -/
def State.freeWorkOrderIfDone (s : State) (w : WorkOrderNo) : State :=
  match s.workOrder w with
  | none => s
  | some r =>
    match r.state with
    | .closing cause =>
      if s.hasCounted w then s
      else ((s.permitsOf w).foldl (fun s n => s.freePermit n cause.release) s).setWorkOrder w none
    | _ => s

/-! ### Loads -/

/-- Change a work order's party load (R113). -/
def State.changeParty (s : State) (w : WorkOrderNo) (f : Nat → Nat) : State :=
  match s.workOrder w with
  | none => s
  | some r => s.setWorkOrder w (some { r with party := f r.party })

/-- A permit leaves a room's record: it is taken off its list and U falls by its weight. A record left empty leaves
use in the same action (R92, R94, R95). -/
def State.leaveRoom (s : State) (room : Designator) (n : PermitNo) (weight : Nat) : State :=
  match s.recordOf room with
  | none => s
  | some k =>
    match s.record k with
    | none => s
    | some o =>
      let o' := { o with inside := o.inside.erase n, pending := o.pending.erase n, load := o.load - weight }
      s.setRecord k (if o'.inside = [] ∧ o'.pending = [] then none else some o')

/-- Evaluate the flag of a room's record, if it still has one (R97). -/
def State.evaluateRoom (s : State) (room : Designator) : State :=
  match s.recordOf room with
  | none => s
  | some k => s.evaluateOver k

/-- A permit leaves Pending or Inside: its room's load and its work order's party load fall by its weight, it
becomes Idle or, when revoked, is freed, and its work order may be freed (R113, R116, R122). -/
def State.leave (s : State) (n : PermitNo) (p : Permit) (room : Designator) (cause : ReleaseCause) : State :=
  let s1 := (s.leaveRoom room n p.role.weight).changeParty p.workOrder (· - p.role.weight)
  let s2 := if p.revoked then s1.freePermit n cause else s1.setPermit n (some { p with state := .idle })
  s2.freeWorkOrderIfDone p.workOrder

/-- Release a Pending permit (R94, R122). The room's flag is evaluated after the release, but at a change to
Lockdown, where SET POSTURE evaluates every record after the door actions (R87, R97). -/
def State.releasePermit (evaluate : Bool) (s : State) (n : PermitNo) : State :=
  match s.permit n with
  | some p =>
    match p.state with
    | .pending room _ _ =>
      if evaluate then (s.leave n p room .released).evaluateRoom room else s.leave n p room .released
    | _ => s
  | none => s

/-- Take an Inside permit out of its room (R95, R122); the room's flag is evaluated after it. -/
def State.exitPermit (s : State) (n : PermitNo) : State :=
  match s.permit n with
  | some p =>
    match p.state with
    | .inside stay => (s.leave n p stay.room .exit).evaluateRoom stay.room
    | _ => s
  | none => s

/-- The record a reservation uses: the room's own, or the lowest one out of use (R92). -/
def State.recordFor (s : State) (room : Designator) : Option RecordNo :=
  match s.recordOf room with
  | some k => some k
  | none => lowest Option.isNone s.occupancy

/-- A record just taken into use (R92). -/
def OccupancyRecord.taken (room : Designator) : OccupancyRecord := ⟨room, 0, [], [], 0, 0, false⟩

/-- One permit reserved: it becomes Pending at the door, and its work order's party load rises (R113, R119). -/
def State.makePending (s : State) (room : Designator) (d : DoorId) (remote : Bool) (n : PermitNo) : State :=
  match s.permit n with
  | none => s
  | some p =>
    (s.setPermit n (some { p with state := .pending room d remote })).changeParty p.workOrder (· + p.role.weight)

/-- The reservation of R94: each permit joins the room's pending list and raises U, the recorded G and ceiling are
replaced, the flag is evaluated, and each permit becomes Pending. -/
def State.reserve (s : State) (room : Designator) (guaranteed ceiling : Nat) (d : DoorId) (remote : Bool)
    (ns : List PermitNo) : State :=
  match s.recordFor room with
  | none => s
  | some k =>
    let o := (s.record k).getD (.taken room)
    let o' := { o with
      pending := o.pending ++ ns, load := o.load + (ns.map s.weight).sum,
      guaranteed := guaranteed, ceiling := ceiling }
    ns.foldl (fun s n => s.makePending room d remote n) ((s.setRecord k (some o')).evaluateOver k)

/-- The party condition (R113): PARTY_FULL unless P + W is at most the cap in force. -/
def State.partyFault (s : State) (w : WorkOrderNo) (weight : Nat) : Option DenyCode :=
  match s.workOrder w with
  | none => some .partyFull
  | some r => if r.party + weight ≤ r.capInForce then none else some .partyFull

/-- The load in use of a room: 0 when it has no record (R93). -/
def State.loadOf (s : State) (room : Designator) : Nat :=
  match s.recordOf room with
  | none => 0
  | some k => match s.record k with | some o => o.load | none => 0

/-- The room condition (R93): ROOM_FULL unless U + W is at most A, then OCCUPANCY_TABLE_FULL when the room has no
record and can take none. -/
def State.roomFault (s : State) (room : Designator) (guaranteed ceiling weight : Nat) : Option DenyCode :=
  if s.allowanceAt room guaranteed ceiling < s.loadOf room + weight then some .roomFull
  else if (s.recordFor room).isNone then some .occupancyTableFull
  else none

/-! ### Passage (R95, R121) and check-in (R124) -/

/-- The check-in interval of a permit in minutes (R124). -/
def State.checkInInterval (s : State) (w : WorkOrderNo) (remote : Bool) : Nat :=
  let renewal := match s.workOrder w with | some r => r.renewal | none => 60
  if remote then min renewal 15 else renewal

/-- The stay deadline set at a passage (R82, R121): none while the clock is Unset, or when a window of the set does
not contain the passage's minute. -/
def State.stayDeadlineFor (s : State) (ws : List Window) : Option Nat :=
  match s.clock with
  | none => none
  | some t => if allContain ws t.minute then some (minuteDeadline s.count t (effectiveRemaining ws t.minute)) else none

/-- Whether a passage finds a window of the set closed, and so sets overstay at once (R121, R126). -/
def State.windowsClosed (s : State) (ws : List Window) : Bool :=
  match s.clock with
  | none => false
  | some t => !allContain ws t.minute

/-- A permit moves from the pending list of its room to the end of the inside list; U does not change (R95). -/
def State.moveInside (s : State) (room : Designator) (n : PermitNo) : State :=
  match s.recordOf room with
  | none => s
  | some k =>
    match s.record k with
    | none => s
    | some o => s.setRecord k (some { o with pending := o.pending.erase n, inside := o.inside ++ [n] })

/-- The passage of one reserved permit (R121, R142): it becomes Inside with its deadlines, OVERSTAY is queued when
a window has closed, and ENTERED is queued. -/
def State.enterPermit (s : State) (d : DoorId) (h : HeldPermit) : State :=
  match s.permit h.permit with
  | none => s
  | some p =>
    match p.state with
    | .pending room _ remote =>
      let ws := h.windows ++ h.optionWindow.toList
      let deadline := s.stayDeadlineFor ws
      let closed := s.windowsClosed ws
      let stay : Stay :=
        { room := room, remote := remote, stayDeadline := deadline,
          checkInDeadline := some (s.count + 60 * s.checkInInterval p.workOrder remote),
          overdue := false, overstay := closed }
      let s1 := (s.moveInside room h.permit).setPermit h.permit (some { p with state := .inside stay })
      let s2 :=
        if closed then s1.notifyBoth (s.issuer p.workOrder) (.overstay h.permit p.credential p.workOrder room)
        else s1
      s2.notifyBoth (s.issuer p.workOrder)
        (.entered h.permit p.credential room d (match (s.door d).binding with | some b => b.side | none => .outer)
          (deadline.map (· - s.count)))
    | _ => s

end Sys2Proof.Machine
end

