-- ==== Sys2Proof/Machine/Pairing.lean ====
section
/-! DEFINITION. Switches and drain counts (R29 to R32), the ending of pairings (R151), completion (R154) and the
opening of a door for an Enter (R140); and the closing of work orders (R114, R115, R129). -/

namespace Sys2Proof.Machine

/-! ### Switches and drain counts -/

/-- Apply a space's waiting switch and queue SPACE_SWITCHED to its owner (R29). -/
def State.applySwitch (s : State) (n : SpaceNo) (cause : SwitchCause) (abandoned : Nat) : State :=
  let r := s.space n
  match r.waiting with
  | none => s
  | some w =>
    (s.setSpace n { r with current := some w.descriptor, waiting := none, generation := r.generation + 1 }).notify
      w.descriptor.authority (.spaceSwitched n (r.generation + 1) cause abandoned)

/-- Raise a space's drain count by one (R30). -/
def State.raiseDrain (s : State) (n : SpaceNo) : State :=
  let r := s.space n
  s.setSpace n { r with drain := r.drain + 1 }

/-- Lower a space's drain count by one; a count that reaches 0 while Go is set applies the switch with cause
Drained (R31), except in the space whose own forced switch is under way (R32). -/
def State.lowerDrain (s : State) (forcing : Option SpaceNo) (n : SpaceNo) : State :=
  let r := s.space n
  let s1 := s.setSpace n { r with drain := r.drain - 1 }
  if r.drain - 1 = 0 ∧ r.go ∧ forcing ≠ some n then s1.applySwitch n .drained 0 else s1

/-- The three spaces an admission is counted in: the contractor's, space 1 and space 0 (R30). -/
def countedSpaces (contractorSpace : SpaceNo) : List SpaceNo := [contractorSpace, 1, 0]

/-! ### Ending a pairing -/

/-- The contractor space of an admission in Pairing or Awaiting Consent (R132). -/
def Admission.contractorSpace : Admission → Option SpaceNo
  | .pairing _ v | .awaitingConsent _ v => some v.space
  | .idle | .openEnter .. | .openExit .. => none

/-- The effects with which every pairing ends (R151): the slot is freed, the door returns to Idle, and the drain
counts of its three spaces are lowered. -/
def State.endPairing (s : State) (k : SlotNo) (d : DoorId) (forcing : Option SpaceNo) : State :=
  let s1 := (s.setSlot k none).endAdmission d
  match (s.door d).admission.contractorSpace with
  | none => s1
  | some sp => (countedSpaces sp).foldl (fun s n => s.lowerDrain forcing n) s1

/-- The credentials that the ending verdict of a pairing names: the contractor's, and a held escort's (R151). -/
def State.pairingCredentials (s : State) (k : Slot) : List Credential :=
  s.credentialOf k.contractor :: (match k.escort with | some e => [e.credential] | none => [])

/-- End the pairing of a slot with a deny (R151): one verdict for the contractor's presentation that also names a
held escort, and DENIED for each. `verdict` is no where RESET LANE drops every message (R160). -/
def State.denyPairing (s : State) (n : SlotNo) (code : DenyCode) (forcing : Option SpaceNo) (verdict : Bool) :
    State :=
  match s.slot n with
  | none => s
  | some k =>
    let names := s.pairingCredentials k
    let s1 := s.endPairing n k.door forcing
    let s2 := if verdict then s1.addVerdict k.door ⟨.deny code, names, false⟩ else s1
    names.foldl (fun s c => s.notifyDenied k.door c code) s2

/-- Abandon the pairing that holds a permit, before the permit is freed (R128). -/
def State.abandonHolding (s : State) (n : PermitNo) : State :=
  match s.slotHolding n with
  | none => s
  | some k => s.denyPairing k .revoked none true

/-! ### Opening for an Enter (R140) -/

/-- Reserve permits and open the door for an Enter, with the verdict Open naming the credentials (R140). -/
def State.openEnter (s : State) (d : DoorId) (room : Designator) (guaranteed ceiling : Nat) (remote : Bool)
    (held : List HeldPermit) : State :=
  let names := held.map fun h => s.credentialOf h.permit
  let s1 := s.reserve room guaranteed ceiling d remote (held.map HeldPermit.permit)
  (s1.setDoor d { s1.door d with admission := .openEnter held none }).addVerdict d ⟨.admitted, names, true⟩

/-- The checks of steps 10 and 11 for the permits admitted: each party condition in order, then the room condition
with their whole weight (R140, R154). -/
def State.admissionFault (s : State) (room : Designator) (guaranteed ceiling : Nat) (ns : List PermitNo) :
    Option DenyCode :=
  let parties := ns.filterMap fun n =>
    match s.permit n with
    | some p => s.partyFault p.workOrder p.role.weight
    | none => some .partyFull
  match parties with
  | c :: _ => some c
  | [] => s.roomFault room guaranteed ceiling (ns.map s.weight).sum

/-- Close a work order, by withdrawal or expiry (R114, R115, R129): its permits are treated by state in number
order, it becomes Closing, and it is freed when no permit is left Pending or Inside. -/
def State.closePermit (cause : ClosingCause) (s : State) (n : PermitNo) : State :=
  match s.permit n with
  | none => s
  | some p =>
    if p.state.counted then s.setPermit n (some { p with revoked := true })
    else (s.abandonHolding n).freePermit n cause.release

/-- Close a work order, by withdrawal or expiry (R114, R115, R129). -/
def State.closeWorkOrder (s : State) (w : WorkOrderNo) (cause : ClosingCause) : State :=
  let s1 := (s.permitsOf w).foldl (State.closePermit cause) s
  match s1.workOrder w with
  | none => s1
  | some r =>
    (s1.setWorkOrder w (some { r with
      state := .closing cause, selected := none, capInForce := 0, deadline := none })).freeWorkOrderIfDone w

/-- The general work orders, in number order. -/
def generalWorkOrders : List WorkOrderNo := (List.finRange 64).filter fun n => n ≠ 0

/-- One work order at a day change (R115): it expires when its last day is before the new day. -/
def expireOf (day : Nat) (s : State) (n : WorkOrderNo) : State :=
  match s.workOrder n with
  | some w =>
    match w.state, w.days with
    | .closing _, _ => s
    | _, some (_, last) => if last < day then s.closeWorkOrder n .expired else s
    | _, none => s
  | none => s

/-- A day change to a new day (R115). -/
def State.dayChange (s : State) (day : Nat) : State := generalWorkOrders.foldl (expireOf day) s

end Sys2Proof.Machine
end

