-- ==== Sys2Proof/Machine/Admission.lean ====
section
/-! DEFINITION. The handling of door reports: Enter presentations up to their requests (R134, R136, R137, R152, R155,
R156), Exits (R144, R145), check-ins (R123) and passages (R142, R145, R146); and what ends an admission from outside
(R135, R143, R147). -/

namespace Sys2Proof.Machine

/-! ### Enter presentations, up to their requests (R134, R136, R137, R152, R155, R156) -/

/-- What an Enter presentation comes to before it makes a request: it is settled; or the rights of a contractor to the
door's room are asked, in the option's space; or those of an escort, in space 1. -/
inductive EnterStage where
  | settled (t : State)
  | contractor (e : ContractorEntry)
  | escort (e : EscortEntry)

/-- The presentation is denied (R141). -/
def State.settleDeny (s : State) (d : DoorId) (c : Credential) (code : DenyCode) : EnterStage :=
  .settled (s.denyPresentation d c code)

/-- Steps 3 and 4 of an Enter presentation, for a credential bound to a permit (R137). -/
def State.enterWithPermit (s : State) (d : DoorId) (room : Designator) (c : Credential) (t : ClockTime)
    (n : PermitNo) (p : Permit) : EnterStage :=
  if p.revoked then s.settleDeny d c .revoked
  else if p.state.counted || (s.slotHolding n).isSome then s.settleDeny d c .alreadyInside
  else
    match s.workOrder p.workOrder with
    | none => s.settleDeny d c .workOrderInactive
    | some w =>
      if w.state ≠ .active then s.settleDeny d c .workOrderInactive
      else if !w.dayPasses t.day then s.settleDeny d c .dayRange
      else
        match w.selectedOption with
        | none => s.settleDeny d c .workOrderInactive
        | some o => .contractor ⟨d, c, room, n, p, w, o, t, s.count⟩

/-- An Enter presentation at an Idle door: step 2 (R136), and then the permit. -/
def State.enterIdle (s : State) (d : DoorId) (c : Credential) : EnterStage :=
  match (s.door d).binding with
  | none => s.settleDeny d c .doorUnbound
  | some b =>
    if (s.lane d.lane).held then s.settleDeny d c .held
    else
      match s.clock with
      | none => s.settleDeny d c .clockUnset
      | some t =>
        if s.posture = .lockdown then s.settleDeny d c .lockdown
        else
          match s.permitOf c with
          | none => s.settleDeny d c .noPermit
          | some n =>
            match s.permit n with
            | none => s.settleDeny d c .noPermit
            | some p => s.enterWithPermit d b.room c t n p

/-- An escort step up to the rights of the escort (R152, R153). -/
def State.escortStep (s : State) (d : DoorId) (k : SlotNo) (slot : Slot) (room : Designator) (v : DecisionValues)
    (c : Credential) (n : PermitNo) (p : Permit) : EnterStage :=
  if (s.lane d.lane).held then s.settleDeny d c .held
  else if p.revoked then s.settleDeny d c .revoked
  else if p.state.counted || (slot.expects != .finalEscort && (s.slotHolding n).isSome) then
    s.settleDeny d c .alreadyInside
  else
    match s.clock, s.workOrder 0 with
    | some t, some w =>
      let job := match s.permit slot.contractor with | some q => q.workOrder | none => 0
      .escort ⟨d, c, room, k, slot, v, n, job, w, t, s.count⟩
    | _, _ => s.settleDeny d c .clockUnset

/-- Step 3 of a two-round pairing (R155). -/
def State.contractorStep (s : State) (d : DoorId) (k : SlotNo) (slot : Slot) (c : Credential) : State :=
  if (s.lane d.lane).held then s.denyPresentation d c .held
  else s.setSlot k (some { slot with expects := .finalEscort, timer := .running (s.count + 8) })

/-- A wrong presenter breaks the pairing (R156). -/
def State.breakPairing (s : State) (k : SlotNo) : State := s.denyPairing k .pairingBroken none true

/-- The Escort-role permit bound to a credential, if any (R152). -/
def State.escortOf (s : State) (c : Credential) : Option (PermitNo × Permit) :=
  match s.permitOf c with
  | none => none
  | some n =>
    match s.permit n with
    | none => none
    | some p => if p.role = .escort then some (n, p) else none

/-- An Enter presentation at a door in Pairing, judged against the step its slot expects (R152). -/
def State.enterPairingDoor (s : State) (d : DoorId) (v : DecisionValues) (c : Credential) : EnterStage :=
  match s.slotOf d, (s.door d).binding with
  | some k, some b =>
    match s.slot k with
    | none => .settled s
    | some slot =>
      match slot.expects with
      | .escort =>
        match s.escortOf c with
        | some (n, p) => s.escortStep d k slot b.room v c n p
        | none => (s.breakPairing k).settleDeny d c .pairingBroken
      | .contractor =>
        if s.credentialOf slot.contractor = c then .settled (s.contractorStep d k slot c)
        else (s.breakPairing k).settleDeny d c .pairingBroken
      | .finalEscort =>
        match slot.escort with
        | some e =>
          match s.permit e.permit with
          | some p =>
            if e.credential = c then s.escortStep d k slot b.room v c e.permit p
            else (s.breakPairing k).settleDeny d c .pairingBroken
          | none => (s.breakPairing k).settleDeny d c .pairingBroken
        | none => (s.breakPairing k).settleDeny d c .pairingBroken
      | .consent => s.settleDeny d c .doorBusy
  | _, _ => s.settleDeny d c .doorBusy

/-- An Enter presentation up to its requests, routed by the door's admission state (R134). -/
def State.enterStage (s : State) (d : DoorId) (c : Credential) : EnterStage :=
  match (s.door d).admission with
  | .idle => s.enterIdle d c
  | .pairing _ v => s.enterPairingDoor d v c
  | .awaitingConsent .. | .openEnter .. | .openExit .. => s.settleDeny d c .doorBusy

/-! ### Exits (R144) -/

/-- Whether a permit is Inside a room. -/
def State.insideRoom (s : State) (n : PermitNo) (room : Designator) : Bool :=
  match s.permit n with
  | some p => match p.state with | .inside stay => stay.room = room | _ => false
  | none => false

/-- The doors other than `d` that hold a permit for its Exit. -/
def State.exitDoorsOf (s : State) (d : DoorId) (n : PermitNo) : List DoorId :=
  allDoors.filter fun e => e ≠ d && (match (s.door e).admission with | .openExit (some m) _ => m == n | _ => false)

/-- Open a door for an Exit, holding a permit or none (R144). -/
def State.openExit (s : State) (d : DoorId) (c : Credential) (held : Option PermitNo) (mark : OpenMark) : State :=
  (s.setDoor d { s.door d with admission := .openExit held none }).addVerdict d ⟨.opened mark, [c], true⟩

/-- An Exit at an Idle bound door (R144). -/
def State.exitIdle (s : State) (d : DoorId) (b : Binding) (c : Credential) : State :=
  match (s.permitOf c).filter fun n => s.insideRoom n b.room with
  | some n => ((s.exitDoorsOf d n).foldl State.endAdmission s).openExit d c (some n) .plain
  | none => (s.openExit d c none .notRecorded).notify .sec (.passback d (some b) c .notInside)

/-- An Exit at a door that is busy with another admission (R144). -/
def State.exitBusy (s : State) (d : DoorId) (b : Binding) (c : Credential) : State :=
  (s.addVerdict d ⟨.opened .notRecorded, [c], false⟩).notify .sec (.passback d (some b) c .doorBusy)

/-- An Exit presentation (R134, R144). At a door in Passage Open for an Exit that holds no permit no row of R144's table
answers a second Exit; it is taken as at a door that is busy: DESIGN CHOICE (assumption 40). -/
def State.takeExit (s : State) (d : DoorId) (c : Credential) : State :=
  match (s.door d).binding with
  | none => s.denyPresentation d c .doorUnbound
  | some b =>
    match (s.door d).admission with
    | .idle => s.exitIdle d b c
    | .pairing .. =>
      match s.slotOf d with
      | some k => (s.breakPairing k).exitIdle d b c
      | none => s.exitBusy d b c
    | .openExit (some n) _ =>
      if s.permitOf c = some n then s.addVerdict d ⟨.opened .plain, [c], true⟩ else s.exitBusy d b c
    | .openExit none _ | .awaitingConsent .. | .openEnter .. => s.exitBusy d b c

/-! ### Check-in (R123) -/

/-- A CheckIn judged by the permit table (R123). -/
def State.judgeCheckIn (s : State) (d : DoorId) (c : Credential) : State :=
  match (s.door d).binding with
  | none => s.denyPresentation d c .doorUnbound
  | some b =>
    match s.permitOf c with
    | none => s.denyPresentation d c .noPermit
    | some n =>
      match s.permit n with
      | none => s.denyPresentation d c .noPermit
      | some p =>
        match p.state with
        | .inside stay =>
          if stay.room = b.room then
            let seconds := 60 * s.checkInInterval p.workOrder stay.remote
            let stay' := { stay with checkInDeadline := some (s.count + seconds), overdue := false }
            ((s.addVerdict d ⟨.opened .checkIn, [c], false⟩).setPermit n (some { p with state := .inside stay' })).notifyBoth
              (s.issuer p.workOrder) (.checkedIn n stay.room d seconds)
          else s.denyPresentation d c .notInside
        | .idle | .pending .. => s.denyPresentation d c .notInside

/-- A CheckIn presentation (R123, R134): at a door in Pairing it is a wrong presenter (R156). -/
def State.takeCheckIn (s : State) (d : DoorId) (c : Credential) : State :=
  match (s.door d).admission with
  | .pairing .. =>
    match s.slotOf d with
    | some k => (s.breakPairing k).denyPresentation d c .pairingBroken
    | none => s.denyPresentation d c .pairingBroken
  | .idle | .awaitingConsent .. | .openEnter .. | .openExit .. => s.judgeCheckIn d c

/-! ### Passages (R142, R145, R146) -/

/-- The exit of a held permit at a passage, with EXITED (R145). -/
def State.passExit (s : State) (d : DoorId) (n : PermitNo) : State :=
  match s.permit n, (s.door d).binding with
  | some p, some b =>
    if s.insideRoom n b.room then
      (s.notifyBoth (s.issuer p.workOrder) (.exited false n p.credential b.room (some (d, b.side)))).exitPermit n
    else s
  | _, _ => s

/-- A PASSAGE report (R134): it confirms an entry or an exit (R142, R145); at an Unbound door, and at a door not in
Passage Open, it is unrecorded (R146). An Open that REMOTE CONSENT made while the door's poll was out is not sent yet
when its PASSAGE comes; the entry is confirmed all the same, and the verdict goes out later: DESIGN CHOICE
(assumption 38). -/
def State.takePassage (s : State) (d : DoorId) : State :=
  match (s.door d).binding, (s.door d).admission with
  | some _, .openEnter held _ => (held.foldl (fun s h => s.enterPermit d h) s).endAdmission d
  | some _, .openExit (some n) _ => (s.passExit d n).endAdmission d
  | some _, .openExit none _ => s.endAdmission d
  | b, a => s.notify .sec (.unrecordedPassage d b a.state)

/-! ### Endings from outside the door -/

/-- The permits that the admission at a door has reserved: those a door in Passage Open for an Enter holds (R132,
R140). -/
def Admission.reserved : Admission → List PermitNo
  | .openEnter held _ => held.map HeldPermit.permit
  | .idle | .pairing .. | .awaitingConsent .. | .openExit .. => []

/-- A door in Passage Open returns to Idle; any other stays as it is. -/
def State.endPassage (s : State) (d : DoorId) : State :=
  if (s.door d).admission.state = .passageOpen then s.endAdmission d else s

/-- Release permits in permit number order (R94, R122, R175). `evaluate` is no at a change to Lockdown (R87). -/
def State.releaseAll (s : State) (evaluate : Bool) (ns : List PermitNo) : State :=
  (byNumber (fun n => n.val) ns).foldl (State.releasePermit evaluate) s

/-- End the admissions of the doors of a list that are in Passage Open, without passage: an Enter releases its permits,
an Exit simply ends (R135, R143). -/
def State.closePassages (s : State) (evaluate : Bool) (ds : List DoorId) : State :=
  ds.foldl State.endPassage (s.releaseAll evaluate (ds.flatMap fun d => (s.door d).admission.reserved))

/-- Whether the Open verdict made for the door's admission still waits on its list (R135). -/
def Door.openWaiting (x : Door) : Bool := x.outgoing.any Verdict.admits

/-- Remove the waiting Open verdict of a door's admission from its list. -/
def State.removeOpen (s : State) (d : DoorId) : State :=
  s.setDoor d { s.door d with outgoing := (s.door d).outgoing.filter fun v => !v.admits }

/-! ### Lockdown at the doors (R86, R147) -/

/-- A door in Passage Open for an Enter (R132). -/
def Admission.isEntry : Admission → Bool
  | .openEnter .. => true
  | .idle | .pairing .. | .awaitingConsent .. | .openExit .. => false

/-- An Open to an Enter (R140). -/
def Verdict.isEntry (v : Verdict) : Bool := v.outcome = .admitted

/-- The lane is sending an Open to an Enter: its frame is on the lane, and so it is not yet sent (R86). -/
def LanePhase.sendsEntry : LanePhase → Bool
  | .sendingVerdict v => v.isEntry
  | .between | .sendingCancel | .polling | .breaking => false

/-- The frame of an Open to an Enter is on its way to the door (R86). -/
def State.entryInFlight (s : State) (d : DoorId) : Bool :=
  (s.lane d.lane).phase.sendsEntry && decide ((s.lane d.lane).position = d.address)

/-- Every Open to an Enter that is not yet sent to its door is withdrawn, and a CANCEL waits for the door where one was
withdrawn, from its list or from the lane, and where a door in Passage Open for an Enter is closed (R86, R147). So it is
also with an Open whose entry a PASSAGE confirmed before it was sent (assumption 38). -/
def State.withdrawEntries (s : State) (d : DoorId) : State :=
  let x := s.door d
  s.setDoor d { x with
    outgoing := x.outgoing.filter fun v => !v.isEntry
    cancelPending := x.cancelPending || x.outgoing.any Verdict.isEntry || s.entryInFlight d || x.admission.isEntry }

/-- What a change to Lockdown ends (R147): the admission that waits at a door for an escort or a consent, or the
reservation of a permit. -/
inductive LockdownEnding where
  | abandon (contractor : PermitNo) (d : DoorId)
  | release (n : PermitNo)
  deriving DecidableEq, Repr

/-- The permit whose number orders an ending among the others (R175). -/
def LockdownEnding.permit : LockdownEnding → PermitNo
  | .abandon n _ => n
  | .release n => n

/-- What a change to Lockdown ends at a door (R147). -/
def State.lockdownEndings (s : State) (d : DoorId) : List LockdownEnding :=
  match (s.door d).admission with
  | .pairing n _ | .awaitingConsent n _ => [.abandon n d]
  | a => a.reserved.map .release

/-- One ending at a change to Lockdown (R147). The flags are evaluated after all of them (R87). -/
def State.endForLockdown (s : State) : LockdownEnding → State
  | .abandon _ d =>
    match s.slotOf d with
    | some k => s.denyPairing k .lockdown none true
    | none => s
  | .release n => s.releasePermit false n

/-- A door in Passage Open for an Enter returns to Idle (R147); any other stays as it is. -/
def State.endEntry (s : State) (d : DoorId) : State :=
  if (s.door d).admission.isEntry then s.endAdmission d else s

/-- The door actions at a change to Lockdown (R147): unsent Opens to Enters are withdrawn, admissions that wait are
abandoned and reservations released, in permit number order (R175, assumption 21), and the doors that were open for an
Enter return to Idle. -/
def State.lockDoors (s : State) : State :=
  let s1 := allDoors.foldl State.withdrawEntries s
  let s2 := (byNumber (fun e => e.permit.val) (allDoors.flatMap s.lockdownEndings)).foldl State.endForLockdown s1
  allDoors.foldl State.endEntry s2

/-- The wait of a door in Pairing or Awaiting Consent is cancelled: CANCELLED, with or without a verdict (R160). -/
def State.cancelPairing (s : State) (verdict : Bool) (d : DoorId) : State :=
  match s.slotOf d with
  | some k => s.denyPairing k .cancelled none verdict
  | none => s

end Sys2Proof.Machine
end

