-- ==== Sys2Proof/Machine/Turns.lean ====
section
/-! DEFINITION. The turns of a lane controller (R162), answers and misses (R163). -/

namespace Sys2Proof.Machine

/-- The door whose turn it is on a lane. -/
def State.turnDoor (s : State) (l : LaneNo) : DoorId := ⟨l, (s.lane l).position⟩

/-- What the controller sends next in a turn (R162): for a Ready door the oldest waiting verdict, else a pending
CANCEL, else the poll; for any other door the poll alone. -/
def State.sendNext (s : State) (l : LaneNo) : State :=
  let x := s.door (s.turnDoor l)
  let q := s.lane l
  match x.presence, x.outgoing, x.cancelPending with
  | .ready, v :: _, _ => s.setLane l { q with phase := .sendingVerdict v }
  | .ready, [], true => s.setLane l { q with phase := .sendingCancel }
  | _, _, _ => s.setLane l { q with phase := .polling, sent := q.sent ++ [pollFrame q.position] }

/-- The frame of an Open to an Enter that is on the lane at a change to Lockdown is withdrawn: it is not completed and
not sent, and the turn goes on with what the door's list holds now (R86, R147, assumption 16). -/
def State.withdrawFrame (s : State) (l : LaneNo) : State :=
  if (s.lane l).phase.sendsEntry then s.sendNext l else s

/-- The turn ends and the poll position moves to the next address (R162). -/
def State.endTurn (s : State) (l : LaneNo) : State :=
  let q := s.lane l
  s.setLane l { q with phase := .between, position := q.position + 1 }

/-- The passage deadline of a door in Passage Open (R135). -/
def Admission.withDeadline (a : Admission) (t : Nat) : Admission :=
  match a with
  | .openEnter held _ => .openEnter held (some t)
  | .openExit held _ => .openExit held (some t)
  | .idle | .pairing .. | .awaitingConsent .. => a

/-- A door becomes Failed (R163): DOOR_FAILED, a pairing or wait is cancelled, and an Open still waiting is removed
and its admission ends. -/
def State.failDoor (s : State) (d : DoorId) : State :=
  let s1 := (s.setDoor d { s.door d with presence := .failed, misses := 3 }).notify .sec
    (.doorFailed d (s.door d).binding)
  let s2 := s1.cancelPairing true d
  if (s2.door d).openWaiting then (s2.removeOpen d).closePassages true [d] else s2

/-- A poll goes unanswered (R163): the turn ends, and a Ready door counts a miss and fails at the third. -/
def State.missPoll (s : State) (l : LaneNo) : State :=
  let d := s.turnDoor l
  let x := s.door d
  let s1 := s.endTurn l
  match x.presence with
  | .unknown | .failed => s1
  | .ready => if x.misses + 1 < 3 then s1.setDoor d { x with misses := x.misses + 1 } else s1.failDoor d

/-- A poll is answered (R163): the miss count is cleared, and an Unknown or Failed door becomes Ready and is
announced. -/
def State.announce (s : State) (d : DoorId) : State :=
  let x := s.door d
  let s1 := s.setDoor d { x with presence := .ready, misses := 0 }
  match x.presence with
  | .ready => s1
  | .unknown => s1.notify .sec (.doorAnnounced d x.binding .first)
  | .failed => s1.notify .sec (.doorAnnounced d x.binding .recovered)

/-- A report from a door unit (R134, R162, R163). One received while no poll of the lane waits for its answer is
discarded. One that does not carry the polled address counts as an unanswered poll. Otherwise the turn ends, the
presence moves, and the report is taken. -/
def State.answerPoll (s : State) (d : DoorId) (report : State → State) : State :=
  if (s.lane d.lane).phase = .polling then
    if d.address = (s.lane d.lane).position then report ((s.endTurn d.lane).announce d)
    else s.missPoll d.lane
  else s

/-- A PRESENT report: one with credential 0 is ignored and counts as an unanswered poll (R166). -/
def State.answerPresent (s : State) (d : DoorId) (c : Credential) (report : State → State) : State :=
  if c = 0 then if (s.lane d.lane).phase = .polling then s.missPoll d.lane else s
  else s.answerPoll d report

/-- A lane reset at one door, step 1 of R165: every waiting message is dropped, and cancel-pending is cleared. -/
def State.dropMessages (s : State) (d : DoorId) : State :=
  s.setDoor d { s.door d with outgoing := [], cancelPending := false }

/-- A door becomes Unknown with miss count 0, step 3 of R165. -/
def State.forgetDoor (s : State) (d : DoorId) : State :=
  s.setDoor d { s.door d with presence := .unknown, misses := 0 }

end Sys2Proof.Machine
end

