-- ==== Sys2Proof/Machine/DoorCommands.lean ====
section
/-! DEFINITION. BIND DOOR (R133), READ DOOR (R148), REMOTE CONSENT (R158) and the lane commands (R164, R165). -/

namespace Sys2Proof.Machine

/-- What BIND DOOR does with its arguments (R133). -/
def bindDoor (p : Authority) (a : BindDoorArgs) (s : State) : State × Answer :=
  if p ≠ .sec then refuse .notPermitted s
  else
    match door? a.door, binding? a.binding with
    | some d, some b =>
      let x := s.door d
      if x.admission.state ≠ .idle then refuse .doorBusy s
      else
        (s.setDoor d { x with binding := b },
          .accepted (optional bindingBytes x.binding ++ optional bindingBytes b))
    | _, _ => refuse .badArgument s

/-- BIND DOOR (R133). -/
def execBindDoor (p : Authority) (a : Payload BindDoorArgs) (s : State) : Host.Outcome State Fault Refusal :=
  runCommand p 23 a BindDoorArgs.encode (bindDoor p) s

/-- The direction of a door in Passage Open: 0 Enter, 1 Exit (R132, R168). -/
def Admission.direction : Admission → Option Byte
  | .openEnter .. => some 0
  | .openExit .. => some 1
  | .idle | .pairing .. | .awaitingConsent .. => none

/-- The passage deadline of a door (R132). -/
def Admission.deadline : Admission → Option Nat
  | .openEnter _ t | .openExit _ t => t
  | .idle | .pairing .. | .awaitingConsent .. => none

/-- One held permit in READ DOOR (R148): number, work order, and the credential for Security and the issuer. -/
def heldBytes (p : Authority) (s : State) (n : PermitNo) : List Byte :=
  match s.permit n with
  | none => num1 n.val ++ num1 0 ++ [0]
  | some r =>
    num1 n.val ++ num1 r.workOrder.val ++
      optional bytes32 (if p = .sec ∨ s.issuer r.workOrder = p then some r.credential else none)

/-- The results of READ DOOR (R148). The seconds to a passage deadline that is reached and whose event is still to be
taken read as 0: DESIGN CHOICE (assumption 42). -/
def doorResults (p : Authority) (s : State) (d : DoorId) : List Byte :=
  let x := s.door d
  optional bindingBytes x.binding ++ [presenceValue x.presence, admissionValue x.admission.state] ++
    optional (fun b => [b]) x.admission.direction ++ counted (heldBytes p s) x.admission.held ++
    optional (fun k : SlotNo => num1 k.val) (s.slotOf d) ++
    optional (fun t => num1 (t - s.count)) x.admission.deadline ++
    num1 x.outgoing.length ++ flagByte x.cancelPending

/-- What READ DOOR does with its argument (R148). -/
def readDoor (p : Authority) (a : DoorArgs) (s : State) : State × Answer :=
  match door? a with
  | none => refuse .badArgument s
  | some d => (s, .accepted (doorResults p s d))

/-- READ DOOR (R148). -/
def execReadDoor (p : Authority) (a : Payload DoorArgs) (s : State) : Host.Outcome State Fault Refusal :=
  runCommand p 24 a DoorArgs.encode (readDoor p) s

/-- A consent that grants: the checks of steps 10 and 11 for the contractor alone, and the door opens with the
contractor remote-supervised, or the pairing ends with the deny (R158). -/
def State.grantConsent (s : State) (d : DoorId) (k : SlotNo) (room : Designator) (n : PermitNo)
    (v : DecisionValues) : State × Option DenyCode :=
  match s.admissionFault room v.guaranteed v.ceiling [n] with
  | some code => (s.denyPairing k code none true, some code)
  | none =>
    ((s.endPairing k d none).openEnter d room v.guaranteed v.ceiling true [⟨n, v.windows, v.optionWindow⟩], none)

/-- The outcome of a consent as its reply carries it: 0 for Opened, or the value of the deny code (R158, R168). -/
def consentOutcome : Option DenyCode → Byte
  | none => 0
  | some code => code.value

/-- What REMOTE CONSENT does with its arguments (R158). Decision 0 grants and 1 refuses. -/
def remoteConsent (p : Authority) (a : RemoteConsentArgs) (s : State) : State × Answer :=
  match door? a.door with
  | none => refuse .badArgument s
  | some d =>
    if a.decision ≠ 0 ∧ a.decision ≠ 1 then refuse .badArgument s
    else if p ≠ .sec then refuse .notPermitted s
    else
      match (s.door d).admission, (s.door d).binding, s.slotOf d with
      | .awaitingConsent n v, some b, some k =>
        let r :=
          if a.decision = 0 then s.grantConsent d k b.room n v
          else (s.denyPairing k .consentRefused none true, some .consentRefused)
        (r.1, .accepted (doorBytes d ++ [a.decision, consentOutcome r.2]))
      | _, _, _ => refuse .tooLate s

/-- REMOTE CONSENT (R158). -/
def execRemoteConsent (p : Authority) (a : Payload RemoteConsentArgs) (s : State) :
    Host.Outcome State Fault Refusal :=
  runCommand p 25 a RemoteConsentArgs.encode (remoteConsent p) s

/-! ### Lane commands -/

/-- A slot frozen: it keeps the whole seconds left, at least 1 (R159). -/
def Slot.freeze (count : Nat) (k : Slot) : Slot :=
  match k.timer with
  | .running t => { k with timer := .frozen (max 1 (t - count)) }
  | .frozen _ => k

/-- A slot thawed: its deadline is the seconds it kept after the release (R159). -/
def Slot.thaw (count : Nat) (k : Slot) : Slot :=
  match k.timer with
  | .frozen left => { k with timer := .running (count + left) }
  | .running _ => k

/-- Change the slots whose door lies on a lane (R159). -/
def State.mapLaneSlots (s : State) (l : LaneNo) (f : Slot → Slot) : State :=
  { s with slots := s.slots.map fun x => x.map fun k => if k.door.lane = l then f k else k }

/-- The shared shape of HOLD LANE and RELEASE LANE (R164): Security only, a lane 0..3, the flag before and after.
Nothing changes where the flag already stands so. -/
def setHold (hold : Bool) (f : Nat → Slot → Slot) (p : Authority) (a : NumberArgs) (s : State) : State × Answer :=
  if p ≠ .sec then refuse .notPermitted s
  else
    match lane? a.number with
    | none => refuse .badArgument s
    | some l =>
      let before := (s.lane l).held
      let s1 :=
        if before = hold then s
        else (s.setLane l { s.lane l with held := hold }).mapLaneSlots l (f s.count)
      (s1, .accepted (num1 l.val ++ flagByte before ++ flagByte hold))

/-- HOLD LANE (R164, R159). -/
def execHoldLane (p : Authority) (a : Payload NumberArgs) (s : State) : Host.Outcome State Fault Refusal :=
  runCommand p 26 a NumberArgs.encode (setHold true Slot.freeze p) s

/-- RELEASE LANE (R164, R159). -/
def execReleaseLane (p : Authority) (a : Payload NumberArgs) (s : State) : Host.Outcome State Fault Refusal :=
  runCommand p 27 a NumberArgs.encode (setHold false Slot.thaw p) s

/-- The effects of an accepted RESET LANE, in the order of R165: messages dropped, which ends the admissions whose
Open was unsent; pairings cancelled without a verdict; doors Unknown; poll position 0; and the break is driven, which
ends the turn in progress. Permits are released, and pairings cancelled, in permit number order (R175, assumption 21).
-/
def State.resetLaneTo (s : State) (l : LaneNo) : State :=
  let ds := laneDoors l
  let s1 := (ds.foldl State.dropMessages s).closePassages true (ds.filter fun d => (s.door d).openWaiting)
  let s2 := (s1.byHeldPermit ds).foldl (State.cancelPairing (verdict := false)) s1
  let s3 := ds.foldl State.forgetDoor s2
  s3.setLane l { s3.lane l with position := 0, phase := .breaking, sent := [] }

/-- The number of pairings on a lane (R165). -/
def State.pairingsOn (s : State) (l : LaneNo) : Nat :=
  countWhere (fun x => match x with | some k => k.door.lane = l | none => false) s.slots

/-- What RESET LANE does with its argument (R165). -/
def resetLane (p : Authority) (a : NumberArgs) (s : State) : State × Answer :=
  if p ≠ .sec then refuse .notPermitted s
  else
    match lane? a.number with
    | none => refuse .badArgument s
    | some l => (s.resetLaneTo l, .accepted (num1 l.val ++ num1 (s.pairingsOn l)))

/-- RESET LANE (R165). -/
def execResetLane (p : Authority) (a : Payload NumberArgs) (s : State) : Host.Outcome State Fault Refusal :=
  runCommand p 28 a NumberArgs.encode (resetLane p) s

end Sys2Proof.Machine
end

