-- ==== Sys2Proof/Machine/Resolver.lean ====
section
/-! DEFINITION. Walks of the rights tables (chapter 3), the resolution cache (chapter 4), and the judgements made
from the two summaries at the moment of use. Requests are in Requests.lean. -/

namespace Sys2Proof.Machine

/-! ### Entries (R11) -/

/-- The fields of an entry as its bytes give them, in every form: each form reads its own (R4 to R7, R10). -/
structure Entry where
  valid : Bool
  blanket : Bool
  common : Bool
  escort : Bool
  remote : Bool
  window : Option Window
  origin : Nat
  length : Nat
  custodian : Custodian
  category : Nat
  guaranteed : Nat
  ceiling : Nat
  deriving DecidableEq, Repr

/-- Byte `i` of the 64 entry bytes of a block. -/
def Block.byte (b : Block) (i : Nat) : Byte := if h : i < 64 then b.bytes.get ⟨i, h⟩ else 0

/-- The entry at position `pos` of a block (R11). -/
def Block.entry (b : Block) (pos : Nat) : Entry :=
  let byte (k : Nat) := b.byte (8 * pos + k)
  { valid := (byte 0).getLsbD 7
    blanket := (byte 0).getLsbD 6
    common := (byte 0).getLsbD 5
    escort := (byte 0).getLsbD 4
    remote := (byte 0).getLsbD 3
    window :=
      if (byte 0).getLsbD 2 then some ⟨(word16 (byte 1) (byte 2)).toNat, (word16 (byte 3) (byte 4)).toNat⟩ else none
    origin := (word16 (byte 5) (byte 6)).toNat
    length := (byte 7).toNat
    custodian := if (byte 5).getLsbD 7 then .landlord else .bank
    category := ((byte 5).extractLsb' 0 2).toNat
    guaranteed := ((byte 6).extractLsb' 0 6).toNat
    ceiling := ((byte 7).extractLsb' 0 7).toNat }

/-- The window of a valid entry as judged at use: a start of 1440 or more is ENTRY_INVALID, and a length above
1440 is taken as 1440 (R12). -/
def Entry.judgeWindow (e : Entry) : Except DenyCode (Option Window) :=
  match e.window with
  | none => .ok none
  | some w => if 1440 ≤ w.start then .error .entryInvalid else .ok (some ⟨w.start, min w.length 1440⟩)

/-- The pointer of a valid pointing entry as judged at use (R13): the fault it ends the walk with, if any. -/
def Entry.pointerFault (e : Entry) : Option DenyCode :=
  if e.length = 0 ∨ 4 < e.length then some .entryInvalid
  else if 511 < e.origin ∨ 511 < e.origin + e.length - 1 then some .badOrigin
  else none

/-- Read the entry at an index of a table: LENGTH, TABLE_FREE, FOREIGN_TABLE, TABLE_KIND in that order (R42 to
R45). `owner` is the authority the block must belong to, or none where the owner is not judged (R44, R54). -/
def readEntry (s : State) (owner : Option Authority) (kind : Kind) (origin length index : Nat) :
    Except DenyCode Entry :=
  if 8 * length ≤ index then .error .length
  else
    let b := s.blockAt (origin + index / 8)
    match b.owner with
    | none => .error .tableFree
    | some (a, k) =>
      if owner.any (fun o => o != a) then .error .foreignTable
      else if k ≠ kind then .error .tableKind
      else .ok (b.entry (index % 8))

/-! ### The grant walk (R40 to R51)

A walk reads each level whole, and `see` gives the device as the read of each kind of table finds it (R46). -/

/-- What a grant walk has collected so far (R48). -/
structure Path where
  escort : Bool
  windows : List Window
  common : Bool
  deriving DecidableEq, Repr

/-- Nothing collected yet. -/
def Path.start : Path := ⟨false, [], false⟩

/-- The owner a grant walk asks of its next block: the space's authority, or none once a common entry has been
read (R44). -/
def Path.mustOwn (p : Path) (d : Descriptor) : Option Authority := if p.common then none else some d.authority

/-- Judge a grant entry and collect from it: valid, window, common in a private space (R47, R48, R49). The common
bit is read in estate and site entries alone (R7). -/
def Path.take (p : Path) (isPrivate readsCommon : Bool) (e : Entry) : Except DenyCode Path :=
  if !e.valid then .error .notGranted
  else
    match e.judgeWindow with
    | .error c => .error c
    | .ok w =>
      if isPrivate && readsCommon && e.common then .error .privateConflict
      else .ok ⟨p.escort || e.escort, p.windows ++ w.toList, p.common || (readsCommon && e.common)⟩

/-- The grant summary of a terminal entry (R51, R52). -/
def grantSummary (covers : Coverage) (e : Entry) (p : Path) : GrantSummary :=
  { covers := covers, category := e.category, custodian := e.custodian, guaranteed := e.guaranteed,
    ceiling := e.ceiling, remote := e.remote, escort := p.escort, windows := p.windows, common := p.common }

/-- The zone level of a grant walk (R51). -/
def walkZone (see : Kind → State) (d : Descriptor) (r : Designator) (origin length : Nat) (p : Path) :
    Except DenyCode GrantSummary :=
  match readEntry (see .zone) (p.mustOwn d) .zone origin length r.room.val with
  | .error c => .error c
  | .ok e =>
    match p.take d.isPrivate false e with
    | .error c => .error c
    | .ok p' => .ok (grantSummary ⟨r.site, r.zone, some r.room⟩ e p')

/-- The site level of a grant walk (R50, R51). -/
def walkSite (see : Kind → State) (d : Descriptor) (r : Designator) (origin length : Nat) (p : Path) :
    Except DenyCode GrantSummary :=
  match readEntry (see .site) (p.mustOwn d) .site origin length r.zone.val with
  | .error c => .error c
  | .ok e =>
    match p.take d.isPrivate true e with
    | .error c => .error c
    | .ok p' =>
      if e.blanket then .ok (grantSummary ⟨r.site, r.zone, none⟩ e p')
      else
        match e.pointerFault with
        | some c => .error c
        | none => walkZone see d r e.origin e.length p'

/-- The estate level of a grant walk (R50). -/
def walkEstate (see : Kind → State) (d : Descriptor) (r : Designator) (origin length : Nat) (p : Path) :
    Except DenyCode GrantSummary :=
  match readEntry (see .estate) (p.mustOwn d) .estate origin length r.site.val with
  | .error c => .error c
  | .ok e =>
    match p.take d.isPrivate true e with
    | .error c => .error c
    | .ok p' =>
      match e.pointerFault with
      | some c => .error c
      | none => walkSite see d r e.origin e.length p'

/-- A grant walk from a descriptor (R40, R41). -/
def grantWalk (see : Kind → State) (d : Descriptor) (r : Designator) : Except DenyCode GrantSummary :=
  match d.topOrigin with
  | none => .error .notGranted
  | some o =>
    match d.scope with
    | .estate => walkEstate see d r o.val d.topLength .start
    | .site st => if r.site = st then walkSite see d r o.val d.topLength .start else .error .outOfScope
    | .zone st z =>
      if r.site = st ∧ r.zone = z then walkZone see d r o.val d.topLength .start else .error .outOfScope

/-! ### The overlay walk (R54 to R58) -/

/-- Judge the window of a valid overlay entry and add the item it contributes, if any (R55). -/
def overlayTake (items : List OverlayItem) (e : Entry) : Except DenyCode (List OverlayItem) :=
  match e.judgeWindow with
  | .error c => .error c
  | .ok w => .ok (if e.common || e.escort then items ++ [⟨e.common, e.escort, w⟩] else items)

/-- The zone level of an overlay walk: its summary is for the one room (R57). -/
def overlayZone (see : Kind → State) (r : Designator) (origin length : Nat) (items : List OverlayItem) :
    Except DenyCode OverlaySummary :=
  match readEntry (see .zone) none .zone origin length r.room.val with
  | .error c => .error c
  | .ok e =>
    if !e.valid then .ok ⟨⟨r.site, r.zone, some r.room⟩, items⟩
    else
      match overlayTake items e with
      | .error c => .error c
      | .ok items' => .ok ⟨⟨r.site, r.zone, some r.room⟩, items'⟩

/-- The site level of an overlay walk: an entry that is not valid, or a Blanket entry, stops it (R55, R56). -/
def overlaySite (see : Kind → State) (r : Designator) (origin length : Nat) (items : List OverlayItem) :
    Except DenyCode OverlaySummary :=
  match readEntry (see .site) none .site origin length r.zone.val with
  | .error c => .error c
  | .ok e =>
    if !e.valid then .ok ⟨⟨r.site, r.zone, none⟩, items⟩
    else
      match overlayTake items e with
      | .error c => .error c
      | .ok items' =>
        if e.blanket then .ok ⟨⟨r.site, r.zone, none⟩, items'⟩
        else
          match e.pointerFault with
          | some c => .error c
          | none => overlayZone see r e.origin e.length items'

/-- The estate level of an overlay walk (R54). -/
def overlayEstate (see : Kind → State) (r : Designator) (origin length : Nat) : Except DenyCode OverlaySummary :=
  match readEntry (see .estate) none .estate origin length r.site.val with
  | .error c => .error c
  | .ok e =>
    if !e.valid then .ok ⟨⟨r.site, r.zone, none⟩, []⟩
    else
      match overlayTake [] e with
      | .error c => .error c
      | .ok items =>
        match e.pointerFault with
        | some c => .error c
        | none => overlaySite see r e.origin e.length items

/-- An overlay walk from the descriptor of space 0 (R40, R54); any fault is OVERLAY_FAULT (R58). -/
def overlayWalk (see : Kind → State) (d : Descriptor) (r : Designator) : Except DenyCode OverlaySummary :=
  match d.topOrigin with
  | none => .ok ⟨⟨r.site, r.zone, none⟩, []⟩
  | some o =>
    match overlayEstate see r o.val d.topLength with
    | .ok x => .ok x
    | .error _ => .error .overlayFault

/-! ### The resolution cache (R62 to R68) -/

/-- The common item of an entry: an overlay summary carries no common mark (R63). -/
def Summary.common : Summary → Bool
  | .grant g => g.common
  | .overlay _ => false

/-- The entry speaks for the room: as a room entry, or zone-wide (R64). -/
def CacheEntry.covers (e : CacheEntry) (r : Designator) (zoneWide : Bool) : Bool :=
  e.summary.covers = ⟨r.site, r.zone, if zoneWide then none else some r.room⟩

/-- A tagged match (R64). -/
def CacheEntry.tagged (e : CacheEntry) (n : SpaceNo) (g : BitVec 8) : Bool := e.space = n && e.generation = g

/-- The entry a lookup hits (R64, R65): the tagged room entry, else the tagged zone-wide entry, else in a lookup
from a space that is not private the most recent common room entry, else the most recent common zone-wide one. -/
def cachePick (n : SpaceNo) (g : BitVec 8) (isPrivate : Bool) (r : Designator) (cache : List CacheEntry) :
    Option CacheEntry :=
  match cache.find? fun e => e.tagged n g && e.covers r false with
  | some e => some e
  | none =>
    match cache.find? fun e => e.tagged n g && e.covers r true with
    | some e => some e
    | none =>
      if isPrivate then none
      else
        match cache.find? fun e => e.summary.common && e.covers r false with
        | some e => some e
        | none => cache.find? fun e => e.summary.common && e.covers r true

/-- A hit moves its entry to the most recent position (R66). -/
def cacheTouch (e : CacheEntry) (cache : List CacheEntry) : List CacheEntry := e :: cache.erase e

/-- A fill places an entry at the most recent position; of 32 entries held the least recent leaves first (R68). -/
def cacheFill (e : CacheEntry) (cache : List CacheEntry) : List CacheEntry := e :: cache.take 31

/-! ### Judgements at the moment of use (R59 to R61) -/

/-- Whether an active item bars the room (R59). -/
def OverlaySummary.bars (o : OverlaySummary) (m : Nat) : Bool := o.items.any fun i => i.bar && i.active m

/-- Whether an active item forces an escort (R59, R61). -/
def OverlaySummary.forces (o : OverlaySummary) (m : Nat) : Bool := o.items.any fun i => i.force && i.active m

/-- The custodian check (R60). -/
def custodianPasses (authority : Authority) (c : Custodian) (w : WorkOrder) : Bool :=
  match authority, c with
  | .sec, _ => true
  | .fac, .bank => true
  | .fac, .landlord => w.endorsedByLandlord
  | .lld, .bank => w.endorsedByFacilities
  | .lld, .landlord => true

/-- The requirement level of a room at a minute (R61). -/
def requirementLevel (g : GrantSummary) (o : OverlaySummary) (m : Nat) : Nat :=
  max g.category (if g.escort || o.forces m then 1 else 0)

/-- The judgement of the rights to a room from the two summaries: bar, custodian, and every window of the grant summary
and the option's window (R138 steps 6 to 8; R105 steps 6 to 8; R153). The space's owner is that of the lookup: a space
that an option of a work order names is not retired while the work order is in use (R35, R60). -/
def State.judgeRights (s : State) (n : SpaceNo) (w : WorkOrder) (optionWindow : Option Window) (minute : Nat)
    (g : GrantSummary) (o : OverlaySummary) : Resolution (GrantSummary × OverlaySummary) :=
  if o.bars minute then .error .securityBar
  else if !(match (s.space n).owner with | some a => custodianPasses a g.custodian w | none => false) then
    .error .custodian
  else if !allContain (g.windows ++ optionWindow.toList) minute then .error .outsideWindow
  else .ok (g, o)

end Sys2Proof.Machine
end

