-- ==== Sys2Proof/Machine/Choice.lean ====
section
/-! DEFINITION. What a selection does beside its requests (section 7.3): the checks of an option before them, the values
of an option, the choice, and what follows from it (R105 to R112). -/

namespace Sys2Proof.Machine

/-- The result of a selection (R107, R108). -/
inductive SelectionResult where
  /-- An option is chosen; `shortfall` says whether its cap is below the required minimum. -/
  | chosen (c : Candidate) (shortfall : Bool)
  | failed (f : SelectionFailure)
  /-- An ESTATE CLEAR discarded the selection with its request (R38). -/
  | discarded
  deriving DecidableEq, Repr

/-- Steps 1 to 3 of the checks of an option, made before its requests (R105): with these passed, the reading's time and
the home room. -/
def optionAsk (now : Reading) (w : WorkOrder) (o : WorkOption) : Except DenyCode (ClockTime × Designator) :=
  match now.clock with
  | none => .error .clockUnset
  | some t =>
    if !w.dayPasses t.day then .error .dayRange
    else if !allContain o.window.toList t.minute then .error .outsideWindow
    else
      match w.home with
      | none => .error .notGranted
      | some home => .ok (t, home)

/-- An eligible option with its values (R106). -/
def State.candidateOf (s : State) (index : Nat) (o : WorkOption) (home : Designator) (t : ClockTime) (g : GrantSummary)
    (ov : OverlaySummary) : Candidate :=
  { index := index
    cap := min o.cap (s.allowanceAt home g.guaranteed g.ceiling)
    level := requirementLevel g ov t.minute
    remaining := effectiveRemaining (g.windows ++ o.window.toList) t.minute }

/-- The result of the test of an option from the judgement of its rights (R105, R106). -/
def State.optionResult (s : State) (index : Nat) (o : WorkOption) (home : Designator) (t : ClockTime) :
    Resolution (GrantSummary × OverlaySummary) → Resolution Candidate
  | .ok (g, ov) => .ok (s.candidateOf index o home t g ov)
  | .error c => .error c
  | .discarded => .discarded

/-- The candidates among the results of a test. -/
def candidates (rs : List (Resolution Candidate)) : List Candidate :=
  rs.filterMap fun r => match r with | .ok c => some c | .error _ | .discarded => none

/-- The reason codes among the results of a test (R107). -/
def reasons (rs : List (Resolution Candidate)) : List DenyCode :=
  rs.filterMap fun r => match r with | .error c => some c | .ok _ | .discarded => none

/-- Whether candidate `a` comes before candidate `b` by the keys of R107. -/
def Candidate.before (preference : Preference) (a b : Candidate) : Bool :=
  if a.cap ≠ b.cap then b.cap < a.cap
  else if a.level ≠ b.level then a.level < b.level
  else if a.remaining ≠ b.remaining then
    match preference with
    | .longer => b.remaining < a.remaining
    | .shorter => a.remaining < b.remaining
  else a.index < b.index

/-- The candidate chosen (R107): the first by the keys. -/
def choose (preference : Preference) : List Candidate → Option Candidate
  | [] => none
  | c :: rest =>
    match choose preference rest with
    | none => some c
    | some b => some (if c.before preference b then c else b)

/-- What a selection comes to from the results of its tests (R107, R108). -/
def judgeTests (w : WorkOrder) (tested : List (Resolution Candidate)) : SelectionResult :=
  match choose w.preference (candidates tested) with
  | none => .failed (.noOption (reasons tested))
  | some c =>
    if w.requiredMinimum ≤ c.cap then .chosen c false
    else if w.refuseOnShortfall then .failed (.shortfall c.index c.cap)
    else .chosen c true

/-- Store a successful selection, with the deadline converted from its reading, and queue its notices (R78, R108,
R109). -/
def State.applySelection (s : State) (now : Reading) (n : WorkOrderNo) (w : WorkOrder) (c : Candidate) (short : Bool) :
    State :=
  let w' := { w with
    state := .active, selected := some c.index, capInForce := c.cap, shortfall := short,
    deadline := now.clock.map fun t => minuteDeadline now.count t c.remaining }
  let s1 := s.setWorkOrder n (some w')
  let s2 := if short then s1.notify w.issuer (.shortfall n c.index c.cap w.requiredMinimum) else s1
  s2.notify w.issuer (.optionSelected n c.index c.cap c.remaining c.level short)

/-- A work order lapses (R111). -/
def State.lapse (s : State) (n : WorkOrderNo) (w : WorkOrder) (f : SelectionFailure) : State :=
  (s.setWorkOrder n (some { w with
    state := .lapsed, selected := none, capInForce := 0, deadline := none, shortfall := false })).notify
    w.issuer (.workOrderLapsed n f)

/-- What a selection does to its work order (R108 to R112): a success is stored; a failure lapses an Active work order
and changes no other; one that is discarded applies nothing (R38). -/
def State.applyResult (s : State) (now : Reading) (n : WorkOrderNo) (w : WorkOrder) : SelectionResult → State
  | .chosen c short => s.applySelection now n w c short
  | .failed f => if w.state = .active then s.lapse n w f else s
  | .discarded => s

/-- The refusal of an ACTIVATE whose selection failed (R107, R108, R110). -/
def SelectionFailure.refusal : SelectionFailure → Answer
  | .noOption reasons => .refused .noOption (counted (fun c => [DenyCode.value c]) reasons)
  | .shortfall o cap => .refused .shortfall (num1 o ++ num1 cap)

/-- What the reply to an ACTIVATE says from the result of its selection (R110). Where an ESTATE CLEAR discarded the
selection (R38), it is a free value of the state right after the clear: DESIGN CHOICE (assumption 44). -/
def State.activateAnswer (s : State) : SelectionResult → Answer
  | .chosen c short => .accepted (num1 c.index ++ num1 c.cap ++ num2 c.remaining ++ flagByte short)
  | .failed f => f.refusal
  | .discarded => Config.discardedReply s

/-- The turn of a work order at the entry of a minute: the record with which its selection runs, in the state in which
it runs, if it has one. By advance a Lapsed work order is tested again (R75, R112); at SET CLOCK an Active one too, its
old deadline removed first (R77, R111). -/
def State.turnOf (s : State) (clockSet : Bool) (n : WorkOrderNo) : Option (State × WorkOrder) :=
  match s.workOrder n with
  | some w =>
    if w.state = .active ∧ clockSet then
      let w' := { w with deadline := none }
      some (s.setWorkOrder n (some w'), w')
    else if w.state = .lapsed then some (s, w)
    else none
  | none => none

/-- The work orders that the entry of a minute reaches, in number order (R77, R112): those that are Lapsed at the entry,
and at SET CLOCK those that are Active too. -/
def State.turnsDue (s : State) (clockSet : Bool) : List WorkOrderNo :=
  generalWorkOrders.filter fun n =>
    (s.workOrder n).any fun w => decide (w.state = .lapsed) || (clockSet && decide (w.state = .active))

end Sys2Proof.Machine
end

