-- ==== Sys2Proof/Machine/Entering.lean ====
section
/-! DEFINITION. What an Enter presentation comes to once its rights are judged (R138 to R141, R150, R153, R154). -/

namespace Sys2Proof.Machine

/-! ### The contractor (R138 to R140, R150) -/

/-- Whether an Escort-role permit is on the inside list of the room's record (R139). -/
def State.escortInside (s : State) (room : Designator) : Bool :=
  match s.recordOf room with
  | none => false
  | some k =>
    match s.record k with
    | none => false
    | some o => o.inside.any fun n => match s.permit n with | some p => p.role = .escort | none => false

/-- Enter pairing (R150): take the lowest free slot, or deny PAIRING_BUSY. The pairing window runs from the count at
which the decision began (R78). -/
def State.enterPairing (s : State) (count : Nat) (d : DoorId) (c : Credential) (n : PermitNo) (v : DecisionValues) :
    State :=
  match lowest Option.isNone s.slots with
  | none => s.denyPresentation d c .pairingBusy
  | some k =>
    let slot : Slot :=
      { door := d, contractor := n, rounds := if v.level = 3 then 2 else 1, expects := .escort, escort := none,
        timer := .running (count + s.timings.pairingWindow) }
    let s1 := (s.setSlot k (some slot)).setDoor d { s.door d with admission := .pairing n v }
    (countedSpaces v.space).foldl State.raiseDrain s1

/-- Steps 9 to 11 of an Enter presentation (R139, R140). -/
def State.enterWithRights (s : State) (e : ContractorEntry) (g : GrantSummary) (ov : OverlaySummary) : State :=
  let level := requirementLevel g ov e.time.minute
  if e.record.role = .escort ∨ level = 0 ∨ (level = 1 ∧ s.escortInside e.room) then
    match s.admissionFault e.room g.guaranteed g.ceiling [e.permit] with
    | some code => s.denyPresentation e.door e.credential code
    | none => s.openEnter e.door e.room g.guaranteed g.ceiling false [⟨e.permit, g.windows, e.option.window⟩]
  else
    s.enterPairing e.count e.door e.credential e.permit
      { space := e.option.space, guaranteed := g.guaranteed, ceiling := g.ceiling, category := g.category,
        remote := g.remote, windows := g.windows, optionWindow := e.option.window, overlay := ov, level := level }

/-- An Enter presentation of a contractor from the judgement of its rights on (R138 to R140). One whose request an
ESTATE CLEAR discarded is discarded with it: it makes no verdict and no notice (R38). -/
def State.endContractor (s : State) (e : ContractorEntry) : Resolution (GrantSummary × OverlaySummary) → State
  | .discarded => s
  | .error code => s.denyPresentation e.door e.credential code
  | .ok (g, ov) => s.enterWithRights e g ov

/-! ### The escort (R153, R154) -/

/-- Complete a pairing at its last escort step (R154). -/
def State.completePairing (s : State) (d : DoorId) (k : SlotNo) (slot : Slot) (room : Designator)
    (v : DecisionValues) (e : HeldEscort) : State :=
  match s.admissionFault room v.guaranteed v.ceiling [slot.contractor, e.permit] with
  | some code => (s.setSlot k (some { slot with escort := some e })).denyPairing k code none true
  | none =>
    (s.endPairing k d none).openEnter d room v.guaranteed v.ceiling false
      [⟨slot.contractor, v.windows, v.optionWindow⟩, ⟨e.permit, e.windows, none⟩]

/-- An escort step from the judgement of the escort's rights on (R153): the pairing completes or the escort is held. A
step whose request an ESTATE CLEAR discarded is discarded with its pairing (R38). -/
def State.endEscort (s : State) (e : EscortEntry) : Resolution (GrantSummary × OverlaySummary) → State
  | .discarded => s
  | .error code => s.denyPresentation e.door e.credential code
  | .ok (g, _) =>
    let held : HeldEscort := ⟨e.permit, e.credential, g.windows⟩
    if e.slot.rounds = 1 ∨ e.slot.expects = .finalEscort then
      s.completePairing e.door e.slotNo e.slot e.room e.values held
    else
      s.setSlot e.slotNo (some { e.slot with
        escort := some held, expects := .contractor, timer := .running (e.count + 8) })

end Sys2Proof.Machine
end

