-- ==== Sys2Proof/Machine/EstateCommands.lean ====
section
/-! DEFINITION. Commands that concern the whole device: posture, site allowances, timings, status (R87, R89, R170,
R171), an unknown command (R169), and power-on (R179). -/

namespace Sys2Proof.Machine

/-- The estate clock as replies carry it: state (0 Set, 1 Unset), day, minute, second (R74, R168). -/
def clockBytes : Option ClockTime → List Byte
  | none => [1] ++ num2 0 ++ num2 0 ++ num1 0
  | some t => [0] ++ num2 t.day ++ num2 t.minute ++ num1 t.second

/-- The posture changes (R87): at a change to Lockdown the doors act first, and the lanes complete no Open to an Enter
(R86); then every over-allowance flag is evaluated against the new posture. -/
def State.changePosture (s : State) (posture : Posture) : State :=
  let s1 := { s with posture := posture }
  let s2 :=
    if posture = .lockdown ∧ s.posture ≠ .lockdown then (List.finRange 4).foldl State.withdrawFrame s1.lockDoors
    else s1
  s2.evaluateWhere fun _ => true

/-- What SET POSTURE does with its argument (R87). -/
def setPosture (p : Authority) (a : SetPostureArgs) (s : State) : State × Answer :=
  if p ≠ .sec then refuse .notPermitted s
  else
    match posture? a.posture with
    | none => refuse .badArgument s
    | some posture => (s.changePosture posture, .accepted [postureValue s.posture, postureValue posture])

/-- SET POSTURE (R87). -/
def execSetPosture (p : Authority) (a : Payload SetPostureArgs) (s : State) : Host.Outcome State Fault Refusal :=
  runCommand p 11 a SetPostureArgs.encode (setPosture p) s

/-- What SET SITE ALLOWANCE does with its arguments (R89). -/
def setSiteAllowance (p : Authority) (a : SetSiteAllowanceArgs) (s : State) : State × Answer :=
  if p ≠ .sec then refuse .notPermitted s
  else
    match site? a.site with
    | none => refuse .badArgument s
    | some n =>
      let new : SiteRecord := ⟨min a.extra.toNat 127, min a.forced.toNat 63⟩
      let old := s.site n
      ((s.setSite n new).evaluateWhere fun r => r.site = n,
        .accepted (num1 n.val ++ num1 old.extra ++ num1 old.forced ++ num1 new.extra ++ num1 new.forced))

/-- SET SITE ALLOWANCE (R89). -/
def execSetSiteAllowance (p : Authority) (a : Payload SetSiteAllowanceArgs) (s : State) :
    Host.Outcome State Fault Refusal :=
  runCommand p 12 a SetSiteAllowanceArgs.encode (setSiteAllowance p) s

/-- The three timings as replies carry them (R170). -/
def timingsBytes (t : Timings) : List Byte := num1 t.pairingWindow ++ num1 t.passageTime ++ num1 t.consentWait

/-- What SET TIMINGS does with its arguments (R170). -/
def setTimings (p : Authority) (a : SetTimingsArgs) (s : State) : State × Answer :=
  if p ≠ .sec then refuse .notPermitted s
  else
    let new : Timings :=
      ⟨clamp 5 60 a.pairingWindow.toNat, clamp 5 30 a.passageTime.toNat, clamp 15 120 a.consentWait.toNat⟩
    ({ s with timings := new }, .accepted (timingsBytes s.timings ++ timingsBytes new))

/-- SET TIMINGS (R170). -/
def execSetTimings (p : Authority) (a : Payload SetTimingsArgs) (s : State) : Host.Outcome State Fault Refusal :=
  runCommand p 29 a SetTimingsArgs.encode (setTimings p) s

/-- The figures of one lane in READ STATUS (R171). -/
def laneStatus (s : State) (l : LaneNo) : List Byte :=
  flagByte (s.lane l).held ++ num1 (s.lane l).position.val ++
    (laneDoors l).map fun d => presenceValue (s.door d).presence

/-- The results of READ STATUS at a port (R171). -/
def statusResults (p : Authority) (s : State) : List Byte :=
  clockBytes s.clock ++ num4 s.count ++ [postureValue s.posture] ++ timingsBytes s.timings ++
    (List.finRange 4).flatMap (laneStatus s) ++
    num1 (countWhere SpaceRecord.inUse s.spaces) ++ num1 (countWhere Option.isSome s.workOrders) ++
    num2 (countWhere Option.isSome s.permits) ++ num1 (countWhere Option.isSome s.occupancy) ++
    num1 (countWhere Option.isSome s.slots) ++ num1 s.cache.length ++
    num1 (s.port p).queue.length ++ num1 (s.port p).safetyHeld ++ flagByte (s.port p).dropped

/-- What READ STATUS does (R171). -/
def readStatus (p : Authority) (_ : NoArgs) (s : State) : State × Answer := (s, .accepted (statusResults p s))

/-- READ STATUS (R171). -/
def execReadStatus (p : Authority) (a : Payload NoArgs) (s : State) : Host.Outcome State Fault Refusal :=
  runCommand p 30 a NoArgs.encode (readStatus p) s

/-- Whether a code names a command of the device (R168). -/
def namesCommand (code : Byte) : Bool := decide (1 ≤ code.toNat) && decide (code.toNat ≤ 31)

/-- A command whose code names no command (R169). A code that names one is no unknown command, and nothing
happens. -/
def execUnknownCommand (p : Authority) (code : Byte) (bytes : List Byte) (s : State) :
    Host.Outcome State Fault Refusal :=
  .next (if namesCommand code then s else takeCommand p code bytes (refuse .unknownCommand) s)

/-- Power-on (R179): every value is that of reset. The commands that wait and what meets
the requests to come are not the device's, and the ready lines are the controllers'. -/
def execPowerOn (s : State) : Host.Outcome State Fault Refusal :=
  .next { State.reset with
    pending := s.pending
    meetings := s.meetings
    ports :=
      { sec := { Port.initial with ready := s.ports.sec.ready, levels := s.ports.sec.levels }
        fac := { Port.initial with ready := s.ports.fac.ready, levels := s.ports.fac.levels }
        lld := { Port.initial with ready := s.ports.lld.ready, levels := s.ports.lld.levels } } }

end Sys2Proof.Machine
end

