-- ==== Sys2Proof/Machine/TimeEvents.lean ====
section
/-! DEFINITION. The advance of the clock (R75), and the deadlines that make no request. A deadline is reached when the
count has risen to its value (R78); an event that names a deadline not held or not reached changes nothing. -/

namespace Sys2Proof.Machine

/-- The clock and the count one second on, with the day change that hands on expiries (R74, R75, R115), and whether a
new minute is entered by advance (R112). -/
def State.advanceClock (s : State) : State × Bool :=
  let s1 := { s with count := s.count + 1 }
  match advance s.clock with
  | .unset => ({ s1 with clock := none }, false)
  | .second t => ({ s1 with clock := some t }, false)
  | .minute t => ({ s1 with clock := some t }, true)
  | .day t => (({ s1 with clock := some t } : State).dayChange t.day, true)

/-- The time that a SET CLOCK sets, or the code with which it is refused (R76). -/
def setClockOf (p : Authority) (a : SetClockArgs) : Except RefusalCode ClockTime :=
  if p ≠ .sec then .error .notPermitted
  else if 1440 ≤ a.minute.toNat ∨ 60 ≤ a.second.toNat then .error .badArgument
  else .ok ⟨a.day.toNat, a.minute.toNat, a.second.toNat⟩

/-- The setting of the clock with the day change that it hands on (R77). -/
def State.setClockTo (s : State) (t : ClockTime) : State :=
  let s1 := { s with clock := some t }
  if s.clock.map ClockTime.day = some t.day then s1 else s1.dayChange t.day

/-- Whether a deadline that may be absent has been reached (R78). -/
def State.reached (s : State) (deadline : Option Nat) : Bool :=
  match deadline with
  | none => false
  | some t => t ≤ s.count

/-- PASSAGE_DEADLINE (R143). -/
def execPassageDeadline (d : DoorId) (s : State) : Host.Outcome State Fault Refusal :=
  .next <|
    match (s.door d).admission with
    | .openEnter _ t | .openExit _ t => if s.reached t then s.closePassages true [d] else s
    | .idle | .pairing .. | .awaitingConsent .. => s

/-- Whether a slot is not frozen and its deadline has been reached (R157, R159). -/
def State.slotDue (s : State) (k : Slot) : Bool :=
  match k.timer with
  | .running t => t ≤ s.count
  | .frozen _ => false

/-- The move to Awaiting Consent (R157): the slot expects Consent, with a new deadline, and CONSENT_REQUEST is
queued. -/
def State.awaitConsent (s : State) (n : SlotNo) (k : Slot) (v : DecisionValues) : State :=
  let x := s.door k.door
  let s1 := s.setSlot n (some { k with expects := .consent, timer := .running (s.count + s.timings.consentWait) })
  let s2 := s1.setDoor k.door { x with admission := .awaitingConsent k.contractor v }
  s2.notify .sec
    (.consentRequest k.door x.binding k.contractor (s.credentialOf k.contractor)
      (match s.permit k.contractor with | some p => p.workOrder | none => 0) v.level s.timings.consentWait)

/-- A step of a pairing times out (R157). -/
def State.stepTimeout (s : State) (n : SlotNo) (k : Slot) : State :=
  match k.expects, (s.door k.door).admission with
  | .escort, .pairing _ v =>
    if v.level ≠ 3 ∧ v.remote then s.awaitConsent n k v else s.denyPairing n .escortAbsent none true
  | _, _ => s.denyPairing n .escortAbsent none true

/-- STEP_DEADLINE (R157). -/
def execStepDeadline (n : SlotNo) (s : State) : Host.Outcome State Fault Refusal :=
  .next <|
    match s.slot n with
    | none => s
    | some k => if s.slotDue k ∧ k.expects ≠ .consent then s.stepTimeout n k else s

/-- CONSENT_DEADLINE (R158). -/
def execConsentDeadline (n : SlotNo) (s : State) : Host.Outcome State Fault Refusal :=
  .next <|
    match s.slot n with
    | none => s
    | some k => if s.slotDue k ∧ k.expects = .consent then s.denyPairing n .consentTimeout none true else s

/-- CHECKIN_DEADLINE (R125). -/
def execCheckinDeadline (n : PermitNo) (s : State) : Host.Outcome State Fault Refusal :=
  .next <|
    match s.permit n with
    | none => s
    | some p =>
      match p.state with
      | .inside stay =>
        if s.reached stay.checkInDeadline then
          let stay' := { stay with checkInDeadline := none, overdue := true }
          (s.setPermit n (some { p with state := .inside stay' })).notifyBoth
            (s.issuer p.workOrder) (.overdue n p.credential p.workOrder stay.room)
        else s
      | .idle | .pending .. => s

/-- STAY_DEADLINE (R126). -/
def execStayDeadline (n : PermitNo) (s : State) : Host.Outcome State Fault Refusal :=
  .next <|
    match s.permit n with
    | none => s
    | some p =>
      match p.state with
      | .inside stay =>
        if s.reached stay.stayDeadline then
          let stay' := { stay with stayDeadline := none, overstay := true }
          (s.setPermit n (some { p with state := .inside stay' })).notifyBoth
            (s.issuer p.workOrder) (.overstay n p.credential p.workOrder stay.room)
        else s
      | .idle | .pending .. => s

/-- The slots whose admissions are counted in a space's drain count (R30): every slot for spaces 0 and 1, and
otherwise those whose contractor's space it is. -/
def State.slotsCounted (s : State) (n : SpaceNo) : List SlotNo :=
  numbersWhere
    (fun x => match x with
      | none => false
      | some k =>
        match (s.door k.door).admission.contractorSpace with
        | none => false
        | some sp => (countedSpaces sp).contains n)
    s.slots

/-- The forced switch (R32): every admission counted in the space is abandoned with SPACE_SWITCHED, and then the
switch is applied once. The abandonments go by the contractors' permit numbers (R175, assumption 21). -/
def State.forceSwitch (s : State) (n : SpaceNo) : State :=
  let ks := s.slotsCounted n
  ((s.byContractor ks).foldl (fun s k => s.denyPairing k .spaceSwitched (some n) true) s).applySwitch n .forced ks.length

/-- SWITCH_DEADLINE (R32). -/
def execSwitchDeadline (n : SpaceNo) (s : State) : Host.Outcome State Fault Refusal :=
  .next <|
    match (s.space n).waiting with
    | none => s
    | some w => if w.deadline ≤ s.count then s.forceSwitch n else s

end Sys2Proof.Machine
end

