-- ==== Sys2Proof/Machine/WorkOrderCommands.lean ====
section
/-! DEFINITION. The work-order commands (chapter 7), of ACTIVATE the checks before its selection. -/

namespace Sys2Proof.Machine

/-- The index of the lowest option that names a space not in use or not owned by the issuer (R103 step 3). -/
def State.foreignOption (s : State) (p : Authority) (w : WorkOrder) : Option Nat :=
  (w.options.findIdx? fun o => (s.space o.space).owner ≠ some p).map (· + 1)

/-- What CREATE WORK ORDER does with its arguments (R103). -/
def createWorkOrder (p : Authority) (a : CreateWorkOrderArgs) (s : State) : State × Answer :=
  match newWorkOrder? p a with
  | none => refuse .badArgument s
  | some w =>
    if p = .sec then refuse .notPermitted s
    else
      match s.foreignOption p w with
      | some i => (s, .refused .notPermitted (num1 i))
      | none =>
        match lowestFrom 1 Option.isNone s.workOrders with
        | none => refuse .workOrderTableFull s
        | some n => (s.setWorkOrder n (some w), .accepted (num1 n.val ++ num1 w.renewal))

/-- CREATE WORK ORDER (R103). -/
def execCreateWorkOrder (p : Authority) (a : Payload CreateWorkOrderArgs) (s : State) :
    Host.Outcome State Fault Refusal :=
  runCommand p 15 a CreateWorkOrderArgs.encode (createWorkOrder p) s

/-- Whether a work order is Closing (R101). -/
def WorkOrder.isClosing (w : WorkOrder) : Bool :=
  match w.state with
  | .closing _ => true
  | _ => false

/-- A work order with an authority's own endorsement flag written (R104). -/
def WorkOrder.endorse (w : WorkOrder) (p : Authority) (value : Bool) : WorkOrder :=
  match p with
  | .fac => { w with endorsedByFacilities := value }
  | .lld => { w with endorsedByLandlord := value }
  | .sec => w

/-- The work order that an ACTIVATE selects for, or the code with which it is refused (R110). -/
def activateOf (p : Authority) (a : NumberArgs) (s : State) : Except RefusalCode (WorkOrderNo × WorkOrder) :=
  match workOrder? a.number with
  | none => .error .badArgument
  | some n =>
    match s.workOrder n with
    | none => .error .notPermitted
    | some w =>
      if n.val = 0 ∨ w.issuer ≠ p then .error .notPermitted
      else if w.isClosing then .error .closing
      else .ok (n, w)

/-- What ENDORSE does with its arguments (R104). -/
def endorse (p : Authority) (a : EndorseArgs) (s : State) : State × Answer :=
  match workOrder? a.workOrder, flag? a.value with
  | some n, some value =>
    match s.workOrder n with
    | none => refuse .notPermitted s
    | some w =>
      if p = .sec ∨ n.val = 0 ∨ w.issuer = p then refuse .notPermitted s
      else if w.isClosing then refuse .closing s
      else
        let w' := w.endorse p value
        (s.setWorkOrder n (some w'),
          .accepted (flagByte w'.endorsedByFacilities ++ flagByte w'.endorsedByLandlord))
  | _, _ => refuse .badArgument s

/-- ENDORSE (R104). -/
def execEndorse (p : Authority) (a : Payload EndorseArgs) (s : State) : Host.Outcome State Fault Refusal :=
  runCommand p 16 a EndorseArgs.encode (endorse p) s

/-- How many of a work order's permits are, or are not, Pending or Inside (R114). -/
def State.countPermits (s : State) (w : WorkOrderNo) (counted : Bool) : Nat :=
  countWhere (fun r => match r with | some p => p.workOrder = w && p.state.counted == counted | none => false) s.permits

/-- What WITHDRAW does with its argument (R114). Of the two numbers of its reply the released permits may be all 256
and take two bytes; the revoked ones each weigh at least 1 in a party load of at most 127 and take one (R113, R118, R168,
assumption 43). -/
def withdraw (p : Authority) (a : NumberArgs) (s : State) : State × Answer :=
  match workOrder? a.number with
  | none => refuse .badArgument s
  | some n =>
    match s.workOrder n with
    | none => refuse .notPermitted s
    | some w =>
      if n.val = 0 ∨ (w.issuer ≠ p ∧ p ≠ .sec) then refuse .notPermitted s
      else if w.isClosing then refuse .closing s
      else
        (s.closeWorkOrder n .withdrawn,
          .accepted (num1 n.val ++ num2 (s.countPermits n false) ++ num1 (s.countPermits n true)))

/-- WITHDRAW (R114). -/
def execWithdraw (p : Authority) (a : Payload NumberArgs) (s : State) : Host.Outcome State Fault Refusal :=
  runCommand p 18 a NumberArgs.encode (withdraw p) s

/-- One option as READ WORK ORDER carries it (R100, R117). -/
def optionBytes (o : WorkOption) : List Byte := num1 o.space.val ++ optional windowBytes o.window ++ num1 o.cap

/-- One permit as READ WORK ORDER carries it: its number and state (R117). -/
def permitEntryBytes (s : State) (n : PermitNo) : List Byte :=
  num1 n.val ++ [match s.permit n with | some p => permitStateValue p.state | none => 0]

/-- The results of READ WORK ORDER for a record in use (R117): every item of R100 and the work order's permits. R117
gives the permits no order; they are listed in permit number order: DESIGN CHOICE (assumption 20). The seconds remaining
to a selection deadline that is reached and whose event is still to be taken read as 0: DESIGN CHOICE (assumption 42). -/
def workOrderResults (s : State) (n : WorkOrderNo) (w : WorkOrder) : List Byte :=
  [authorityValue w.issuer, workOrderStateValue w.state] ++ counted optionBytes w.options ++
    optional designatorBytes w.home ++ num1 w.requiredMinimum ++ num1 w.renewal ++
    [preferenceValue w.preference] ++ flagByte w.refuseOnShortfall ++
    optional (fun d => num2 (Prod.fst d)) w.days ++ optional (fun d => num2 (Prod.snd d)) w.days ++
    flagByte w.endorsedByFacilities ++ flagByte w.endorsedByLandlord ++ optional num1 w.selected ++
    num1 w.capInForce ++ flagByte w.shortfall ++ optional (fun t => num4 (t - s.count)) w.deadline ++
    num1 w.party ++ counted (permitEntryBytes s) (s.permitsOf n)

/-- What READ WORK ORDER does with its argument (R117). -/
def readWorkOrder (p : Authority) (a : NumberArgs) (s : State) : State × Answer :=
  match workOrder? a.number with
  | none => refuse .badArgument s
  | some n =>
    match s.workOrder n with
    | none => if p = .sec then (s, .accepted (flagByte false)) else refuse .notPermitted s
    | some w =>
      if p = .sec ∨ w.issuer = p then (s, .accepted (flagByte true ++ workOrderResults s n w))
      else refuse .notPermitted s

/-- READ WORK ORDER (R117). -/
def execReadWorkOrder (p : Authority) (a : Payload NumberArgs) (s : State) : Host.Outcome State Fault Refusal :=
  runCommand p 19 a NumberArgs.encode (readWorkOrder p) s

end Sys2Proof.Machine
end

