-- ==== Sys2Proof/Machine/Errands.lean ====
section
/-! DEFINITION. Decisions that wait for the resolver while another decision is in progress (R38): what each is about and
asks, how it begins up to its first request, how it goes on from the judgement of its rights, and how it is
discarded. -/

namespace Sys2Proof.Machine

/-! ### What a decision is about -/

/-- What a decision is about: the port whose command makes it, if a command does, the door, the room, the permits and
the work orders that it judges and writes, and the work orders whose selections the same row still runs behind it
(R134, R169, section 7.3). A selection has no door and writes no room. -/
structure Decision where
  port : Option Authority
  door : Option DoorId
  room : Option Designator
  permits : List PermitNo
  workOrders : List WorkOrderNo
  later : List WorkOrderNo
  deriving DecidableEq, Repr

/-- The decision that an Enter presentation of a contractor is (R134). -/
def Decision.contractor (d : DoorId) (room : Designator) (n : PermitNo) (p : Permit) : Decision :=
  ⟨none, some d, some room, [n], [p.workOrder], []⟩

/-- The decision that an escort presentation in a pairing is, with the work order of the contractor (R134, R153). -/
def Decision.escort (d : DoorId) (room : Designator) (slot : Slot) (n : PermitNo) (w : WorkOrderNo) : Decision :=
  ⟨none, some d, some room, [slot.contractor, n], [w, 0], []⟩

/-- The decision that a selection of a work order is, with the port whose command runs it, if a command does, and the
work orders whose turn in the same row is still to come (R78, section 7.3). -/
def Decision.selection (p : Option Authority) (n : WorkOrderNo) (later : List WorkOrderNo) : Decision :=
  ⟨p, none, none, [], [n], later⟩

/-- What carrying out a port's command is about while no decision of it waits: the port (R169). -/
def Decision.carrying (p : Option Authority) : Decision := ⟨p, none, none, [], [], []⟩

/-- A decision with the room that its requests are for. -/
structure Party where
  decision : Decision
  room : Designator
  deriving DecidableEq, Repr

/-- The port whose command runs a selection, if a command does. -/
def SelectionRun.port : SelectionRun → Option Authority
  | .activate p _ => some p
  | .clockSet .. => some .sec
  | .deadline | .minute _ => none

/-- The work orders whose selections the same row still runs. -/
def SelectionRun.later : SelectionRun → List WorkOrderNo
  | .activate .. | .deadline => []
  | .minute rest | .clockSet _ _ rest => rest

/-- What a waiting decision is about, with the room of its requests. -/
def Errand.party : Errand → Party
  | .contractor e => ⟨.contractor e.door e.room e.permit e.record, e.room⟩
  | .escort e => ⟨.escort e.door e.room e.slot e.permit e.job, e.room⟩
  | .selection e => ⟨.selection e.run.port e.number e.run.later, e.home⟩

/-- The space of its grant request: the option's, and for an escort space 1 (R138, R153, R105). -/
def Errand.space : Errand → SpaceNo
  | .contractor e => e.option.space
  | .escort _ => 1
  | .selection e => e.option.space

/-- The judgement of its rights from the two summaries (R138, R153, R105). -/
def Errand.judge (s : State) (g : GrantSummary) (o : OverlaySummary) :
    Errand → Resolution (GrantSummary × OverlaySummary)
  | .contractor e => s.judgeRights e.option.space e.workOrder e.option.window e.time.minute g o
  | .escort e => s.judgeRights 1 e.roster none e.time.minute g o
  | .selection e => s.judgeRights e.option.space e.workOrder none e.time.minute g o

/-! ### Waiting -/

/-- A decision waits, behind those that wait already (R38). -/
def State.wait (s : State) (e : Errand) (asks : WaitingFor) : State := { s with waiting := s.waiting ++ [⟨e, asks⟩] }

/-! ### Selections -/

/-- The first option from one on that passes the checks made before its requests, with the results of those before it
(R105). -/
def nextOption (now : Reading) (w : WorkOrder) : Nat → List WorkOption → List (Resolution Candidate) →
    List (Resolution Candidate) × Option (Nat × WorkOption × List WorkOption × ClockTime × Designator)
  | _, [], tested => (tested, none)
  | index, o :: left, tested =>
    match optionAsk now w o with
    | .error c => nextOption now w (index + 1) left (tested ++ [.error c])
    | .ok (t, home) => (tested, some (index, o, left, t, home))

/-- A selection ends (R108 to R112), and an ACTIVATE that runs it makes its reply (R110). -/
def State.endSelection (s : State) (run : SelectionRun) (now : Reading) (n : WorkOrderNo) (w : WorkOrder)
    (tested : List (Resolution Candidate)) : State :=
  let r := judgeTests w tested
  let s1 := s.applyResult now n w r
  match run with
  | .activate p wasIdle => s1.makeReply p wasIdle ⟨17, s.activateAnswer r⟩
  | .deadline | .minute _ | .clockSet .. => s1

/-- A selection goes on from one option: it makes the request of the next option that asks for one, or ends, and then
the answer is yes. -/
def State.selectFrom (s : State) (run : SelectionRun) (now : Reading) (n : WorkOrderNo) (w : WorkOrder) (index : Nat)
    (left : List WorkOption) (tested : List (Resolution Candidate)) : State × Bool :=
  match nextOption now w index left tested with
  | (tested, some (index, o, left, t, home)) =>
    (s.wait (.selection ⟨run, now, n, w, home, t, index, o, left, tested⟩) .grant, false)
  | (tested, none) => (s.endSelection run now n w tested, true)

/-- A selection begins, with its reading (R78). A work order has at most seven options (R100). -/
def State.beginSelection (s : State) (run : SelectionRun) (now : Reading) (n : WorkOrderNo) (w : WorkOrder) :
    State × Bool :=
  s.selectFrom run now n w 1 (w.options.take 7) []

/-- The turns of work orders at the entry of a minute, in order and with the reading taken at the entry, up to the first
request (R77, R112). -/
def State.takeTurns (clockSet : Bool) (run : List WorkOrderNo → SelectionRun) (now : Reading) :
    List WorkOrderNo → State → State
  | [], s => s
  | n :: rest, s =>
    match s.turnOf clockSet n with
    | none => s.takeTurns clockSet run now rest
    | some (s1, w) =>
      match s1.beginSelection (run rest) now n w with
      | (s2, true) => s2.takeTurns clockSet run now rest
      | (s2, false) => s2

/-- The row that runs selections goes on behind one that has ended: with the turns still to come, by the reading of the
entry, and behind the last of them SET CLOCK makes its reply (R77, R112, R169). -/
def State.goOn (s : State) (now : Reading) : SelectionRun → State
  | .activate .. | .deadline => s
  | .minute rest => s.takeTurns false .minute now rest
  | .clockSet wasIdle answer rest =>
    let s1 := s.takeTurns true (.clockSet wasIdle answer) now rest
    if s1.waiting.length = s.waiting.length then s1.makeReply .sec wasIdle ⟨10, answer⟩ else s1

/-! ### How a waiting decision goes on, and how it is discarded -/

/-- A waiting decision goes on from the judgement of its rights. -/
def State.resume (s : State) (rights : Resolution (GrantSummary × OverlaySummary)) : Errand → State
  | .contractor e => s.endContractor e rights
  | .escort e => s.endEscort e rights
  | .selection e =>
    match s.selectFrom e.run e.now e.number e.workOrder (e.index + 1) e.left
        (e.tested ++ [s.optionResult e.index e.option e.home e.time rights]) with
    | (s1, true) => s1.goOn e.now e.run
    | (s1, false) => s1

/-- A waiting decision is discarded by an ESTATE CLEAR (R38): nothing more of it is done, but the command that made it
has its one reply (R169, assumption 44). -/
def State.discard (s : State) (t : Waiting) : State :=
  match t.errand with
  | .contractor _ | .escort _ => s
  | .selection e =>
    match e.run with
    | .activate p wasIdle => s.makeReply p wasIdle ⟨17, s.activateAnswer .discarded⟩
    | .clockSet wasIdle answer _ => s.makeReply .sec wasIdle ⟨10, answer⟩
    | .deadline | .minute _ => s

/-! ### How a decision begins while another waits -/

/-- An Enter presentation up to its first request (R134). -/
def State.beginEnter (s : State) (d : DoorId) (c : Credential) : State :=
  match s.enterStage d c with
  | .settled t => t
  | .contractor e => s.wait (.contractor e) .grant
  | .escort e => s.wait (.escort e) .grant

/-- One second passes, up to the first request (R75, R112). -/
def State.beginTick (s : State) : State :=
  match s.advanceClock with
  | (t, true) => t.takeTurns false .minute t.reading (t.turnsDue false)
  | (t, false) => t

/-- A selection deadline, up to the first request (R111). -/
def State.beginDeadline (s : State) (n : WorkOrderNo) : State :=
  match s.workOrder n with
  | none => s
  | some w => if w.state = .active ∧ s.reached w.deadline then (s.beginSelection .deadline s.reading n w).1 else s

/-- A port takes an ACTIVATE, up to the first request (R110, R169). -/
def State.beginActivate (s : State) (p : Authority) (a : NumberArgs) : State :=
  match activateOf p a s with
  | .error code => carryOut p 17 (refuse code) s
  | .ok (n, w) =>
    ((s.reserveReply p).beginSelection (.activate p (s.port p).transmitter.isNone) s.reading n w).1

/-- A port takes a SET CLOCK, up to the first request (R76, R77, R169). -/
def State.beginSetClock (s : State) (p : Authority) (a : SetClockArgs) : State :=
  match setClockOf p a with
  | .error code => carryOut p 10 (refuse code) s
  | .ok t =>
    let s1 := (s.reserveReply p).setClockTo t
    s1.goOn s1.reading
      (.clockSet (s.port p).transmitter.isNone (.accepted (clockBytes s.clock ++ num4 s.count)) (s1.turnsDue true))

end Sys2Proof.Machine
end

