-- ==== Sys2Proof/Machine/LaneEvents.lean ====
section
/-! DEFINITION. Events of a door lane (R134, R135, R162, R163, R165) that make no request. -/

namespace Sys2Proof.Machine

/-- POLL_TURN (R162): one turn at a time, and none while a break is driven. -/
def execPollTurn (l : LaneNo) (s : State) : Host.Outcome State Fault Refusal :=
  .next <|
    if (s.lane l).phase = .between then (s.setLane l { s.lane l with sent := [] }).sendNext l else s

/-- A verdict of a door says what another says, for the same credentials (R135). -/
def Verdict.sameMessage (v w : Verdict) : Bool := v.ended = w.ended

/-- The verdict whose frame has been sent leaves the door's list (R135, R162), and an Open made for the door's
admission sets the passage deadline. A verdict whose door an ESTATE CLEAR returned to its power-on value while its frame
was on the lane has left the list already: its sending changes no state of the door, and what stands on the list still
waits (assumption 16). -/
def State.verdictGone (s : State) (l : LaneNo) (v : Verdict) : State :=
  let d := s.turnDoor l
  let x := s.door d
  match x.outgoing with
  | w :: rest =>
    if w.sameMessage v then
      s.setDoor d { x with
        outgoing := rest
        admission := if w.admits then x.admission.withDeadline (s.count + s.timings.passageTime) else x.admission }
    else s
  | [] => s

/-- VERDICT_SENT (R135, R162): the frame on the lane has been sent, its verdict leaves the door's list, and the turn
goes on. -/
def execVerdictSent (l : LaneNo) (s : State) : Host.Outcome State Fault Refusal :=
  .next <|
    match (s.lane l).phase with
    | .sendingVerdict v =>
      let q := s.lane l
      ((s.verdictGone l v).setLane l
        { q with sent := q.sent ++ [verdictFrame q.position s.timings.passageTime v] }).sendNext l
    | .between | .sendingCancel | .polling | .breaking => s

/-- CANCEL_SENT (R162): cancel-pending is cleared, and the poll follows. -/
def execCancelSent (l : LaneNo) (s : State) : Host.Outcome State Fault Refusal :=
  .next <|
    if (s.lane l).phase = .sendingCancel then
      let d := s.turnDoor l
      let q := s.lane l
      (s.setDoor d { s.door d with cancelPending := false }).setLane l
        { q with phase := .polling, sent := q.sent ++ [cancelFrame q.position, pollFrame q.position] }
    else s

/-- POLL_UNANSWERED (R163). -/
def execPollUnanswered (l : LaneNo) (s : State) : Host.Outcome State Fault Refusal :=
  .next (if (s.lane l).phase = .polling then s.missPoll l else s)

/-- PRESENT_EXIT (R144). -/
def execPresentExit (d : DoorId) (c : Credential) (s : State) : Host.Outcome State Fault Refusal :=
  .next (s.answerPresent d c fun s => s.takeExit d c)

/-- PRESENT_CHECKIN (R123). -/
def execPresentCheckin (d : DoorId) (c : Credential) (s : State) : Host.Outcome State Fault Refusal :=
  .next (s.answerPresent d c fun s => s.takeCheckIn d c)

/-- PASSAGE (R142). -/
def execPassage (d : DoorId) (s : State) : Host.Outcome State Fault Refusal :=
  .next (s.answerPoll d fun s => s.takePassage d)

/-- NOTHING (R134): only the presence moves. -/
def execNothing (d : DoorId) (s : State) : Host.Outcome State Fault Refusal := .next (s.answerPoll d id)

/-- LANE_BREAK_END (R165): polling resumes, at address 0. -/
def execLaneBreakEnd (l : LaneNo) (s : State) : Host.Outcome State Fault Refusal :=
  .next (if (s.lane l).phase = .breaking then s.setLane l { s.lane l with phase := .between } else s)

end Sys2Proof.Machine
end

