-- ==== Sys2Proof/Machine/PermitCommands.lean ====
section
/-! DEFINITION. The permit commands (chapter 8). -/

namespace Sys2Proof.Machine

/-- What ISSUE PERMIT does with its arguments (R120). -/
def issuePermit (p : Authority) (a : IssuePermitArgs) (s : State) : State × Answer :=
  match workOrder? a.workOrder, role? a.role with
  | some w, some role =>
    if a.credential = 0 ∨ (role = .escort ∧ w.val ≠ 0) ∨ (role ≠ .escort ∧ w.val = 0) then refuse .badArgument s
    else
      match s.workOrder w with
      | none => refuse .notPermitted s
      | some r =>
        if (w.val = 0 ∧ p ≠ .sec) ∨ (w.val ≠ 0 ∧ r.issuer ≠ p) then refuse .notPermitted s
        else if r.isClosing then refuse .closing s
        else
          match s.permitOf a.credential with
          | some n =>
            let known : Bool := (match s.permit n with
              | some q => decide (p = .sec) || decide (s.issuer q.workOrder = p)
              | none => false)
            (s, .refused .duplicateCredential (optional (fun m : PermitNo => num1 m.val) (if known then some n else none)))
          | none =>
            match lowest Option.isNone s.permits with
            | none => refuse .permitTableFull s
            | some n =>
              (s.setPermit n (some ⟨a.credential, w, role, false, .idle⟩),
                .accepted (num1 n.val ++ num1 role.weight))
  | _, _ => refuse .badArgument s

/-- ISSUE PERMIT (R120). -/
def execIssuePermit (p : Authority) (a : Payload IssuePermitArgs) (s : State) : Host.Outcome State Fault Refusal :=
  runCommand p 20 a IssuePermitArgs.encode (issuePermit p) s

/-- The effect of an accepted REVOKE (R127, R128): an Idle permit is freed, its pairing abandoned first; a Pending
or Inside one is marked. PERMIT_RELEASED is not queued when the issuer sent the command (R130). -/
def State.revokePermit (s : State) (p : Authority) (n : PermitNo) (r : Permit) : State :=
  if r.state.counted then s.setPermit n (some { r with revoked := true })
  else
    let s1 := s.abandonHolding n
    if s.issuer r.workOrder = p then s1.setPermit n none else s1.freePermit n .revoked

/-- What REVOKE does with its argument (R127). -/
def revoke (p : Authority) (a : NumberArgs) (s : State) : State × Answer :=
  let n := permitNo a.number
  match s.permit n with
  | none => refuse .notPermitted s
  | some r =>
    if p ≠ .sec ∧ s.issuer r.workOrder ≠ p then refuse .notPermitted s
    else
      (s.revokePermit p n r,
        .accepted (num1 n.val ++ [permitStateValue r.state] ++ num1 (if r.state.counted then 1 else 0)))

/-- REVOKE (R127). -/
def execRevoke (p : Authority) (a : Payload NumberArgs) (s : State) : Host.Outcome State Fault Refusal :=
  runCommand p 21 a NumberArgs.encode (revoke p) s

/-- The room of a permit, present while Pending or Inside (R118). -/
def PermitState.room : PermitState → Option Designator
  | .idle => none
  | .pending room _ _ => some room
  | .inside stay => some stay.room

/-- The door of a permit, present while Pending (R118). -/
def PermitState.door : PermitState → Option DoorId
  | .pending _ d _ => some d
  | .idle | .inside _ => none

/-- The stay of a permit, present while Inside (R118). -/
def PermitState.stay : PermitState → Option Stay
  | .inside stay => some stay
  | .idle | .pending .. => none

/-- The remote-supervised flag of a permit (R118). -/
def PermitState.remote : PermitState → Bool
  | .idle => false
  | .pending _ _ remote => remote
  | .inside stay => stay.remote

/-- The results of READ PERMIT for a record in use (R131). The seconds to a deadline that is reached and whose event
is still to be taken read as 0: DESIGN CHOICE (assumption 42). -/
def permitResults (s : State) (n : PermitNo) (r : Permit) : List Byte :=
  let stay := r.state.stay
  let slot := s.slotHolding n
  bytes32 r.credential ++ num1 r.workOrder.val ++ [roleValue r.role, permitStateValue r.state] ++
    optional designatorBytes r.state.room ++ optional doorBytes r.state.door ++
    optional (fun t => num4 (t - s.count)) (stay.bind Stay.stayDeadline) ++
    optional (fun t => num2 (t - s.count)) (stay.bind Stay.checkInDeadline) ++
    flagByte r.revoked ++ flagByte ((stay.map Stay.overdue).getD false) ++
    flagByte ((stay.map Stay.overstay).getD false) ++ flagByte r.state.remote ++ num1 r.role.weight ++
    [match s.workOrder r.workOrder with | some w => workOrderStateValue w.state | none => 0] ++
    optional (fun k : SlotNo => num1 k.val) slot ++
    optional doorBytes ((slot.bind s.slot).map Slot.door)

/-- What READ PERMIT does with its argument (R131). -/
def readPermit (p : Authority) (a : NumberArgs) (s : State) : State × Answer :=
  let n := permitNo a.number
  match s.permit n with
  | none => if p = .sec then (s, .accepted (flagByte false)) else refuse .notPermitted s
  | some r =>
    if p = .sec ∨ s.issuer r.workOrder = p then (s, .accepted (flagByte true ++ permitResults s n r))
    else refuse .notPermitted s

/-- READ PERMIT (R131). -/
def execReadPermit (p : Authority) (a : Payload NumberArgs) (s : State) : Host.Outcome State Fault Refusal :=
  runCommand p 22 a NumberArgs.encode (readPermit p) s

end Sys2Proof.Machine
end

