-- ==== Sys2Proof/Machine/PortEvents.lean ====
section
/-! DEFINITION. A port's receiver and transmitter, and the events of its lines that take no command (R167, R169, R176,
R178). -/

namespace Sys2Proof.Machine

/-- Judge a complete frame of good length (R167): a good check and kind 1 put the command into the receive frame
buffer; any other frame, and one that began while the buffer still held a command (R169), is discarded. -/
def Port.completeFrame (q : Port) (bytes : List Byte) (lost : Bool) : Port :=
  let body := bytes.drop 1
  let checked := body.take (body.length - 2)
  let q1 := { q with receiver := .hunting }
  match checked, body.drop (body.length - 2) with
  | _ :: _ :: kind :: code :: payload, [c1, c0] =>
    if frameCheck checked = word16 c1 c0 ∧ kind = 1 ∧ !lost ∧ q.buffer = none then
      { q1 with buffer := some ⟨code, payload⟩ }
    else q1
  | _, _ => q1

/-- One byte at the receiver (R167): hunting for the start marker, then the length, then the stated number of bytes
and the two check bytes. -/
def Port.receive (q : Port) (b : Byte) : Port :=
  match q.receiver with
  | .hunting => if b = 126 then { q with receiver := .receiving [b] q.buffer.isSome } else q
  | .receiving bytes lost =>
    let bytes' := bytes ++ [b]
    match bytes' with
    | _ :: hi :: lo :: rest =>
      let length := (word16 hi lo).toNat
      if length < 2 ∨ 2048 < length then { q with receiver := .hunting }
      else if rest.length = length + 2 then q.completeFrame bytes' lost
      else { q with receiver := .receiving bytes' lost }
    | _ => { q with receiver := .receiving bytes' lost }

/-- The receiver discards what it has read and hunts for a start marker (R167, R178). -/
def Port.hunt (q : Port) : Port := { q with receiver := .hunting }

/-- FRAME_GAP_TIMEOUT (R167): the partial frame is discarded. -/
def execFrameGapTimeout (p : Authority) (s : State) : Host.Outcome State Fault Refusal :=
  .next (s.setPort p (s.port p).hunt)

/-- FRAMING_ERROR (R178): the partial frame is discarded, as for a bad frame. -/
def execFramingError (p : Authority) (s : State) : Host.Outcome State Fault Refusal :=
  .next (s.setPort p (s.port p).hunt)

/-- BAD_LENGTH (R167): a length below 2 or above 2048 sends the receiver back to hunting; a good length is no bad
length, and nothing happens. -/
def execBadLength (p : Authority) (length : Word16) (s : State) : Host.Outcome State Fault Refusal :=
  .next (if length.toNat < 2 ∨ 2048 < length.toNat then s.setPort p (s.port p).hunt else s)

/-- PORT_BREAK (R178): the partial frame is discarded, the notice queue emptied and the dropped flag cleared; the
command held, the reply and the frame being sent are kept. -/
def execPortBreak (p : Authority) (s : State) : Host.Outcome State Fault Refusal :=
  .next (s.setPort p { (s.port p).hunt with queue := [], dropped := false })

/-- READY_LINE_ASSERTED (R176): an idle transmitter begins the oldest notice. -/
def execReadyLineAsserted (p : Authority) (s : State) : Host.Outcome State Fault Refusal :=
  .next (s.setPort p ({ s.port p with ready := true } : Port).choose)

/-- The transmitter finishes its frame and chooses the next with the ready line as sampled (R176). At an idle
transmitter no frame finishes (assumption 5). -/
def State.finishFrame (s : State) (p : Authority) (ready : Bool) : Option State :=
  match (s.port p).transmitter with
  | none => none
  | some _ => some (s.setPort p ({ s.port p with ready := ready, transmitter := none } : Port).choose)

/-- The command frame that a port takes from its receive frame buffer: the one held, when no reply of the port waits to
be sent (R169). -/
def State.frameToTake (s : State) (p : Authority) : Option CommandFrame :=
  match (s.port p).buffer, (s.port p).reply with
  | some f, none => some f
  | _, _ => none

end Sys2Proof.Machine
end

