-- ==== Sys2Proof/Machine/Purge.lean ====
section
/-! DEFINITION. PURGE (section 4.5): its forms, whom it is permitted, and the entries it removes. -/

namespace Sys2Proof.Machine

/-- The three forms of PURGE (R70). -/
inductive PurgeForm where
  | all
  | space (n : SpaceNo)
  | site (n : SiteNo)
  deriving DecidableEq, Repr

/-- The form and argument of PURGE within their ranges (R70). -/
def purgeForm? (a : PurgeArgs) : Option PurgeForm :=
  if a.form = 0 then some .all
  else if a.form = 1 then (space? a.argument).map .space
  else if a.form = 2 then (site? a.argument).map .site
  else none

/-- Whether a form of PURGE removes an entry (R71). -/
def PurgeForm.removes (f : PurgeForm) (e : CacheEntry) : Bool :=
  match f with
  | .all => true
  | .space n => e.space = n
  | .site n => e.summary.covers.site = n

/-- Whether a PURGE covers a resolution request in a space for a room (R72). -/
def PurgeForm.coversRequest (f : PurgeForm) (n : SpaceNo) (r : Designator) : Bool :=
  match f with
  | .all => true
  | .space m => m = n
  | .site m => m = r.site

/-- Whether an authority may send a form of PURGE (R70). -/
def State.mayPurge (s : State) (p : Authority) (f : PurgeForm) : Bool :=
  match p, f with
  | .sec, _ => true
  | _, .space n => (s.space n).owner = some p
  | _, _ => false

/-- What PURGE does with its arguments (R70, R71). The reply echoes the argument byte received in every form. Form All
has no argument (R70), and what its reply carries there is DESIGN CHOICE (assumption 37). -/
def purge (p : Authority) (a : PurgeArgs) (s : State) : State × Answer :=
  match purgeForm? a with
  | none => refuse .badArgument s
  | some f =>
    if !s.mayPurge p f then refuse .notPermitted s
    else
      ({ s with cache := s.cache.filter fun e => !f.removes e },
        .accepted ([a.form, a.argument] ++ num1 (s.cache.countP fun e => f.removes e)))

/-- PURGE (R70, R71). -/
def execPurge (p : Authority) (a : Payload PurgeArgs) (s : State) : Host.Outcome State Fault Refusal :=
  runCommand p 9 a PurgeArgs.encode (purge p) s

end Sys2Proof.Machine
end

