-- ==== Sys2Proof/Machine/RoomCommands.lean ====
section
/-! DEFINITION. FORCE EXIT (R98) and READ ROOM (R99). -/

namespace Sys2Proof.Machine

/-- A door in Passage Open for an Exit that holds the permit ceases to hold it (R98). -/
def dropExitHold (n : PermitNo) (s : State) (d : DoorId) : State :=
  let x := s.door d
  match x.admission with
  | .openExit (some m) t => if m = n then s.setDoor d { x with admission := .openExit none t } else s
  | _ => s

/-- The effects of an accepted FORCE EXIT (R98): EXITED with the forced mark, the exit, and the doors let go. -/
def State.forceExitOf (s : State) (n : PermitNo) (p : Permit) (room : Designator) : State :=
  let s1 := allDoors.foldl (dropExitHold n) s
  (s1.notifyBoth (s.issuer p.workOrder) (.exited true n p.credential room none)).exitPermit n

/-- What FORCE EXIT does with its argument (R98). -/
def forceExit (p : Authority) (a : NumberArgs) (s : State) : State × Answer :=
  if p ≠ .sec then refuse .notPermitted s
  else
    let n := permitNo a.number
    match s.permit n with
    | none => refuse .notInside s
    | some r =>
      match r.state with
      | .inside stay =>
        let s1 := s.forceExitOf n r stay.room
        (s1, .accepted (num1 n.val ++ designatorBytes stay.room ++ num1 (s1.loadOf stay.room)))
      | .idle | .pending .. => refuse .notInside s

/-- FORCE EXIT (R98). -/
def execForceExit (p : Authority) (a : Payload NumberArgs) (s : State) : Host.Outcome State Fault Refusal :=
  runCommand p 13 a NumberArgs.encode (forceExit p) s

/-- One permit of a room's lists in READ ROOM (R99): number, role, weight, work order, and the credential for
Security and for the issuer of its work order. -/
def memberBytes (p : Authority) (s : State) (n : PermitNo) : List Byte :=
  match s.permit n with
  | none => num1 n.val ++ [0] ++ num1 0 ++ num1 0 ++ [0]
  | some r =>
    num1 n.val ++ [roleValue r.role] ++ num1 r.role.weight ++ num1 r.workOrder.val ++
      optional bytes32 (if p = .sec ∨ s.issuer r.workOrder = p then some r.credential else none)

/-- The record of a room with its number, if it has one. -/
def State.numberedRecordOf (s : State) (room : Designator) : Option (RecordNo × OccupancyRecord) :=
  match s.recordOf room with
  | none => none
  | some k => (s.record k).map fun o => (k, o)

/-- The results of READ ROOM (R99). -/
def roomResults (p : Authority) (s : State) (room : Designator) : List Byte :=
  let site := s.site room.site
  let r := s.numberedRecordOf room
  let o := r.map Prod.snd
  [postureValue s.posture] ++ num1 site.extra ++ num1 site.forced ++
    optional (fun x => num1 x.1.val) r ++
    num1 (match o with | some o => o.load | none => 0) ++
    optional (fun o => num1 (OccupancyRecord.guaranteed o)) o ++
    optional (fun o => num1 (OccupancyRecord.ceiling o)) o ++
    optional (fun o : OccupancyRecord => num1 (s.allowanceAt room o.guaranteed o.ceiling)) o ++
    optional (fun o => flagByte (OccupancyRecord.overAllowance o)) o ++
    counted (memberBytes p s) (match o with | some o => o.inside | none => []) ++
    counted (memberBytes p s) (match o with | some o => o.pending | none => [])

/-- What READ ROOM does with its argument (R99). -/
def readRoom (p : Authority) (a : DesignatorArgs) (s : State) : State × Answer :=
  match designator? a with
  | none => refuse .badArgument s
  | some room => (s, .accepted (roomResults p s room))

/-- READ ROOM (R99). -/
def execReadRoom (p : Authority) (a : Payload DesignatorArgs) (s : State) : Host.Outcome State Fault Refusal :=
  runCommand p 14 a DesignatorArgs.encode (readRoom p) s

end Sys2Proof.Machine
end

