-- ==== Sys2Proof/Machine/SpaceCommands.lean ====
section
/-! DEFINITION. The space commands (chapter 2). -/

namespace Sys2Proof.Machine

/-- The kind of top table that a scope calls for (R22, R24). -/
def Scope.kind : Scope → Kind
  | .estate => .estate
  | .site _ => .site
  | .zone _ _ => .zone

/-- The lowest block of a descriptor's range that fails the readiness check (R24), if any. -/
def State.unreadyBlock (s : State) (d : Descriptor) : Option Nat :=
  match d.topOrigin with
  | none => none
  | some o =>
    (List.range' o.val d.topLength).find? fun b => (s.blockAt b).owner ≠ some (d.authority, d.scope.kind)

/-- What DEFINE SPACE does with its arguments (R25). -/
def defineSpace (p : Authority) (a : DescriptorArgs) (s : State) : State × Answer :=
  match descriptor? p a with
  | none => refuse .badArgument s
  | some d =>
    if d.topOrigin = none then refuse .badArgument s
    else if p = .sec then refuse .notPermitted s
    else
      match s.unreadyBlock d with
      | some b => (s, .refused .tableNotReady (num2 b))
      | none =>
        match lowestFrom 2 (fun r => !SpaceRecord.inUse r) s.spaces with
        | none => refuse .spaceTableFull s
        | some n =>
          let g := (s.space n).generation + 1
          (s.setSpace n ⟨some d, none, g, 0⟩, .accepted (num1 n.val ++ [g]))

/-- DEFINE SPACE (R25). -/
def execDefineSpace (p : Authority) (a : Payload DescriptorArgs) (s : State) : Host.Outcome State Fault Refusal :=
  runCommand p 4 a DescriptorArgs.encode (defineSpace p) s

/-- The descriptors that space 0, space 1 and a general space may stage (R23, R27 step 1). -/
def stageable (n : SpaceNo) (d : Descriptor) : Bool :=
  if n.val = 0 then d.scope = .estate && d.isPrivate
  else if n.val = 1 then d.scope = .estate
  else d.topOrigin.isSome

/-- What STAGE SPACE does with its arguments (R27, R28). -/
def stageSpace (p : Authority) (a : StageSpaceArgs) (s : State) : State × Answer :=
  match space? a.space, descriptor? p a.descriptor with
  | some n, some d =>
    if !stageable n d then refuse .badArgument s
    else if (s.space n).owner ≠ some p then refuse .notPermitted s
    else if (s.space n).go then refuse .stagePending s
    else
      match s.unreadyBlock d with
      | some b => (s, .refused .tableNotReady (num2 b))
      | none =>
        let r := s.space n
        let s1 := s.setSpace n { r with waiting := some ⟨d, s.count + 120⟩ }
        if r.drain = 0 then
          (s1.applySwitch n .immediate 0, .accepted (num1 n.val ++ [0] ++ [r.generation + 1]))
        else (s1, .accepted (num1 n.val ++ [1] ++ [r.generation]))
  | _, _ => refuse .badArgument s

/-- STAGE SPACE (R27, R28). -/
def execStageSpace (p : Authority) (a : Payload StageSpaceArgs) (s : State) : Host.Outcome State Fault Refusal :=
  runCommand p 5 a StageSpaceArgs.encode (stageSpace p) s

/-- What CANCEL STAGE does with its argument (R33). -/
def cancelStage (p : Authority) (a : NumberArgs) (s : State) : State × Answer :=
  match space? a.number with
  | none => refuse .badArgument s
  | some n =>
    if (s.space n).owner ≠ some p then refuse .notPermitted s
    else if !(s.space n).go then refuse .notStaged s
    else (s.setSpace n { s.space n with waiting := none }, .accepted [])

/-- CANCEL STAGE (R33). -/
def execCancelStage (p : Authority) (a : Payload NumberArgs) (s : State) : Host.Outcome State Fault Refusal :=
  runCommand p 6 a NumberArgs.encode (cancelStage p) s

/-- The lowest work order that names a space in an option (R35), if any. -/
def State.workOrderNaming (s : State) (n : SpaceNo) : Option WorkOrderNo :=
  lowest (fun w => match w with | some r => r.options.any fun o => o.space = n | none => false) s.workOrders

/-- What RETIRE SPACE does with its argument (R35). -/
def retireSpace (p : Authority) (a : NumberArgs) (s : State) : State × Answer :=
  match space? a.number with
  | none => refuse .badArgument s
  | some n =>
    if n.val ≤ 1 ∨ (s.space n).owner ≠ some p then refuse .notPermitted s
    else if (s.space n).go then refuse .stagePending s
    else
      match s.workOrderNaming n with
      | some w => (s, .refused .inUse (num1 w.val))
      | none => (s.setSpace n { s.space n with current := none }, .accepted (num1 n.val))

/-- RETIRE SPACE (R35). -/
def execRetireSpace (p : Authority) (a : Payload NumberArgs) (s : State) : Host.Outcome State Fault Refusal :=
  runCommand p 7 a NumberArgs.encode (retireSpace p) s

/-- The results of READ SPACE (R36). The seconds left to the switch deadline are 1..120: while the count stands at a
deadline whose SWITCH_DEADLINE is still to be taken they read as 1 (assumption 42). -/
def spaceResults (count : Nat) (r : SpaceRecord) : List Byte :=
  match r.current with
  | none => flagByte false ++ [r.generation]
  | some d =>
    flagByte true ++ descriptorBytes d ++ [r.generation] ++ flagByte r.go ++
      optional (fun w => descriptorBytes (StagedSwitch.descriptor w)) r.waiting ++ num1 r.drain ++
      optional (fun w => num1 (max 1 (StagedSwitch.deadline w - count))) r.waiting

/-- What READ SPACE does with its argument (R36). -/
def readSpace (p : Authority) (a : NumberArgs) (s : State) : State × Answer :=
  match space? a.number with
  | none => refuse .badArgument s
  | some n =>
    if p = .sec ∨ (s.space n).owner = some p then (s, .accepted (spaceResults s.count (s.space n)))
    else refuse .notPermitted s

/-- READ SPACE (R36). -/
def execReadSpace (p : Authority) (a : Payload NumberArgs) (s : State) : Host.Outcome State Fault Refusal :=
  runCommand p 8 a NumberArgs.encode (readSpace p) s

end Sys2Proof.Machine
end

