-- ==== Sys2Proof/Machine/Meetings.lean ====
section
/-! DEFINITION. The commands and events that are taken while a decision waits for its resolution requests: what each
does is its own row's meaning, up to the first request of a row that makes one (R26, R38, R46, R72, R73, R134), and
which are taken before the decision or after it (R77, R112, R134). -/

namespace Sys2Proof.Machine

/-! ### What a row does while a decision waits -/

/-- What a command does to the device while its port carries it out, and its answer (R169), for the commands that make
no request. SET CLOCK and ACTIVATE may make requests (R39); events are no commands of a port. -/
def plainCommand : Instr → Option (State → State × Answer)
  | .writeBlock p a => some (judgePayload a (writeBlock p))
  | .freeBlocks p a => some (judgePayload a (freeBlocks p))
  | .readBlock _ a => some (judgePayload a readBlock)
  | .defineSpace p a => some (judgePayload a (defineSpace p))
  | .stageSpace p a => some (judgePayload a (stageSpace p))
  | .cancelStage p a => some (judgePayload a (cancelStage p))
  | .retireSpace p a => some (judgePayload a (retireSpace p))
  | .readSpace p a => some (judgePayload a (readSpace p))
  | .purge p a => some (judgePayload a (purge p))
  | .setPosture p a => some (judgePayload a (setPosture p))
  | .setSiteAllowance p a => some (judgePayload a (setSiteAllowance p))
  | .forceExit p a => some (judgePayload a (forceExit p))
  | .readRoom p a => some (judgePayload a (readRoom p))
  | .createWorkOrder p a => some (judgePayload a (createWorkOrder p))
  | .endorse p a => some (judgePayload a (endorse p))
  | .withdraw p a => some (judgePayload a (withdraw p))
  | .readWorkOrder p a => some (judgePayload a (readWorkOrder p))
  | .issuePermit p a => some (judgePayload a (issuePermit p))
  | .revoke p a => some (judgePayload a (revoke p))
  | .readPermit p a => some (judgePayload a (readPermit p))
  | .bindDoor p a => some (judgePayload a (bindDoor p))
  | .readDoor p a => some (judgePayload a (readDoor p))
  | .remoteConsent p a => some (judgePayload a (remoteConsent p))
  | .holdLane p a => some (judgePayload a (setHold true Slot.freeze p))
  | .releaseLane p a => some (judgePayload a (setHold false Slot.thaw p))
  | .resetLane p a => some (judgePayload a (resetLane p))
  | .setTimings p a => some (judgePayload a (setTimings p))
  | .readStatus p a => some (judgePayload a (readStatus p))
  | .estateClear p a => some (judgePayload a (estateClear p))
  | .unknownCommand .. => some (refuse .unknownCommand)
  | .setClock _ (.malformed _) | .activate _ (.malformed _) => some (refuse .badArgument)
  | .setClock _ (.fields _) | .activate _ (.fields _) => none
  | .powerOn | .commandFrameReceived .. | .frameGapTimeout _ | .portBreak _ | .readyLineAsserted _
  | .frameFinished .. | .secondTick | .passageDeadline _ | .stepDeadline _ | .consentDeadline _
  | .checkinDeadline _ | .stayDeadline _ | .selectionDeadline _ | .switchDeadline _ | .pollTurn _
  | .verdictSent _ | .cancelSent _ | .pollUnanswered _ | .presentEnter .. | .presentExit ..
  | .presentCheckin .. | .passage _ | .nothing _ | .laneBreakEnd _ | .framingError _ | .badLength .. => none

/-- The state that a meaning answers with. -/
def stateAfter : Host.Outcome State Fault Refusal → Option State
  | .next t => some t
  | .fault _ | .refused _ => none

/-- A port takes a command, up to the first request of one that makes any (R169). -/
def State.beginCommand (s : State) (p : Authority) (code : Byte) : Instr → State
  | .setClock _ (.fields a) => s.beginSetClock p a
  | .activate _ (.fields a) => s.beginActivate p a
  | i => carryOut p code ((plainCommand i).getD (refuse .unknownCommand)) s

/-- FRAME_FINISHED, up to the first request of the command taken behind the reply, if it makes any (R169, R176). -/
def State.beginFrameFinished (s : State) (p : Authority) (ready : Bool) : State :=
  match s.finishFrame p ready with
  | none => s
  | some t =>
    match t.frameToTake p with
    | none => t
    | some f => t.beginCommand p f.code (decodeCommand p f.code f.payload)

/-- What a row of the table does while a decision waits for its requests: what it always does, by its own meaning. A
row that makes requests does it up to the first of them, which waits for the resolver (R38). POWER_ON, which leaves
nothing of a decision, and COMMAND_FRAME_RECEIVED, whose command is a row of its own, are taken before the decision or
after it. A command stands here for one that its port takes (`Decision.leavesFree`). -/
def rowEffect (i : Instr) (s : State) : Option State :=
  match i with
  | .writeBlock p a => stateAfter (execWriteBlock p a s)
  | .freeBlocks p a => stateAfter (execFreeBlocks p a s)
  | .readBlock p a => stateAfter (execReadBlock p a s)
  | .defineSpace p a => stateAfter (execDefineSpace p a s)
  | .stageSpace p a => stateAfter (execStageSpace p a s)
  | .cancelStage p a => stateAfter (execCancelStage p a s)
  | .retireSpace p a => stateAfter (execRetireSpace p a s)
  | .readSpace p a => stateAfter (execReadSpace p a s)
  | .purge p a => stateAfter (execPurge p a s)
  | .setPosture p a => stateAfter (execSetPosture p a s)
  | .setSiteAllowance p a => stateAfter (execSetSiteAllowance p a s)
  | .forceExit p a => stateAfter (execForceExit p a s)
  | .readRoom p a => stateAfter (execReadRoom p a s)
  | .createWorkOrder p a => stateAfter (execCreateWorkOrder p a s)
  | .endorse p a => stateAfter (execEndorse p a s)
  | .withdraw p a => stateAfter (execWithdraw p a s)
  | .readWorkOrder p a => stateAfter (execReadWorkOrder p a s)
  | .issuePermit p a => stateAfter (execIssuePermit p a s)
  | .revoke p a => stateAfter (execRevoke p a s)
  | .readPermit p a => stateAfter (execReadPermit p a s)
  | .bindDoor p a => stateAfter (execBindDoor p a s)
  | .readDoor p a => stateAfter (execReadDoor p a s)
  | .remoteConsent p a => stateAfter (execRemoteConsent p a s)
  | .holdLane p a => stateAfter (execHoldLane p a s)
  | .releaseLane p a => stateAfter (execReleaseLane p a s)
  | .resetLane p a => stateAfter (execResetLane p a s)
  | .setTimings p a => stateAfter (execSetTimings p a s)
  | .readStatus p a => stateAfter (execReadStatus p a s)
  | .estateClear p a => stateAfter (execEstateClear p a s)
  | .unknownCommand p code bytes => stateAfter (execUnknownCommand p code bytes s)
  | .frameGapTimeout p => stateAfter (execFrameGapTimeout p s)
  | .portBreak p => stateAfter (execPortBreak p s)
  | .readyLineAsserted p => stateAfter (execReadyLineAsserted p s)
  | .frameFinished p ready => some (s.beginFrameFinished p ready)
  | .secondTick => some s.beginTick
  | .selectionDeadline n => some (s.beginDeadline n)
  | .setClock p a => some (s.beginCommand p 10 (.setClock p a))
  | .activate p a => some (s.beginCommand p 17 (.activate p a))
  | .passageDeadline d => stateAfter (execPassageDeadline d s)
  | .stepDeadline k => stateAfter (execStepDeadline k s)
  | .consentDeadline k => stateAfter (execConsentDeadline k s)
  | .checkinDeadline n => stateAfter (execCheckinDeadline n s)
  | .stayDeadline n => stateAfter (execStayDeadline n s)
  | .switchDeadline n => stateAfter (execSwitchDeadline n s)
  | .pollTurn l => stateAfter (execPollTurn l s)
  | .verdictSent l => stateAfter (execVerdictSent l s)
  | .cancelSent l => stateAfter (execCancelSent l s)
  | .pollUnanswered l => stateAfter (execPollUnanswered l s)
  | .presentEnter d c => some (s.answerPresent d c fun u => u.beginEnter d c)
  | .presentExit d c => stateAfter (execPresentExit d c s)
  | .presentCheckin d c => stateAfter (execPresentCheckin d c s)
  | .passage d => stateAfter (execPassage d s)
  | .nothing d => stateAfter (execNothing d s)
  | .laneBreakEnd l => stateAfter (execLaneBreakEnd l s)
  | .framingError p => stateAfter (execFramingError p s)
  | .badLength p length => stateAfter (execBadLength p length s)
  | .powerOn | .commandFrameReceived .. => none

/-! ### The decision that waits -/

/-- Two states agree on a door, its lane's hold flag and its slot. -/
def State.sameDoor (s t : State) (d : DoorId) : Bool :=
  decide (t.door d = s.door d) && decide ((t.lane d.lane).held = (s.lane d.lane).held) &&
    decide (t.slotOf d = s.slotOf d) && decide ((t.slotOf d).bind t.slot = (s.slotOf d).bind s.slot)

/-- Two states agree on what a decision is about that judges a room: the posture and the allowances of the room's site,
and the decision's door, the record of the room it writes, its permits, and its work orders. -/
def Decision.keeps (x : Decision) (r : Designator) (s t : State) : Bool :=
  decide (t.posture = s.posture) && decide (t.site r.site = s.site r.site) &&
    x.door.all (s.sameDoor t) && x.room.all (fun q => decide (t.numberedRecordOf q = s.numberedRecordOf q)) &&
    x.permits.all (fun n => decide (t.permit n = s.permit n)) &&
    x.workOrders.all fun n => decide (t.workOrder n = s.workOrder n)

/-- The port whose lines an event concerns. -/
def lineOf : Instr → Option Authority
  | .commandFrameReceived p _ | .frameGapTimeout p | .portBreak p | .readyLineAsserted p | .frameFinished p _
  | .framingError p | .badLength p _ => some p
  | _ => none

/-- A port takes a command now: it holds none, and no reply of it waits (R169). -/
def State.portFree (s : State) (p : Authority) : Bool :=
  decide ((s.port p).buffer = none) && decide ((s.port p).reply = none)

/-- The row may be taken at its port: a command where the port takes one now; and no command and no event of the lines
of the port whose command makes the decision, for that command is carried out whole (R169). -/
def Decision.leavesFree (x : Decision) (s : State) (i : Instr) : Bool :=
  (encodeCommand i).all (fun c => s.portFree c.1 && decide (x.port ≠ some c.1)) &&
    (lineOf i).all fun p => decide (x.port ≠ some p)

/-- The work orders that a decision is about, and those behind them whose turn in the same row is still to come (R77,
R112). -/
def Decision.orders (x : Decision) : List WorkOrderNo := x.workOrders ++ x.later

/-- Two decisions are about different doors, rooms, permits and work orders. -/
def Decision.apart (x y : Decision) : Bool :=
  (x.door.isNone || decide (x.door ≠ y.door)) && (x.room.isNone || decide (x.room ≠ y.room)) &&
    x.permits.all (fun n => !y.permits.contains n) && x.orders.all fun n => !y.orders.contains n

/-! ### Commands and events for a work order (R77, R112, section 7.3) -/

/-- The command that a row of the table has its port take; an event is its own. -/
def State.commandTaken (s : State) (i : Instr) : Option Instr :=
  match i with
  | .frameFinished p ready =>
    (((s.finishFrame p ready).bind fun t => t.frameToTake p).map fun f => decodeCommand p f.code f.payload)
  | i => some i

/-- Whether a row has a port take a SET CLOCK that is accepted (R76). -/
def State.clockSetBy (s : State) (i : Instr) : Bool :=
  match s.commandTaken i with
  | some (.setClock p (.fields a)) => (setClockOf p a).toBool
  | _ => false

/-- Whether a row enters a minute by advance (R75). -/
def State.minuteBy (s : State) (i : Instr) : Bool :=
  match i, advance s.clock with
  | .secondTick, .minute _ | .secondTick, .day _ => true
  | _, _ => false

/-- The work order that a row names: a command in its arguments, or a selection deadline. -/
def State.orderNamedBy (s : State) (i : Instr) : Option WorkOrderNo :=
  match s.commandTaken i with
  | some (.activate _ (.fields a)) | some (.withdraw _ (.fields a)) | some (.readWorkOrder _ (.fields a)) =>
    workOrder? a.number
  | some (.endorse _ (.fields a)) => workOrder? a.workOrder
  | some (.issuePermit _ (.fields a)) => workOrder? a.workOrder
  | some (.selectionDeadline n) => some n
  | _ => none

/-- The entry of a minute by advance is no event for the work orders of a decision (R112): for a presentation always; and
for a selection where no work order waits for its turn in the same row, and the one selected is not Active, so that it
does not lapse. One that is Lapsed takes a turn of its own at the entry. -/
def Decision.sparedByMinute (x : Decision) (s : State) : Bool :=
  x.door.isSome ||
    (x.later.isEmpty && x.workOrders.all fun n => (s.workOrder n).all fun w => decide (w.state ≠ .active))

/-- The permits that a report of a door is for: those that the admission at the door holds, and for a presentation the
one bound to its credential (R134). -/
def State.permitsReported (s : State) : Instr → List PermitNo
  | .presentEnter d c | .presentExit d c | .presentCheckin d c => (s.door d).admission.held ++ (s.permitOf c).toList
  | .passage d => (s.door d).admission.held
  | _ => []

/-- The work orders that a row is for, by its arguments or by the permits that it reports (section 7.3, R134). -/
def State.ordersOf (s : State) (i : Instr) : List WorkOrderNo :=
  (s.orderNamedBy i).toList ++ (s.permitsReported i).filterMap fun n => (s.permit n).map Permit.workOrder

/-- A row is no command and no event for a work order that a decision is about. A SET CLOCK is one for every general work
order: what is selected before it is selected again by it, and what is selected after it reads the new clock (R77). In a
selection so is the entry of a minute (R112), and so is what names its work order or reports a permit of it (section
7.3). The turns still to come in the same row belong to the same action (R77, R112), so what is for one of their work
orders is taken before the row or after it: a presentation behind the setting of the clock reads the new clock and finds
its work order selected by it. -/
def Decision.sparedBy (x : Decision) (s : State) (i : Instr) : Bool :=
  (!s.clockSetBy i || x.workOrders.all fun n => decide (n = 0)) && (!s.minuteBy i || x.sparedByMinute s) &&
    (x.door.isSome || x.orders.all fun n => !(s.ordersOf i).contains n)

/-! ### A request in progress -/

/-- Whether a row has a port take a PURGE that is accepted and covers a request in a space for a room (R72). -/
def State.purgedBy (s : State) (n : SpaceNo) (r : Designator) (i : Instr) : Bool :=
  match s.commandTaken i with
  | some (.purge p (.fields a)) => (purgeForm? a).any fun f => s.mayPurge p f && f.coversRequest n r
  | _ => false

/-- Whether a row has a port take an ESTATE CLEAR that is accepted (R173): it discards the request (R38). -/
def State.clearedBy (s : State) (i : Instr) : Bool :=
  match s.commandTaken i with
  | some (.estateClear p (.fields _)) => decide (p = .sec) && !s.occupancy.toList.any Option.isSome
  | _ => false

/-- A request in progress: the device as the rows taken so far have left it, and whether a PURGE among them covers the
request, so that it makes no fill, and whether an ESTATE CLEAR among them has discarded it (R38, R72, R73). -/
structure Progress where
  state : State
  purged : Bool
  cleared : Bool
  deriving DecidableEq, Repr

/-- The decisions that wait, each with the room of its requests. -/
def State.parties (s : State) : List Party := s.waiting.map fun w => w.errand.party

/-- A row is taken while decisions wait for a request in a space for a room: those of the list and those whose requests
wait behind it. One that would change what one of them is about, or that is a command or an event for its work order, is
taken before the decision or after it, and so is a row whose own decision is about what one of them is about (R77, R134,
section 7.3); then nothing meets the request here. An ESTATE CLEAR discards all of them (R38), and nothing meets what is
discarded. -/
def Progress.take (own : List Party) (n : SpaceNo) (r : Designator) (y : Progress) (i : Instr) : Progress :=
  let parties := own ++ y.state.parties
  if !y.cleared && parties.all (fun x => x.decision.leavesFree y.state i) then
    match rowEffect i y.state with
    | none => y
    | some t =>
      let purged := y.purged || y.state.purgedBy n r i
      let begun := t.parties.drop y.state.waiting.length
      if y.state.clearedBy i then ⟨y.state.waiting.foldl State.discard t, purged, true⟩
      else if parties.all (fun x => x.decision.keeps x.room y.state t && x.decision.sparedBy y.state i &&
          begun.all fun z => x.decision.apart z.decision) then ⟨t, purged, false⟩
      else y
  else y

/-- What meets the next request. -/
def State.meeting (s : State) : Meetings := s.meetings.head?.getD .none

/-- The state in which the next request is served: what meets it is no more to come. -/
def State.served (s : State) : State := { s with meetings := s.meetings.tail }

/-- A request is made: the rows taken before its lookup. They are not in its progress (R72). -/
def State.beginRequest (s : State) (own : List Party) (n : SpaceNo) (r : Designator) (met : Meetings) : Progress :=
  { met.beforeLookup.foldl (Progress.take own n r) ⟨s, false, false⟩ with purged := false }

/-- The rows that meet a request after its lookup are taken in order (R26, R46, R72): the device as the walk's read of
each kind of table finds it, and the request at its end. -/
def Progress.meet (y : Progress) (own : List Party) (n : SpaceNo) (r : Designator) (met : Meetings) :
    (Kind → State) × Progress :=
  let y1 := met.beforeEstate.foldl (Progress.take own n r) y
  let y2 := met.beforeSite.foldl (Progress.take own n r) y1
  let y3 := met.beforeZone.foldl (Progress.take own n r) y2
  let see : Kind → State := fun k => match k with
    | .estate => y1.state
    | .site => y2.state
    | .zone => y3.state
  (see, met.beforeEnd.foldl (Progress.take own n r) y3)

end Sys2Proof.Machine
end

