-- ==== Sys2Proof/Machine/Requests.lean ====
section
/-! DEFINITION. Resolution requests: how one is served, in what order they are (R38), the judgement of the rights to a
room (R138), and what becomes of the requests that still wait when the row in hand has done its own. -/

namespace Sys2Proof.Machine

/-! ### One request -/

/-- The lookup of a request hits an entry (R66). -/
def Progress.touch (y : Progress) (e : CacheEntry) : Progress :=
  { y with state := { y.state with cache := cacheTouch e y.state.cache } }

/-- The outcome of a request is handed to its requester, unless the request was discarded (R38). -/
def Progress.handOver {α : Type} (y : Progress) (outcome : Except DenyCode α) : State × Resolution α :=
  if y.cleared then (y.state, .discarded)
  else (y.state, match outcome with | .ok a => .ok a | .error c => .error c)

/-- The summary of a walk is filled (R67, R68), unless a PURGE that covers the request was taken while it was in
progress (R72), or an ESTATE CLEAR (R73). -/
def Progress.fill (y : Progress) (e : CacheEntry) : Progress :=
  if y.purged || y.cleared then y else { y with state := { y.state with cache := cacheFill e y.state.cache } }

/-- A grant request is served: lookup, walk on a miss, fill on a summary (R38, R66, R67), with what meets it before its
lookup and from there to its end (R26, R46, R72), while the decisions of the list wait. The descriptor and the
generation are those of the lookup (R26, R40). A space with no descriptor grants nothing. -/
def serveGrant (own : List Party) (n : SpaceNo) (r : Designator) (met : Meetings) (s : State) :
    State × Resolution GrantSummary :=
  let b := s.beginRequest own n r met
  let record := b.state.space n
  match record.current with
  | none => (b.meet own n r met).2.handOver (.error .notGranted)
  | some d =>
    match cachePick n record.generation d.isPrivate r b.state.cache with
    | some e =>
      ((b.touch e).meet own n r met).2.handOver
        (match e.summary with | .grant g => .ok g | .overlay _ => .error .notGranted)
    | none =>
      let y := b.meet own n r met
      match grantWalk y.1 d r with
      | .error c => y.2.handOver (.error c)
      | .ok g => (y.2.fill ⟨n, record.generation, .grant g⟩).handOver (.ok g)

/-- An overlay request is served, in space 0 (R38, R54, R66, R67), with what meets it before its lookup and from there
to its end (R26, R46, R72), while the decisions of the list wait. -/
def serveOverlay (own : List Party) (r : Designator) (met : Meetings) (s : State) :
    State × Resolution OverlaySummary :=
  let b := s.beginRequest own 0 r met
  let record := b.state.space 0
  match record.current with
  | none => (b.meet own 0 r met).2.handOver (.ok ⟨⟨r.site, r.zone, none⟩, []⟩)
  | some d =>
    match cachePick 0 record.generation d.isPrivate r b.state.cache with
    | some e =>
      ((b.touch e).meet own 0 r met).2.handOver
        (match e.summary with | .overlay o => .ok o | .grant _ => .error .overlayFault)
    | none =>
      let y := b.meet own 0 r met
      match overlayWalk y.1 d r with
      | .error c => y.2.handOver (.error c)
      | .ok o => (y.2.fill ⟨0, record.generation, .overlay o⟩).handOver (.ok o)

/-! ### The requests that wait (R38) -/

/-- A waiting decision ends with the judgement of its rights, or goes on to its next request. It leaves the decisions of
the list as they are, or else comes behind them (R134). -/
def State.conclude (s : State) (own : List Party) (e : Errand) (rights : Resolution (GrantSummary × OverlaySummary)) :
    State :=
  let t := s.resume rights e
  if own.all fun x => x.decision.keeps x.room s t then t else s.wait e (.turn rights)

/-- The decision at the front of the line is served: its grant request, or its overlay request, or its end. The answer
is yes where an ESTATE CLEAR has discarded it, and with it all that waits (R38). While it is served the decisions of
`own` wait; where it ends it leaves those of `kept` as they are. -/
def State.serveFront (own kept : List Party) (met : Meetings) (s : State) : State × Bool :=
  match s.waiting with
  | [] => (s, false)
  | w :: rest =>
    let e := w.errand
    let x := e.party
    let s0 := { s with waiting := rest }
    match w.asks with
    | .grant =>
      match serveGrant (x :: own) e.space x.room met s0 with
      | (s1, .discarded) => (s1.discard w, true)
      | (s1, .error c) => (s1.conclude kept e (.error c), false)
      | (s1, .ok g) => (s1.wait e (.overlay g), false)
    | .overlay g =>
      match serveOverlay (x :: own) x.room met s0 with
      | (s1, .discarded) => (s1.discard w, true)
      | (s1, .error c) => (s1.conclude kept e (.error c), false)
      | (s1, .ok o) => (s1.conclude kept e (e.judge s1 g o), false)
    | .turn rights => (s0.conclude kept e rights, false)

/-- The decision at the front of the line has a request waiting. -/
def State.frontAsks (s : State) : Bool :=
  match s.waiting.head?.map Waiting.asks with
  | some .grant | some (.overlay _) => true
  | some (.turn _) | none => false

/-- The decisions that wait already when a request is made are served ahead of it, in order, each as far as its next
request (R38). The answer is yes where an ESTATE CLEAR discards them, and the request behind them too. -/
def State.serveAhead (own : List Party) : Nat → State → State × Bool
  | 0, s => (s, false)
  | k + 1, s =>
    match
      if s.frontAsks then s.served.serveFront own own s.meeting else s.serveFront own own .none
    with
    | (t, true) => (t, true)
    | (t, false) => State.serveAhead own k t

/-! ### The requests of the row in hand -/

/-- A decision of the row in hand makes a grant request (R38): those made before it are served first. -/
def resolveGrant (x : Decision) (n : SpaceNo) (r : Designator) (s : State) : State × Resolution GrantSummary :=
  match s.serveAhead [⟨x, r⟩] s.waiting.length with
  | (s1, true) => (s1, .discarded)
  | (s1, false) => serveGrant [⟨x, r⟩] n r s1.meeting s1.served

/-- A decision of the row in hand makes an overlay request (R38): those made before it are served first. -/
def resolveOverlay (x : Decision) (r : Designator) (s : State) : State × Resolution OverlaySummary :=
  match s.serveAhead [⟨x, r⟩] s.waiting.length with
  | (s1, true) => (s1, .discarded)
  | (s1, false) => serveOverlay [⟨x, r⟩] r s1.meeting s1.served

/-- The checks of the rights to a room, made in this order: grant request, overlay request, and the judgement of the two
summaries (R138 steps 5 to 8; R105 steps 4 to 8; R153). A request that is discarded ends them (R38). -/
def checkRights (x : Decision) (n : SpaceNo) (r : Designator) (w : WorkOrder) (optionWindow : Option Window)
    (minute : Nat) (s : State) : State × Resolution (GrantSummary × OverlaySummary) :=
  match resolveGrant x n r s with
  | (s1, .discarded) => (s1, .discarded)
  | (s1, .error c) => (s1, .error c)
  | (s1, .ok g) =>
    match resolveOverlay x r s1 with
    | (s2, .discarded) => (s2, .discarded)
    | (s2, .error c) => (s2, .error c)
    | (s2, .ok o) => (s2, s2.judgeRights n w optionWindow minute g o)

/-! ### The requests that still wait when the row in hand has done its own -/

/-- The decisions that came behind the decision of the row in hand end; those that have a request waiting keep their
order. -/
def State.endTurns (s : State) : State :=
  s.waiting.foldl (fun u w =>
    match w.asks with
    | .turn rights => u.resume rights w.errand
    | .grant | .overlay _ => u.wait w.errand w.asks) { s with waiting := [] }

/-- The port whose command the row in hand has carried out: it takes no other command in the same step (R169, assumption
13). -/
def State.carrier (s : State) (p : Option Authority) : List Party :=
  s.waiting.head?.toList.map fun w => ⟨.carrying p, w.errand.party.room⟩

/-- The line is served while entries are left that say what meets a request: an entry for each. -/
def State.serveMet (p : Option Authority) : List Meetings → State → State
  | [], s => s
  | m :: rest, s =>
    if s.waiting = [] then s
    else State.serveMet p rest (({ s with meetings := rest } : State).serveFront (s.carrier p) [] m).1

/-- The line is served with nothing that meets its requests, at most so many requests. -/
def State.serveRest (p : Option Authority) : Nat → State → State
  | 0, s => s
  | k + 1, s => if s.waiting = [] then s else State.serveRest p k (s.serveFront (s.carrier p) [] .none).1

/-- The most requests that a run of selections makes behind the one in hand: two for each option left, and for each work
order whose turn is to come two for each of its options, seven at most (R100, R105). -/
def Errand.more : Errand → Nat
  | .contractor _ | .escort _ => 0
  | .selection e => 2 * e.left.length + 14 * e.run.later.length

/-- The most requests that a waiting decision still makes, its end counted as one. -/
def Waiting.work (w : Waiting) : Nat :=
  w.errand.more + match w.asks with | .grant => 2 | .overlay _ | .turn _ => 1

/-- The most requests still to be served. -/
def State.work (s : State) : Nat := (s.waiting.map Waiting.work).sum

/-- The row in hand has done its own, and the requests that wait are served in the order in which they were made (R38),
until none waits. -/
def State.settle (p : Option Authority) (s : State) : State :=
  if s.waiting = [] then s
  else
    let s1 := s.endTurns
    let s2 := s1.serveMet p s1.meetings
    s2.serveRest p s2.work

/-- What a row answers that may leave requests waiting: they are served before the step ends. -/
def thenSettle (p : Option Authority) : Host.Outcome State Fault Refusal → Host.Outcome State Fault Refusal
  | .next s => .next (s.settle p)
  | .fault f => .fault f
  | .refused r => .refused r

end Sys2Proof.Machine
end

