-- ==== Sys2Proof/Machine/Selection.lean ====
section
/-! DEFINITION. Option selection by the row in hand (section 7.3), lapse and re-evaluation (R111, R112). -/

namespace Sys2Proof.Machine

/-- Test one option against a selection's reading (R105) and compute its values (R106). -/
def testOption (x : Decision) (now : Reading) (w : WorkOrder) (index : Nat) (o : WorkOption) (s : State) :
    State × Resolution Candidate :=
  match optionAsk now w o with
  | .error c => (s, .error c)
  | .ok (t, home) =>
    let r := checkRights x o.space home w none t.minute s
    (r.1, r.1.optionResult index o home t r.2)

/-- Test options in index order (section 7.3): the result of each. A test that is discarded is the last (R38). -/
def testOptions (x : Decision) (now : Reading) (w : WorkOrder) :
    Nat → List WorkOption → State → State × List (Resolution Candidate)
  | _, [], s => (s, [])
  | index, o :: rest, s =>
    match testOption x now w index o s with
    | (s1, .discarded) => (s1, [.discarded])
    | (s1, result) =>
      let r := testOptions x now w (index + 1) rest s1
      (r.1, result :: r.2)

/-- Run a selection with one reading (R78, R105 to R108). Nothing changes but by its requests. -/
def runSelection (x : Decision) (now : Reading) (w : WorkOrder) (s : State) : State × SelectionResult :=
  let r := testOptions x now w 1 w.options s
  (r.1, if r.2.contains .discarded then .discarded else judgeTests w r.2)

/-- A selection of a work order that no command answers, with what follows from it (R111, R112): at its deadline, at the
entry of a minute, or at SET CLOCK. -/
def State.select (p : Option Authority) (later : List WorkOrderNo) (now : Reading) (s : State) (n : WorkOrderNo)
    (w : WorkOrder) : State :=
  let r := runSelection (.selection p n later) now w s
  r.1.applyResult now n w r.2

/-- The turns of work orders at the entry of a minute, with the reading taken at the entry (R77, R112). -/
def State.runTurns (p : Option Authority) (now : Reading) : List WorkOrderNo → State → State
  | [], s => s
  | n :: rest, s =>
    State.runTurns p now rest
      (match s.turnOf p.isSome n with
      | none => s
      | some (s1, w) => s1.select p rest now n w)

/-- The entry of a minute (R112), by advance, or by the SET CLOCK that a port carries out (R77): the work orders that it
reaches take their turns in number order (assumption 24). -/
def State.enterMinute (p : Option Authority) (s : State) : State := s.runTurns p s.reading (s.turnsDue p.isSome)

end Sys2Proof.Machine
end

