-- ==== Sys2Proof/Machine/Activation.lean ====
section
/-! DEFINITION. ACTIVATE (R110). -/

namespace Sys2Proof.Machine

/-- What ACTIVATE does with its argument (R110). An ESTATE CLEAR that meets a request of its selection discards the
selection (R38). -/
def activate (p : Authority) (a : NumberArgs) (s : State) : State × Answer :=
  match activateOf p a s with
  | .error code => refuse code s
  | .ok (n, w) =>
    let r := runSelection (.selection (some p) n []) s.reading w s
    (r.1.applyResult s.reading n w r.2, r.1.activateAnswer r.2)

/-- ACTIVATE (R110). -/
def execActivate (p : Authority) (a : Payload NumberArgs) (s : State) : Host.Outcome State Fault Refusal :=
  thenSettle (some p) (runCommand p 17 a NumberArgs.encode (activate p) s)

end Sys2Proof.Machine
end

