-- ==== Sys2Proof/Machine/ClockEvents.lean ====
section
/-! DEFINITION. What time sets off that makes requests: SET CLOCK (R76, R77), SECOND_TICK (R75, R112) and
SELECTION_DEADLINE (R111). -/

namespace Sys2Proof.Machine

/-- What SET CLOCK does with its arguments (R76, R77). -/
def setClock (p : Authority) (a : SetClockArgs) (s : State) : State × Answer :=
  match setClockOf p a with
  | .error code => refuse code s
  | .ok t => ((s.setClockTo t).enterMinute (some p), .accepted (clockBytes s.clock ++ num4 s.count))

/-- SET CLOCK (R76, R77). -/
def execSetClock (p : Authority) (a : Payload SetClockArgs) (s : State) : Host.Outcome State Fault Refusal :=
  thenSettle (some p) (runCommand p 10 a SetClockArgs.encode (setClock p) s)

/-- One second passes (R74, R75): the clock advances, and the entry of a minute re-evaluates the Lapsed work orders
(R112). -/
def State.tick (s : State) : State :=
  match s.advanceClock with
  | (t, true) => t.enterMinute none
  | (t, false) => t

/-- SECOND_TICK (R75). -/
def execSecondTick (s : State) : Host.Outcome State Fault Refusal := thenSettle none (.next s.tick)

/-- SELECTION_DEADLINE (R111). -/
def execSelectionDeadline (n : WorkOrderNo) (s : State) : Host.Outcome State Fault Refusal :=
  thenSettle none <| .next <|
    match s.workOrder n with
    | none => s
    | some w => if w.state = .active ∧ s.reached w.deadline then s.select none [] s.reading n w else s

end Sys2Proof.Machine
end

