-- ==== Sys2Proof/Machine/Enter.lean ====
section
/-! DEFINITION. The row PRESENT_ENTER (R134): an Enter presentation with its requests (R138 to R140, R150, R153,
R154). -/

namespace Sys2Proof.Machine

/-- Steps 5 to 11 of an Enter presentation (R138 to R140). An ESTATE CLEAR that meets a request of step 5 or 6 discards
the admission: it makes no verdict and no notice (R38). -/
def State.enterContractor (s : State) (e : ContractorEntry) : State :=
  let r := checkRights (.contractor e.door e.room e.permit e.record) e.option.space e.room e.workOrder e.option.window
    e.time.minute s
  r.1.endContractor e r.2

/-- An escort step from the rights of the escort on (R153). An ESTATE CLEAR that meets a request of the checks discards
the step with its pairing (R38). -/
def State.enterEscort (s : State) (e : EscortEntry) : State :=
  let r := checkRights (.escort e.door e.room e.slot e.permit e.job) 1 e.room e.roster none e.time.minute s
  r.1.endEscort e r.2

/-- An Enter presentation (R134): what it comes to before its requests, and from there on. -/
def State.takeEnter (s : State) (d : DoorId) (c : Credential) : State :=
  match s.enterStage d c with
  | .settled t => t
  | .contractor e => s.enterContractor e
  | .escort e => s.enterEscort e

/-- PRESENT_ENTER (R134). -/
def execPresentEnter (d : DoorId) (c : Credential) (s : State) : Host.Outcome State Fault Refusal :=
  thenSettle none (.next (s.answerPresent d c fun u => u.takeEnter d c))

end Sys2Proof.Machine
end

