-- ==== Sys2Proof/Machine/Taking.lean ====
section
/-! DEFINITION. A port takes the command frame that its receive frame buffer holds (R169), and the events at which it
does: COMMAND_FRAME_RECEIVED (R167) and FRAME_FINISHED (R176). -/

namespace Sys2Proof.Machine

/-- What a command does to the device while its port carries it out, and its answer (R169). Events are no commands of
a port, and no frame names one (`decodeCommand`). -/
def commandEffect (i : Instr) : State → State × Answer :=
  match i with
  | .setClock p a => judgePayload a (setClock p)
  | .activate p a => judgePayload a (activate p)
  | i => (plainCommand i).getD (refuse .unknownCommand)

/-- The port takes the command in its receive frame buffer when it holds one and no reply of the port waits to be
sent (R169), and the requests that then wait are served (R38). -/
def State.takeHeld (s : State) (p : Authority) : State :=
  match s.frameToTake p with
  | some f => (carryOut p f.code (commandEffect (decodeCommand p f.code f.payload)) s).settle (some p)
  | none => s

/-- One byte reaches the receiver of a port, and a command frame that it completes is taken, unless a reply waits
(R167, R169). -/
def State.receiveByte (p : Authority) (s : State) (b : Byte) : State :=
  (s.setPort p ((s.port p).receive b)).takeHeld p

/-- COMMAND_FRAME_RECEIVED (R167, R169): the bytes reach the receiver in order. -/
def execCommandFrameReceived (p : Authority) (bytes : List Byte) (s : State) : Host.Outcome State Fault Refusal :=
  .next (bytes.foldl (State.receiveByte p) s)

/-- FRAME_FINISHED (R176, R169): the transmitter chooses the next frame with the ready line as sampled, and where that
is the reply that waited, the command held in the buffer is taken. At an idle transmitter no frame finishes, and
nothing happens (assumption 5). -/
def execFrameFinished (p : Authority) (ready : Bool) (s : State) : Host.Outcome State Fault Refusal :=
  .next (match s.finishFrame p ready with | none => s | some t => t.takeHeld p)

end Sys2Proof.Machine
end

