-- ==== Sys2Proof/Machine/Dispatch.lean ====
section
/-! DEFINITION. One arm per command or event, each one direct call of its meaning. -/

namespace Sys2Proof.Machine

/-- What a command or event does to everything but the queue. -/
def exec (i : Instr) (s : State) : Host.Outcome State Fault Refusal :=
  match i with
  | .powerOn => Sys2Proof.Machine.execPowerOn s
  | .writeBlock p a => Sys2Proof.Machine.execWriteBlock p a s
  | .freeBlocks p a => Sys2Proof.Machine.execFreeBlocks p a s
  | .readBlock p a => Sys2Proof.Machine.execReadBlock p a s
  | .defineSpace p a => Sys2Proof.Machine.execDefineSpace p a s
  | .stageSpace p a => Sys2Proof.Machine.execStageSpace p a s
  | .cancelStage p a => Sys2Proof.Machine.execCancelStage p a s
  | .retireSpace p a => Sys2Proof.Machine.execRetireSpace p a s
  | .readSpace p a => Sys2Proof.Machine.execReadSpace p a s
  | .purge p a => Sys2Proof.Machine.execPurge p a s
  | .setClock p a => Sys2Proof.Machine.execSetClock p a s
  | .setPosture p a => Sys2Proof.Machine.execSetPosture p a s
  | .setSiteAllowance p a => Sys2Proof.Machine.execSetSiteAllowance p a s
  | .forceExit p a => Sys2Proof.Machine.execForceExit p a s
  | .readRoom p a => Sys2Proof.Machine.execReadRoom p a s
  | .createWorkOrder p a => Sys2Proof.Machine.execCreateWorkOrder p a s
  | .endorse p a => Sys2Proof.Machine.execEndorse p a s
  | .activate p a => Sys2Proof.Machine.execActivate p a s
  | .withdraw p a => Sys2Proof.Machine.execWithdraw p a s
  | .readWorkOrder p a => Sys2Proof.Machine.execReadWorkOrder p a s
  | .issuePermit p a => Sys2Proof.Machine.execIssuePermit p a s
  | .revoke p a => Sys2Proof.Machine.execRevoke p a s
  | .readPermit p a => Sys2Proof.Machine.execReadPermit p a s
  | .bindDoor p a => Sys2Proof.Machine.execBindDoor p a s
  | .readDoor p a => Sys2Proof.Machine.execReadDoor p a s
  | .remoteConsent p a => Sys2Proof.Machine.execRemoteConsent p a s
  | .holdLane p a => Sys2Proof.Machine.execHoldLane p a s
  | .releaseLane p a => Sys2Proof.Machine.execReleaseLane p a s
  | .resetLane p a => Sys2Proof.Machine.execResetLane p a s
  | .setTimings p a => Sys2Proof.Machine.execSetTimings p a s
  | .readStatus p a => Sys2Proof.Machine.execReadStatus p a s
  | .estateClear p a => Sys2Proof.Machine.execEstateClear p a s
  | .unknownCommand p code bytes => Sys2Proof.Machine.execUnknownCommand p code bytes s
  | .commandFrameReceived p bytes => Sys2Proof.Machine.execCommandFrameReceived p bytes s
  | .frameGapTimeout p => Sys2Proof.Machine.execFrameGapTimeout p s
  | .portBreak p => Sys2Proof.Machine.execPortBreak p s
  | .readyLineAsserted p => Sys2Proof.Machine.execReadyLineAsserted p s
  | .frameFinished p ready => Sys2Proof.Machine.execFrameFinished p ready s
  | .secondTick => Sys2Proof.Machine.execSecondTick s
  | .passageDeadline d => Sys2Proof.Machine.execPassageDeadline d s
  | .stepDeadline k => Sys2Proof.Machine.execStepDeadline k s
  | .consentDeadline k => Sys2Proof.Machine.execConsentDeadline k s
  | .checkinDeadline n => Sys2Proof.Machine.execCheckinDeadline n s
  | .stayDeadline n => Sys2Proof.Machine.execStayDeadline n s
  | .selectionDeadline w => Sys2Proof.Machine.execSelectionDeadline w s
  | .switchDeadline sp => Sys2Proof.Machine.execSwitchDeadline sp s
  | .pollTurn l => Sys2Proof.Machine.execPollTurn l s
  | .verdictSent l => Sys2Proof.Machine.execVerdictSent l s
  | .cancelSent l => Sys2Proof.Machine.execCancelSent l s
  | .pollUnanswered l => Sys2Proof.Machine.execPollUnanswered l s
  | .presentEnter d c => Sys2Proof.Machine.execPresentEnter d c s
  | .presentExit d c => Sys2Proof.Machine.execPresentExit d c s
  | .presentCheckin d c => Sys2Proof.Machine.execPresentCheckin d c s
  | .passage d => Sys2Proof.Machine.execPassage d s
  | .nothing d => Sys2Proof.Machine.execNothing d s
  | .laneBreakEnd l => Sys2Proof.Machine.execLaneBreakEnd l s
  | .framingError p => Sys2Proof.Machine.execFramingError p s
  | .badLength p length => Sys2Proof.Machine.execBadLength p length s

end Sys2Proof.Machine
end

