-- ==== Sys2Proof/WellFormed.lean ====
section
/-! DEFINITION. Which commands and events the ports and lanes can bring about.
A term of `Instr` that fails this check names nothing a frame or a door unit could send. The meanings are total
all the same. -/

namespace Sys2Proof

/-- A payload kept as bytes is one that its layout does not read, and it fits a frame: the length field of R167
goes up to 2048 and counts the kind and the code. -/
def Payload.wellFormed {α : Type} (parse : List Byte → Option α) (ok : α → Bool) : Payload α → Bool
  | .fields a => ok a
  | .malformed bytes => (parse bytes).isNone && bytes.length ≤ 2046

/-- The arguments of a fixed layout are always well formed. -/
def anyArgs {α : Type} (_ : α) : Bool := true

/-- Every operand is one that the port frames of R167 and R168 or the lane frames of R166 can carry. -/
def WellFormed : Instr → Bool
  | .writeBlock _ a => a.wellFormed WriteBlockArgs.parse anyArgs
  | .freeBlocks _ a => a.wellFormed FreeBlocksArgs.parse anyArgs
  | .readBlock _ a => a.wellFormed ReadBlockArgs.parse anyArgs
  | .defineSpace _ a => a.wellFormed DescriptorArgs.parse anyArgs
  | .stageSpace _ a => a.wellFormed StageSpaceArgs.parse anyArgs
  | .cancelStage _ a => a.wellFormed NumberArgs.parse anyArgs
  | .retireSpace _ a => a.wellFormed NumberArgs.parse anyArgs
  | .readSpace _ a => a.wellFormed NumberArgs.parse anyArgs
  | .purge _ a => a.wellFormed PurgeArgs.parse anyArgs
  | .setClock _ a => a.wellFormed SetClockArgs.parse anyArgs
  | .setPosture _ a => a.wellFormed SetPostureArgs.parse anyArgs
  | .setSiteAllowance _ a => a.wellFormed SetSiteAllowanceArgs.parse anyArgs
  | .forceExit _ a => a.wellFormed NumberArgs.parse anyArgs
  | .readRoom _ a => a.wellFormed DesignatorArgs.parse anyArgs
  | .createWorkOrder _ a => a.wellFormed CreateWorkOrderArgs.parse (fun c => c.options.length ≤ 255)
  | .endorse _ a => a.wellFormed EndorseArgs.parse anyArgs
  | .activate _ a => a.wellFormed NumberArgs.parse anyArgs
  | .withdraw _ a => a.wellFormed NumberArgs.parse anyArgs
  | .readWorkOrder _ a => a.wellFormed NumberArgs.parse anyArgs
  | .issuePermit _ a => a.wellFormed IssuePermitArgs.parse anyArgs
  | .revoke _ a => a.wellFormed NumberArgs.parse anyArgs
  | .readPermit _ a => a.wellFormed NumberArgs.parse anyArgs
  | .bindDoor _ a => a.wellFormed BindDoorArgs.parse anyArgs
  | .readDoor _ a => a.wellFormed DoorArgs.parse anyArgs
  | .remoteConsent _ a => a.wellFormed RemoteConsentArgs.parse anyArgs
  | .holdLane _ a => a.wellFormed NumberArgs.parse anyArgs
  | .releaseLane _ a => a.wellFormed NumberArgs.parse anyArgs
  | .resetLane _ a => a.wellFormed NumberArgs.parse anyArgs
  | .setTimings _ a => a.wellFormed SetTimingsArgs.parse anyArgs
  | .readStatus _ a => a.wellFormed NoArgs.parse anyArgs
  | .estateClear _ a => a.wellFormed NoArgs.parse anyArgs
  | .unknownCommand _ code bytes => (code.toNat = 0 || 31 < code.toNat) && bytes.length ≤ 2046
  | .badLength _ length => length.toNat < 2 || 2048 < length.toNat
  | .presentEnter _ credential => credential ≠ 0
  | .presentExit _ credential => credential ≠ 0
  | .presentCheckin _ credential => credential ≠ 0
  | .powerOn | .commandFrameReceived .. | .frameGapTimeout _ | .portBreak _ | .readyLineAsserted _
  | .frameFinished .. | .secondTick | .passageDeadline _ | .stepDeadline _ | .consentDeadline _
  | .checkinDeadline _ | .stayDeadline _ | .selectionDeadline _ | .switchDeadline _ | .pollTurn _
  | .verdictSent _ | .cancelSent _ | .pollUnanswered _ | .passage _ | .nothing _ | .laneBreakEnd _
  | .framingError _ => true

end Sys2Proof
end

