-- ==== Sys2Proof/Safety.lean ====
section
/-! DEFINITION. What counts as a sound state and a sound step, in the terms that claims use: what a step may change,
the reply that a taken command leaves at its port, and the laws of the manual that every state keeps. -/

namespace Sys2Proof.Machine

/-! ### What a step may change -/

/-- The parts of the device's state, one for each field of `State`. -/
inductive Field where
  | blocks | spaces | cache | clock | count | posture | sites | occupancy | workOrders | permits | doors | slots
  | lanes | ports | timings | waiting | meetings | pending
  deriving DecidableEq, Repr

/-- Two states agree on a part. -/
def State.same (s t : State) : Field → Prop
  | .blocks => t.blocks = s.blocks
  | .spaces => t.spaces = s.spaces
  | .cache => t.cache = s.cache
  | .clock => t.clock = s.clock
  | .count => t.count = s.count
  | .posture => t.posture = s.posture
  | .sites => t.sites = s.sites
  | .occupancy => t.occupancy = s.occupancy
  | .workOrders => t.workOrders = s.workOrders
  | .permits => t.permits = s.permits
  | .doors => t.doors = s.doors
  | .slots => t.slots = s.slots
  | .lanes => t.lanes = s.lanes
  | .ports => t.ports = s.ports
  | .timings => t.timings = s.timings
  | .waiting => t.waiting = s.waiting
  | .meetings => t.meetings = s.meetings
  | .pending => t.pending = s.pending

/-- From `s` to `t` nothing changes but the parts listed. -/
def State.changesOnly (fs : List Field) (s t : State) : Prop := ∀ f, f ∉ fs → s.same t f

/-- The parts that a turn of a lane may change: its door may fail, be announced or report (R162, R163). -/
def laneFields : List Field := [.spaces, .occupancy, .workOrders, .permits, .doors, .slots, .lanes, .ports]

/-- The parts that the commands of a port may change, each by its own rules. -/
def commandFields : List Field :=
  [.blocks, .spaces, .cache, .clock, .posture, .sites, .occupancy, .workOrders, .permits, .doors, .slots, .lanes,
    .ports, .timings]

/-- The rows that may make resolution requests (R39). The rows at which a port takes a frame may take an ACTIVATE or a
SET CLOCK. -/
def makesRequests : Instr → Bool
  | .presentEnter .. | .activate .. | .selectionDeadline _ | .setClock .. | .secondTick | .commandFrameReceived ..
  | .frameFinished .. => true
  | .powerOn | .writeBlock .. | .freeBlocks .. | .readBlock .. | .defineSpace .. | .stageSpace .. | .cancelStage ..
  | .retireSpace .. | .readSpace .. | .purge .. | .setPosture .. | .setSiteAllowance .. | .forceExit .. | .readRoom ..
  | .createWorkOrder .. | .endorse .. | .withdraw .. | .readWorkOrder .. | .issuePermit .. | .revoke .. | .readPermit ..
  | .bindDoor .. | .readDoor .. | .remoteConsent .. | .holdLane .. | .releaseLane .. | .resetLane .. | .setTimings ..
  | .readStatus .. | .estateClear .. | .unknownCommand .. | .frameGapTimeout _ | .portBreak _ | .readyLineAsserted _
  | .passageDeadline _ | .stepDeadline _ | .consentDeadline _ | .checkinDeadline _ | .stayDeadline _
  | .switchDeadline _ | .pollTurn _ | .verdictSent _ | .cancelSent _ | .pollUnanswered _ | .presentExit ..
  | .presentCheckin .. | .passage _ | .nothing _ | .laneBreakEnd _ | .framingError _ | .badLength .. => false

/-- The parts that each command or event may change, as the rules of its row and of the steps within it say
(spec/95_what_each_step_holds.md), where nothing meets its requests. Every part not listed stays as it is. -/
def mayChange : Instr → List Field
  | .powerOn => [.blocks, .spaces, .cache, .clock, .count, .posture, .sites, .occupancy, .workOrders, .permits,
      .doors, .slots, .lanes, .ports, .timings]
  | .writeBlock .. | .freeBlocks .. => [.blocks, .ports]
  | .readBlock .. | .readSpace .. | .readRoom .. | .readWorkOrder .. | .readPermit .. | .readDoor ..
  | .readStatus .. => [.ports]
  | .defineSpace .. | .stageSpace .. | .cancelStage .. | .retireSpace .. => [.spaces, .ports]
  | .purge .. => [.cache, .ports]
  | .setClock .. => [.clock, .spaces, .cache, .workOrders, .permits, .doors, .slots, .ports]
  | .setPosture .. => [.posture, .spaces, .occupancy, .workOrders, .permits, .doors, .slots, .lanes, .ports]
  | .setSiteAllowance .. => [.sites, .occupancy, .ports]
  | .forceExit .. => [.occupancy, .workOrders, .permits, .doors, .ports]
  | .createWorkOrder .. | .endorse .. => [.workOrders, .ports]
  | .activate .. => [.cache, .workOrders, .ports]
  | .withdraw .. => [.spaces, .workOrders, .permits, .doors, .slots, .ports]
  | .issuePermit .. => [.permits, .ports]
  | .revoke .. => [.spaces, .permits, .doors, .slots, .ports]
  | .bindDoor .. => [.doors, .ports]
  | .remoteConsent .. => [.spaces, .occupancy, .workOrders, .permits, .doors, .slots, .ports]
  | .holdLane .. | .releaseLane .. => [.lanes, .slots, .ports]
  | .resetLane .. => laneFields
  | .setTimings .. => [.timings, .ports]
  | .estateClear .. => [.blocks, .spaces, .cache, .sites, .occupancy, .workOrders, .permits, .doors, .slots, .ports]
  | .unknownCommand .. | .frameGapTimeout _ | .portBreak _ | .readyLineAsserted _ | .framingError _
  | .badLength .. => [.ports]
  | .commandFrameReceived .. | .frameFinished .. => commandFields
  | .secondTick => [.count, .clock, .spaces, .cache, .workOrders, .permits, .doors, .slots, .ports]
  | .passageDeadline _ => [.occupancy, .workOrders, .permits, .doors, .ports]
  | .stepDeadline _ | .consentDeadline _ | .switchDeadline _ => [.spaces, .doors, .slots, .ports]
  | .checkinDeadline _ | .stayDeadline _ => [.permits, .ports]
  | .selectionDeadline _ => [.cache, .workOrders, .ports]
  | .pollTurn _ | .laneBreakEnd _ => [.lanes]
  | .verdictSent _ | .cancelSent _ => [.doors, .lanes]
  | .pollUnanswered _ | .presentExit .. | .presentCheckin .. | .passage _ | .nothing _ => laneFields
  | .presentEnter .. => .cache :: laneFields

/-- The rows that are to meet a request. -/
def Meetings.rows (m : Meetings) : List Instr :=
  m.beforeLookup ++ m.beforeEstate ++ m.beforeSite ++ m.beforeZone ++ m.beforeEnd

/-- The parts that the rows which are to meet requests may change, with what the decisions that they begin do. -/
def State.mayMeet (s : State) : List Field := .meetings :: s.meetings.flatMap fun m => m.rows.flatMap mayChange

/-- No row that is to meet a request may change any of these parts. -/
def State.meetingsSpare (s : State) (fs : List Field) : Prop := ∀ f ∈ fs, f ∉ s.mayMeet

/-! ### A command at its port (R169) -/

/-- The port takes the command with this code and payload: its buffer is empty or holds this frame, and no reply of
the port is waiting to be sent. -/
def State.takes (s : State) (p : Authority) (code : Byte) (payload : List Byte) : Prop :=
  ((s.port p).buffer = none ∨ (s.port p).buffer = some ⟨code, payload⟩) ∧ (s.port p).reply = none

/-- A port that has taken a command and made its reply ready: the buffer is free, and the reply has begun to be sent
where the transmitter was idle, and waits where it was busy (R169, R176). -/
def Port.answered (q : Port) (r : Reply) : Port :=
  match q.transmitter with
  | none => { q with buffer := none, reply := none, transmitter := some r.frame }
  | some _ => { q with buffer := none, reply := some r }

/-- The state with a command answered at its port, and nothing else changed. -/
def State.answered (s : State) (p : Authority) (code : Byte) (a : Answer) : State :=
  s.setPort p ((s.port p).answered ⟨code, a⟩)

/-- From `s` to `t` the command's one reply was made ready at its port (R169): the buffer is free, and the reply has
begun to be sent where the transmitter was idle, and waits where it was busy. -/
def State.replied (s t : State) (p : Authority) (code : Byte) (a : Answer) : Prop :=
  (t.port p).buffer = none ∧
  match (s.port p).transmitter with
  | none => (t.port p).transmitter = some (Reply.frame ⟨code, a⟩) ∧ (t.port p).reply = none
  | some f => (t.port p).transmitter = some f ∧ (t.port p).reply = some ⟨code, a⟩

/-- The payload of a command frame is one that its layout does not read. -/
def Payload.isMalformed {α : Type} : Payload α → Bool
  | .fields _ => false
  | .malformed _ => true

/-- The command's payload is too short or too long for its code, or otherwise not of its layout (R169). -/
def isMalformed : Instr → Bool
  | .writeBlock _ a => Payload.isMalformed a
  | .freeBlocks _ a => Payload.isMalformed a
  | .readBlock _ a => Payload.isMalformed a
  | .defineSpace _ a => Payload.isMalformed a
  | .stageSpace _ a => Payload.isMalformed a
  | .purge _ a => Payload.isMalformed a
  | .setClock _ a => Payload.isMalformed a
  | .setPosture _ a => Payload.isMalformed a
  | .setSiteAllowance _ a => Payload.isMalformed a
  | .readRoom _ a => Payload.isMalformed a
  | .createWorkOrder _ a => Payload.isMalformed a
  | .endorse _ a => Payload.isMalformed a
  | .issuePermit _ a => Payload.isMalformed a
  | .bindDoor _ a => Payload.isMalformed a
  | .readDoor _ a => Payload.isMalformed a
  | .remoteConsent _ a => Payload.isMalformed a
  | .setTimings _ a => Payload.isMalformed a
  | .cancelStage _ a | .retireSpace _ a | .readSpace _ a | .forceExit _ a | .activate _ a | .withdraw _ a
  | .readWorkOrder _ a | .revoke _ a | .readPermit _ a | .holdLane _ a | .releaseLane _ a | .resetLane _ a =>
    Payload.isMalformed a
  | .readStatus _ a | .estateClear _ a => Payload.isMalformed a
  | .powerOn | .unknownCommand .. | .commandFrameReceived .. | .frameGapTimeout _ | .portBreak _
  | .readyLineAsserted _ | .frameFinished .. | .secondTick | .passageDeadline _ | .stepDeadline _
  | .consentDeadline _ | .checkinDeadline _ | .stayDeadline _ | .selectionDeadline _ | .switchDeadline _
  | .pollTurn _ | .verdictSent _ | .cancelSent _ | .pollUnanswered _ | .presentEnter .. | .presentExit ..
  | .presentCheckin .. | .passage _ | .nothing _ | .laneBreakEnd _ | .framingError _ | .badLength .. => false

/-! ### What argument bytes stand for (R168) -/

/-- The bytes name a room: site 0..127, zone 0..31, room 0..31. -/
def carriesRoom (a : DesignatorArgs) (r : Designator) : Prop :=
  a.site.toNat = r.site.val ∧ a.zone.toNat = r.zone.val ∧ a.room.toNat = r.room.val

/-- The bytes name a door: lane 0..3, address 0..15. -/
def carriesDoor (a : DoorArgs) (d : DoorId) : Prop :=
  a.lane.toNat = d.lane.val ∧ a.address.toNat = d.address.val

/-- The bytes give a descriptor's fields within the ranges of R25 and R27; a scope site or scope zone that the scope
does not use is ignored. -/
def carriesDescriptor (a : DescriptorArgs) (d : Descriptor) : Prop :=
  (match d.scope with
    | .estate => a.scope = 0
    | .site s => a.scope = 1 ∧ a.site.toNat = s.val
    | .zone s z => a.scope = 2 ∧ a.site.toNat = s.val ∧ a.zone.toNat = z.val) ∧
  (match d.topOrigin with
    | none => a.origin = 65535
    | some o => a.origin.toNat = o.val ∧ o.val + d.topLength ≤ 512) ∧
  a.length.toNat = d.topLength ∧ 1 ≤ d.topLength ∧ d.topLength ≤ (if d.scope = .estate then 16 else 4) ∧
  a.isPrivate = (if d.isPrivate then 1 else 0)

/-- The bytes give an option of a work order within the ranges of R103. -/
def carriesOption (a : OptionArgs) (o : WorkOption) : Prop :=
  a.space.toNat = o.space.val ∧ a.cap.toNat = o.cap ∧ 1 ≤ o.cap ∧ o.cap ≤ 127 ∧
  match a.window, o.window with
  | none, none => True
  | some (start, length), some w =>
    start.toNat = w.start ∧ length.toNat = w.length ∧ w.start ≤ 1439 ∧ 1 ≤ w.length ∧ w.length ≤ 1440
  | _, _ => False

/-- Candidate `a` comes before candidate `b` by the four keys of R107. -/
def Candidate.precedes (preference : Preference) (a b : Candidate) : Prop :=
  b.cap < a.cap ∨ (a.cap = b.cap ∧ (a.level < b.level ∨ (a.level = b.level ∧
    ((match preference with
      | .longer => b.remaining < a.remaining
      | .shorter => a.remaining < b.remaining) ∨
      (a.remaining = b.remaining ∧ a.index < b.index)))))

/-- Among the results of a work order's options, of which none was discarded, `c` is the candidate chosen: an eligible
one that comes before every other (R107). -/
def WorkOrder.bestOf (w : WorkOrder) (results : List (Resolution Candidate)) (c : Candidate) : Prop :=
  .discarded ∉ results ∧ .ok c ∈ results ∧ ∀ c', .ok c' ∈ results → c' = c ∨ c.precedes w.preference c'

/-- A work order after a selection that chose an option (R108, R109). -/
def WorkOrder.withOption (w : WorkOrder) (c : Candidate) (short : Bool) (deadline : Nat) : WorkOrder :=
  { w with
    state := .active, selected := some c.index, capInForce := c.cap, shortfall := short, deadline := some deadline }

/-- A work order that has lapsed (R111). -/
def WorkOrder.asLapsed (w : WorkOrder) : WorkOrder :=
  { w with state := .lapsed, selected := none, capInForce := 0, deadline := none, shortfall := false }

/-! ### What meets a request (R26, R38, R46, R72) -/

/-- One row meets a request, before its lookup. -/
def Meetings.first (i : Instr) : Meetings := ⟨[i], [], [], [], []⟩

/-- One row meets a request after its lookup, before its read of a kind of table, or with `none` before its end. -/
def Meetings.only (i : Instr) : Option Kind → Meetings
  | some .estate => ⟨[], [i], [], [], []⟩
  | some .site => ⟨[], [], [i], [], []⟩
  | some .zone => ⟨[], [], [], [i], []⟩
  | .none => ⟨[], [], [], [], [i]⟩

/-- What the reads of a walk find where one row takes the device from `s` to `u` at such a point: those made
before it find `s`, and those made after it `u` (R16, R46). -/
def seenAround (s u : State) : Option Kind → Kind → State
  | some .estate, _ => u
  | some .site, .estate => s
  | some .site, _ => u
  | some .zone, .zone => u
  | some .zone, _ => s
  | none, _ => s

/-- A request of one form, in space `n` with the descriptor `d` for room `r`, is served so when nothing meets it (R64,
R66, R67, R68): a lookup that hits is answered with the summary that was filled, whatever the blocks hold, and its entry
becomes the most recent; a walk's summary is answered and filled at the most recent position, and of 32 entries the
least recent leaves; a fault is answered and not filled. -/
def State.servesAlone {α : Type} (s : State) (resolve : State → State × Resolution α)
    (walk : (Kind → State) → Except DenyCode α) (summary : α → Summary) (n : SpaceNo) (r : Designator)
    (d : Descriptor) : Prop :=
  let lookup := cachePick n (s.space n).generation d.isPrivate r s.cache
  (∀ (e : CacheEntry) (a : α) (blocks : Vector Block 512), lookup = some e → e.summary = summary a →
    resolve { s with blocks := blocks } = ({ s with blocks := blocks, cache := e :: s.cache.erase e }, .ok a)) ∧
  (∀ a : α, s.cache.length ≤ 32 → lookup = none → walk (fun _ => s) = .ok a →
    ∃ t, resolve s = (t, .ok a) ∧ s.changesOnly [.cache] t ∧ t.cache.length ≤ 32 ∧
      t.cache.head? = some ⟨n, (s.space n).generation, summary a⟩ ∧
      (s.cache.length ≤ 31 → t.cache.tail = s.cache) ∧ (s.cache.length = 32 → t.cache.tail = s.cache.dropLast)) ∧
  ∀ c : DenyCode, lookup = none → walk (fun _ => s) = .error c → resolve s = (s, .error c)

/-- A row of the table may be taken while a decision waits for a request, and takes the device from `s` to `u`: it does
what it always does, and a row that makes requests does it up to its first one; the port of a command holds no command
and has no reply waiting (R169); and no command and no event of the lines concerns the port whose command makes the
decision. Of POWER_ON and of the rows that carry frames of commands nothing is said here. -/
def Decision.mayMeet (x : Decision) (s : State) (i : Instr) (u : State) : Prop :=
  (if makesRequests i then rowEffect i s = some u else exec i s = .next u) ∧
  i ≠ .powerOn ∧ (∀ p bytes, i ≠ .commandFrameReceived p bytes) ∧ (∀ p ready, i ≠ .frameFinished p ready) ∧
  (∀ p code bytes, encodeCommand i = some (p, code, bytes) →
    (s.port p).buffer = none ∧ (s.port p).reply = none ∧ x.port ≠ some p) ∧
  ∀ p, lineOf i = some p → x.port ≠ some p

/-- A row that takes the device from `s` to `u` leaves a decision as it is, is no command or event for a work order that
the decision is about or whose turn in the same row is still to come, and the decision that it begins, if it begins one,
is about other doors, rooms, permits and work orders (R77, R112, R134, section 7.3). -/
def Decision.leftBy (x : Decision) (r : Designator) (i : Instr) (s u : State) : Prop :=
  x.keeps r s u = true ∧ x.sparedBy s i = true ∧ ∀ y ∈ u.parties, x.apart y.decision = true

/-- The row is an ESTATE CLEAR that is accepted (R172, R173). -/
def State.clears (s : State) (i : Instr) : Prop := (∃ a, i = .estateClear .sec (.fields a)) ∧ ∀ j, s.record j = none

/-- The row is a PURGE that is accepted and covers a request in space `n` with the descriptor `d` for room `r` (R70,
R72). -/
def purgeCovers (n : SpaceNo) (r : Designator) (d : Descriptor) (i : Instr) : Prop :=
  ∃ p a, i = .purge p (.fields a) ∧ ((a.form = 0 ∧ p = .sec) ∨
    (a.form = 1 ∧ a.argument.toNat = n.val ∧ (p = .sec ∨ d.authority = p)) ∨
    (a.form = 2 ∧ a.argument.toNat = r.site.val ∧ p = .sec))

/-- A request of one form, that a decision makes in space `n` for room `r`, is served so when one row of the table is
taken before its lookup, and takes the device from `b` to `u` (R26, R38, R72): the lookup and what follows it find what
the row left; a decision that the row begins waits behind the request; an ESTATE CLEAR that is accepted discards the
request; and a row that would change what the decision is about, or is for its work order, or whose decision is about the
same, is not taken here (R77, R134). -/
def State.servesAfter {α : Type} (s : State) (x : Decision) (resolve : State → State × Resolution α) (r : Designator) :
    Prop :=
  ∀ (i : Instr) (rest : List Meetings) (u : State), s.meetings = Meetings.first i :: rest →
    let b : State := { s with meetings := rest }
    x.mayMeet b i u →
    (s.clears i → resolve s = (u, .discarded)) ∧
    (¬ s.clears i → x.leftBy r i b u →
      let alone := resolve { u with meetings := [], waiting := [] }
      resolve s = ({ alone.1 with meetings := rest, waiting := u.waiting }, alone.2)) ∧
    (¬ s.clears i → ¬ x.leftBy r i b u → resolve s = resolve { s with meetings := Meetings.none :: rest })

/-- A request of one form, that a decision makes in space `n` with the descriptor `d` for room `r`, is served so when
one row of the table is taken after its lookup, and takes the device from `b` to `u` (R16, R26, R38, R46, R72, R73):
reads made before the row find what it found, and reads made after it what it left, and the walk keeps the descriptor
and the generation of the lookup; a PURGE that is accepted and covers the request leaves the summary unfilled; an ESTATE
CLEAR that is accepted discards the request; after any other row the summary is filled, and a decision that the row
begins waits; and a row that would change what the decision is about, or is for its work order, or whose decision is about
the same, is not taken here (R77, R134). -/
def State.servesAround {α : Type} (s : State) (x : Decision) (resolve : State → State × Resolution α)
    (walk : (Kind → State) → Except DenyCode α) (summary : α → Summary) (n : SpaceNo) (r : Designator)
    (d : Descriptor) : Prop :=
  ∀ (i : Instr) (k : Option Kind) (rest : List Meetings) (u : State), s.meetings = Meetings.only i k :: rest →
    let lookup := cachePick n (s.space n).generation d.isPrivate r s.cache
    let b : State := { s with
      meetings := rest, cache := match lookup with | none => s.cache | some e => e :: s.cache.erase e }
    x.mayMeet b i u →
    (s.clears i → (lookup = none ∨ ∃ e a, lookup = some e ∧ e.summary = summary a) → resolve s = (u, .discarded)) ∧
    (¬ s.clears i → x.leftBy r i b u →
      (∀ e a, lookup = some e → e.summary = summary a → resolve s = (u, .ok a)) ∧
      (lookup = none →
        (∀ c, walk (seenAround b u k) = .error c → resolve s = (u, .error c)) ∧
        ∀ a, walk (seenAround b u k) = .ok a →
          (purgeCovers n r d i → resolve s = (u, .ok a)) ∧
          (¬ purgeCovers n r d i →
            resolve s = ({ u with cache := ⟨n, (s.space n).generation, summary a⟩ :: u.cache.take 31 }, .ok a)))) ∧
    (¬ s.clears i → ¬ x.leftBy r i b u → resolve s = resolve { s with meetings := Meetings.none :: rest })

/-- A request of one form, that decision `x` makes for room `r` while another decision waits, is served behind the
request that the other has made before it (R38): with the other's grant request answered, and its overlay request waits
behind; or with the other's decision ended, where that leaves `x` as it is. An ESTATE CLEAR that is accepted while the
other's request is served discards both decisions. Nothing else meets the requests. -/
def State.servesBehind {α : Type} (s : State) (x : Decision) (resolve : State → State × Resolution α) (r : Designator) :
    Prop :=
  ∀ (e : Errand) (asks : WaitingFor), s.waiting = [⟨e, asks⟩] →
    let y := e.party
    let ended := fun (t : State) (rights : Resolution (GrantSummary × OverlaySummary)) =>
      let u := t.resume rights e
      x.keeps r t u = true →
        let alone := resolve { u with waiting := [] }
        resolve s = ({ alone.1 with waiting := u.waiting }, alone.2)
    (s.meetings = [] →
      let before : State := { s with waiting := [] }
      (asks = .grant → ∀ t : State,
        (∀ g, resolveGrant y.decision e.space y.room before = (t, .ok g) →
          let alone := resolve t
          resolve s = ({ alone.1 with waiting := [⟨e, .overlay g⟩] }, alone.2)) ∧
        ∀ c, resolveGrant y.decision e.space y.room before = (t, .error c) → ended t (.error c)) ∧
      ∀ g, asks = .overlay g → ∀ t : State,
        (∀ o, resolveOverlay y.decision y.room before = (t, .ok o) → ended t (e.judge t g o)) ∧
        ∀ c, resolveOverlay y.decision y.room before = (t, .error c) → ended t (.error c)) ∧
    ∀ (i : Instr) (rest : List Meetings) (u : State), s.meetings = Meetings.first i :: rest →
      (asks = .grant ∨ ∃ g, asks = .overlay g) → s.clears i →
      let b : State := { s with meetings := rest, waiting := [] }
      x.mayMeet b i u → y.decision.mayMeet b i u → resolve s = (u.discard ⟨e, asks⟩, .discarded)

/-! ### A permit leaves a room -/

/-- No permit of the work order but `n` is Pending or Inside, and the work order is Closing: with `n` gone it is
freed (R116). -/
def State.lastCounted (s : State) (n : PermitNo) (q : Permit) (w : WorkOrder) : Prop :=
  w.isClosing = true ∧ ∀ m r, m ≠ n → s.permit m = some r → r.workOrder = q.workOrder → r.state.counted = false

/-- From `s` to `t` permit `n` has left Pending or Inside (R94, R95, R113, R116, R122): it is Idle, or gone when it was
revoked; its room's record and its work order's party load fall by its weight, a record left empty is out of use, and
the record's flag is evaluated; a Closing work order left with no permit Pending or Inside is gone with its permits;
and no other permit, work order or record changes. -/
def State.permitLeaves (s t : State) (n : PermitNo) (q : Permit) (w : WorkOrder) (k : RecordNo) (o : OccupancyRecord) :
    Prop :=
  (s.lastCounted n q w →
    t.workOrder q.workOrder = none ∧ ∀ m r, s.permit m = some r → r.workOrder = q.workOrder → t.permit m = none) ∧
  (¬ s.lastCounted n q w →
    t.workOrder q.workOrder = some { w with party := w.party - q.role.weight } ∧
    t.permit n = (if q.revoked then none else some { q with state := .idle })) ∧
  (∀ m, m ≠ n → (¬ s.lastCounted n q w ∨ ∀ r, s.permit m = some r → r.workOrder ≠ q.workOrder) →
    t.permit m = s.permit m) ∧
  (∀ v, v ≠ q.workOrder → t.workOrder v = s.workOrder v) ∧
  t.record k = (if o.inside.erase n = [] ∧ o.pending.erase n = [] then none
    else some { o with
      inside := o.inside.erase n, pending := o.pending.erase n, load := o.load - q.role.weight,
      overAllowance := decide (s.allowanceAt o.room o.guaranteed o.ceiling < o.load - q.role.weight) }) ∧
  ∀ j, j ≠ k → t.record j = s.record j

/-- A Pending permit that one of these doors holds for an Enter (R119, R132). -/
def State.reservedAt (s : State) (ds : DoorId → Bool) (n : PermitNo) : Bool :=
  (match s.permit n with | some q => q.state.door.isSome | none => false) &&
    allDoors.any fun d => ds d && (s.door d).admission.reserved.contains n

/-- From `s` to `t` the permits with `gone`, all Pending, are released, and no other permit changes (R94, R113, R116,
R122): a released one is Idle, or gone when it was revoked; its room's record loses it and its weight, and is out of
use when both its lists are empty; its work order's party load falls by its weight; a Closing work order left with no
permit Pending or Inside by a release is gone. Flags are not spoken of. -/
def State.releases (s t : State) (gone : PermitNo → Bool) : Prop :=
  (∀ n q, s.permit n = some q →
    t.permit n = if gone n then (if q.revoked then none else some { q with state := .idle }) else some q) ∧
  (∀ n, s.permit n = none → t.permit n = none) ∧
  (∀ k, s.record k = none → t.record k = none) ∧
  (∀ k o, s.record k = some o →
    let pending := o.pending.filter fun n => !gone n
    (o.inside = [] → pending = [] → t.record k = none) ∧
    ((o.inside ≠ [] ∨ pending ≠ []) → ∃ flag, t.record k = some { o with
      pending := pending, load := ((o.inside ++ pending).map s.weight).sum, overAllowance := flag })) ∧
  (∀ w, s.workOrder w = none → t.workOrder w = none) ∧
  ∀ w r, s.workOrder w = some r →
    let permits := fun counted : PermitNo → Bool => (List.finRange 256).filter fun n =>
      (match s.permit n with | some q => q.workOrder = w && q.state.counted | none => false) && counted n
    (permits gone = [] → t.workOrder w = some r) ∧
    (permits gone ≠ [] → r.isClosing = true → permits (fun n => !gone n) = [] → t.workOrder w = none) ∧
    (permits gone ≠ [] → (r.isClosing = false ∨ permits (fun n => !gone n) ≠ []) →
      t.workOrder w = some { r with party := ((permits fun n => !gone n).map s.weight).sum })

/-! ### Laws that every state keeps -/

/-- A reply waits only behind a frame being sent, and a command waits in a receive frame buffer only behind a reply
(R169, R176). -/
def State.portsOrdered (s : State) : Prop :=
  ∀ p, ((s.port p).reply ≠ none → (s.port p).transmitter ≠ none) ∧ ((s.port p).buffer ≠ none → (s.port p).reply ≠ none)

/-- The number of Routine notices a queue holds. -/
def Port.routineHeld (q : Port) : Nat := q.queue.countP fun n => !n.isSafety

/-- Each notice queue holds at most 32 notices, of which at most 30 are Routine (R174). -/
def State.queuesBounded (s : State) : Prop :=
  ∀ p, (s.port p).queue.length ≤ 32 ∧ (s.port p).routineHeld ≤ 30

/-- The resolution cache holds at most 32 entries, and no two of them carry the same tag (R62). -/
def State.cacheBounded (s : State) : Prop :=
  s.cache.length ≤ 32 ∧
  s.cache.Pairwise fun e f => ¬ (e.space = f.space ∧ e.generation = f.generation ∧ e.summary.covers = f.summary.covers)

/-- The estate clock's day, minute and second lie in their ranges (R74), the timings in theirs (R170), each site
record in its own (R88), and each door's miss count in 0..3 (R161). -/
def State.settingsInRange (s : State) : Prop :=
  (∀ t, s.clock = some t → t.day ≤ 65535 ∧ t.minute ≤ 1439 ∧ t.second ≤ 59) ∧
  (5 ≤ s.timings.pairingWindow ∧ s.timings.pairingWindow ≤ 60 ∧ 5 ≤ s.timings.passageTime ∧
    s.timings.passageTime ≤ 30 ∧ 15 ≤ s.timings.consentWait ∧ s.timings.consentWait ≤ 120) ∧
  (∀ n, (s.site n).extra ≤ 127 ∧ (s.site n).forced ≤ 63) ∧
  (∀ d, (s.door d).misses ≤ 3)

/-- A descriptor stands in a space record, as its current or its staged descriptor. -/
def SpaceRecord.describes (r : SpaceRecord) (d : Descriptor) : Prop :=
  r.current = some d ∨ ∃ w, r.waiting = some w ∧ w.descriptor = d

/-- Every block inside the top-table range of a current or staged descriptor is owned by the descriptor's authority,
and so is not Free (R17, R24, R44). -/
def State.topTablesOwned (s : State) : Prop :=
  ∀ n d b, (s.space n).describes d → d.names b = true → s.ownedBy d.authority b = true

/-- A space whose Go flag is set is in use and has a drain count of at least 1 (R28). -/
def State.goMeansDraining (s : State) : Prop :=
  ∀ n, (s.space n).go = true → (s.space n).inUse = true ∧ 1 ≤ (s.space n).drain

/-- Spaces 0 and 1 are in use, belong to Security and have Estate scope in every descriptor they hold; space 0 is
private in every one; every descriptor of another space names a top table; and a staged descriptor names the owner
of its space (R22, R23, R27). -/
def State.spacesSound (s : State) : Prop :=
  (s.space 0).inUse = true ∧ (s.space 1).inUse = true ∧
  (∀ n d, (s.space n).describes d →
    (n.val ≤ 1 → d.authority = .sec ∧ d.scope = .estate) ∧ (n.val = 0 → d.isPrivate = true) ∧
    (2 ≤ n.val → d.authority ≠ .sec ∧ d.topOrigin ≠ none)) ∧
  ∀ n w, (s.space n).waiting = some w → (s.space n).owner = some w.descriptor.authority

/-- Work order 0 holds its fixed values; only its party load moves (R102). That its endorsement flags and its shortfall
flag are clear, to which R102 gives no value, is the model's choice (assumption 39). -/
def State.rosterFixed (s : State) : Prop :=
  ∃ load, s.workOrder 0 = some { WorkOrder.escortRoster with party := load }

/-- A general work order was issued by Facilities or Landlord, and each of its options names a space 2..63 in use that
its issuer owns (R100, R103, R35). -/
def State.workOrdersSound (s : State) : Prop :=
  ∀ n w, s.workOrder n = some w → n ≠ 0 →
    w.issuer ≠ .sec ∧ ∀ o ∈ w.options, 2 ≤ o.space.val ∧ (s.space o.space).owner = some w.issuer

/-- No two permit records hold the same credential number (R118). -/
def State.credentialsDistinct (s : State) : Prop :=
  ∀ m n p q, s.permit m = some p → s.permit n = some q → p.credential = q.credential → m = n

/-- A permit belongs to a work order in use, and to work order 0 exactly when its role is Escort (R120); a revoked
permit is Pending or Inside (R137); and every permit of a Closing work order is revoked (R129). -/
def State.permitsSound (s : State) : Prop :=
  ∀ n p, s.permit n = some p →
    (p.role = .escort ↔ p.workOrder = 0) ∧
    (p.revoked = true → p.state.counted = true) ∧
    ∃ w, s.workOrder p.workOrder = some w ∧ (w.isClosing = true → p.revoked = true)

/-- What a slot in use says of its door and permits: the door is bound, and in Pairing or, while the slot expects
Consent, in Awaiting Consent, with the slot's contractor and a contractor space among the options of its work order;
the contractor is an Idle permit of a role other than Escort, and a held escort is an Idle permit of role Escort
(R30, R149). -/
def State.slotSound (s : State) (k : Slot) : Prop :=
  (s.door k.door).binding ≠ none ∧
  (∃ v p w, ((k.expects ≠ .consent ∧ (s.door k.door).admission = .pairing k.contractor v) ∨
      (k.expects = .consent ∧ (s.door k.door).admission = .awaitingConsent k.contractor v)) ∧
    s.permit k.contractor = some p ∧ p.role ≠ .escort ∧ p.state = .idle ∧
    s.workOrder p.workOrder = some w ∧ ∃ o ∈ w.options, o.space = v.space) ∧
  ∀ e, k.escort = some e →
    ∃ p, s.permit e.permit = some p ∧ p.role = .escort ∧ p.state = .idle ∧ p.credential = e.credential

/-- What a READ shows of the pairing slots: the lowest of those that satisfy `p`, with its door, or none where none does
(R131, R148, R149). -/
def State.slotShown (s : State) (p : Slot → Bool) : Option (SlotNo × DoorId) → Prop
  | none => ∀ k y, s.slot k = some y → p y = false
  | some (k, d) => (∃ y, s.slot k = some y ∧ p y = true ∧ y.door = d) ∧ ∀ j y, j < k → s.slot j = some y → p y = false

/-- The pairing slots, the doors and the drain counts agree (R30, R149): every slot in use is sound; no two serve one
door or hold one permit; every door in Pairing or Awaiting Consent has a slot; and every drain count is the number of
slots whose admission is counted in the space. -/
def State.pairingsSound (s : State) : Prop :=
  (∀ k x, s.slot k = some x → s.slotSound x) ∧
  (∀ j k x y, s.slot j = some x → s.slot k = some y →
    (x.door = y.door ∨ ∃ n, x.holds n = true ∧ y.holds n = true) → j = k) ∧
  (∀ d, (s.door d).admission.contractorSpace ≠ none → ∃ k x, s.slot k = some x ∧ x.door = d) ∧
  ∀ n, (s.space n).drain = (s.slotsCounted n).length

/-- No two records in use name the same room, and a record in use has at least one permit on its lists (R91). -/
def State.recordsSound (s : State) : Prop :=
  (∀ j k o o', s.record j = some o → s.record k = some o' → o.room = o'.room → j = k) ∧
  ∀ k o, s.record k = some o → o.inside ≠ [] ∨ o.pending ≠ []

/-- The load in use of each record is the sum of the weights of the permits on its lists, no permit stands on them
twice, those on the inside list are Inside the room and those on the pending list Pending for it; every permit Pending
or Inside is on its room's list; and each party load is the sum of the weights of the work order's permits that are
Pending or Inside (R91, R113). -/
def State.loadsSound (s : State) : Prop :=
  (∀ k o, s.record k = some o →
    (o.inside ++ o.pending).Nodup ∧ o.load = ((o.inside ++ o.pending).map s.weight).sum ∧
    (∀ n ∈ o.inside, ∃ p stay, s.permit n = some p ∧ p.state = .inside stay ∧ stay.room = o.room) ∧
    (∀ n ∈ o.pending, ∃ p d remote, s.permit n = some p ∧ p.state = .pending o.room d remote)) ∧
  (∀ n p room, s.permit n = some p → p.state.room = some room →
    ∃ k o, s.record k = some o ∧ o.room = room ∧ n ∈ o.inside ++ o.pending) ∧
  ∀ w r, s.workOrder w = some r →
    r.party = ((numbersWhere (fun x => match x with
      | some p => p.workOrder = w && p.state.counted
      | none => false) s.permits).map s.weight).sum

/-- A Free block holds eight entries of which every byte is zero (R1). -/
def State.freeBlocksZero (s : State) : Prop := ∀ b, (s.block b).owner = none → s.block b = Block.free

/-- In Lockdown no admission waits for an escort or a consent, no door is open for an Enter, no Open to an Enter waits
to be sent to a door, and no lane is sending one (R86, R87, R136, R147). -/
def State.lockdownQuiet (s : State) : Prop :=
  s.posture = .lockdown →
    (∀ d,
      (∀ v ∈ (s.door d).outgoing, v.outcome ≠ .admitted) ∧
      match (s.door d).admission with
      | .idle | .openExit .. => True
      | .pairing .. | .awaitingConsent .. | .openEnter .. => False) ∧
    ∀ l v, (s.lane l).phase = .sendingVerdict v → v.outcome ≠ .admitted

/-- The books of the device balance: what the space directory, the work-order table, the permit table, the pairing
slots, the doors and the occupancy table say of one another agrees (R30, R91, R102, R113, R118, R149). -/
def State.booksBalance (s : State) : Prop :=
  s.spacesSound ∧ s.rosterFixed ∧ s.workOrdersSound ∧ s.permitsSound ∧ s.pairingsSound ∧ s.recordsSound ∧
  s.loadsSound

end Sys2Proof.Machine
end

