-- ==== Sys2Proof/Certificates/Slice0/Obligations.lean ====
section
/-! DEFINITION. The statements about the model. Each docstring names the rules of spec/ that the statement rests on,
and says where a clause is the model's choice. `out` stands for what the command or event answers. -/

open Sys2Proof Sys2Proof.Machine

/-! ### The queue, the ports and the frames -/

/-- A step carries out the command at the front of the queue with the queue's rest, and on an empty queue nothing
happens. The queue and the idle step are the model's (assumption 1). -/
def Obligations.StepCarriesOutFrontCommand : Prop :=
  (∀ (s : State) (c : Instr) (rest : List Instr), s.pending = c :: rest → step s = exec c { s with pending := rest }) ∧
  (∀ s : State, s.pending = [] → step s = .next s)

/-- Reading back the code and payload of a well-formed command gives the command (R168, R169). Reading back the frame
with which a door unit makes a report gives the report, and a frame that R166 ignores, or a PRESENT that it does not
take, leaves the poll unanswered. -/
def Obligations.CommandFrameRoundTrip : Prop :=
  (∀ (c : Instr) (p : Authority) (code : Byte) (bytes : List Byte),
    WellFormed c = true → encodeCommand c = some (p, code, bytes) → decodeCommand p code bytes = c) ∧
  (∀ (c : Instr) (l : LaneNo) (frame : List Byte),
    WellFormed c = true → encodeAnswer c = some (l, frame) → decodeAnswer l frame = c) ∧
  ∀ (l : LaneNo) (d : DoorAddress) (address kind length intent c1 c0 : Byte) (credential : Word32) (rest : List Byte),
    (rest.length ≠ length.toNat + 2 → decodeAnswer l (address :: kind :: length :: rest) = .pollUnanswered l) ∧
    (rest.length = length.toNat → word16 c1 c0 ≠ frameCheck (address :: kind :: length :: rest) →
      decodeAnswer l (address :: kind :: length :: rest ++ [c1, c0]) = .pollUnanswered l) ∧
    ((credential = 0 ∨ intent.toNat = 0 ∨ 3 < intent.toNat) →
      decodeAnswer l (laneFrame d 8 (bytes32 credential ++ [intent])) = .pollUnanswered l)

/-- The receiver of a port (R167, R169, R178). A command frame with a good check that finds the receive frame buffer
empty is taken at its last byte, and does what its command's row does; while a reply waits it is held in the buffer,
and a frame that begins behind it is discarded. A frame of kind 2 or 3, and one whose check fails, is discarded; and
nothing else changes. A gap, a framing error and a bad length send the receiver back to hunting and change nothing
else; a break also empties the notice queue and clears the dropped flag of its port. That BAD_LENGTH with a good
length, which no receiver raises, changes nothing is the model's choice (assumption 5). -/
def Obligations.ReceiverTakesGoodFramesOnly : Prop :=
  (∀ (s : State) (p : Authority) (kind code c1 c0 : Byte) (payload : List Byte),
     s.waiting = [] → (s.port p).receiver = .hunting → payload.length ≤ 2046 →
     let body := num2 (payload.length + 2) ++ [kind, code] ++ payload
     let out := fun bytes => exec (.commandFrameReceived p bytes) s
     let settled := (s.port p).buffer = none ∨ (s.port p).reply ≠ none
     (kind = 1 → (s.port p).buffer = none → (s.port p).reply = none →
       out (portFrame kind code payload) = exec (decodeCommand p code payload) s) ∧
     (kind = 1 → (s.port p).buffer = none → (s.port p).reply ≠ none →
       out (portFrame kind code payload) = .next (s.setPort p { s.port p with buffer := some ⟨code, payload⟩ })) ∧
     (kind = 1 → (s.port p).buffer ≠ none → (s.port p).reply ≠ none → out (portFrame kind code payload) = .next s) ∧
     (kind ≠ 1 → settled → out (portFrame kind code payload) = .next s) ∧
     (word16 c1 c0 ≠ frameCheck body → settled → out (126 :: body ++ [c1, c0]) = .next s)) ∧
  (∀ (s : State) (p : Authority) (length : Word16),
     let hunting : Port := { s.port p with receiver := .hunting }
     exec (.frameGapTimeout p) s = .next (s.setPort p hunting) ∧
     exec (.framingError p) s = .next (s.setPort p hunting) ∧
     ((length.toNat < 2 ∨ 2048 < length.toNat) → exec (.badLength p length) s = .next (s.setPort p hunting)) ∧
     (2 ≤ length.toNat → length.toNat ≤ 2048 → exec (.badLength p length) s = .next s) ∧
     exec (.portBreak p) s = .next (s.setPort p { hunting with queue := [], dropped := false }))

/-- A notice joins the queue of a port by its class and the number of entries held (the table of R174). The transmitter,
when it finishes a frame and when the ready line is asserted, chooses a waiting reply first; else, with the ready line
asserted, the oldest notice, which carries the dropped mark and clears the flag; else nothing (R174, R176). A notice
queued to an idle transmitter begins at once where the line is asserted at that choice, and waits where it is not. The
attention line is asserted while a Safety notice is queued: it rises as one joins, and no Routine notice moves it
(R177). Where the level at a choice comes from, and that at an idle transmitter no frame finishes, is the model's
(assumptions 3 and 5). -/
def Obligations.QueueAndTransmitterRules : Prop :=
  (∀ (q : Port) (n : Notice), q.queue.length ≤ 32 →
     (n.isSafety = false → q.queue.length ≤ 29 → q.join n = { q with queue := q.queue ++ [n] }) ∧
     (n.isSafety = false → 30 ≤ q.queue.length → q.join n = { q with dropped := true }) ∧
     (n.isSafety = true → q.queue.length ≤ 31 → q.join n = { q with queue := q.queue ++ [n] }) ∧
     (∀ before r after, n.isSafety = true → q.queue.length = 32 → q.queue = before ++ r :: after →
       r.isSafety = false → (∀ m ∈ before, m.isSafety = true) →
       q.join n = { q with queue := before ++ after ++ [n] }) ∧
     (n.isSafety = true → q.queue.length = 32 → (∀ m ∈ q.queue, m.isSafety = true) →
       q.join n = { q with dropped := true })) ∧
  (∀ (q : Port) (n : Notice),
     (q.attention = true ↔ ∃ m ∈ q.queue, m.isSafety = true) ∧
     (n.isSafety = true → q.queue.length ≤ 32 → (q.join n).attention = true) ∧
     (n.isSafety = false → (q.join n).attention = q.attention)) ∧
  (∀ (s : State) (a : Authority) (n : Notice) (level : Bool) (rest : List Bool),
     let q := s.port a
     ((∃ frame, q.transmitter = some frame) → s.notify a n = s.setPort a (q.join n)) ∧
     (q.transmitter = none → q.reply = none → q.queue = [] → q.levels = level :: rest →
       (level = true → s.notify a n = s.setPort a
         { q with ready := true, levels := rest, dropped := false, transmitter := some (n.frame q.dropped) }) ∧
       (level = false → s.notify a n = s.setPort a { q with ready := false, levels := rest, queue := [n] }))) ∧
  (∀ (s : State) (p : Authority) (ready : Bool),
     let q := s.port p
     let out := exec (.frameFinished p ready) s
     (q.transmitter = none → out = .next s) ∧
     (q.transmitter ≠ none → q.buffer = none →
       (∀ r, q.reply = some r →
         out = .next (s.setPort p { q with ready := ready, reply := none, transmitter := some r.frame })) ∧
       (∀ n rest, q.reply = none → ready = true → q.queue = n :: rest →
         out = .next (s.setPort p
           { q with ready := true, queue := rest, dropped := false, transmitter := some (n.frame q.dropped) })) ∧
       (q.reply = none → (ready = false ∨ q.queue = []) →
         out = .next (s.setPort p { q with ready := ready, transmitter := none }))) ∧
     (∀ n rest, q.transmitter = none → q.reply = none → q.queue = n :: rest →
       exec (.readyLineAsserted p) s = .next (s.setPort p
         { q with ready := true, queue := rest, dropped := false, transmitter := some (n.frame q.dropped) })) ∧
     ((q.transmitter ≠ none ∨ (q.reply = none ∧ q.queue = [])) →
       exec (.readyLineAsserted p) s = .next (s.setPort p { q with ready := true })))

/-! ### Every command and event -/

/-- Taking a command makes its one reply ready in the same action, whatever the command does (R169, R176). A payload too
short or too long for its code is refused BAD_ARGUMENT, and a code that names no command is refused UNKNOWN_COMMAND;
nothing else changes (R169). That the size is judged before every other check of a command is the model's reading
(assumption 6). A command whose port has a reply waiting stays in the receive frame buffer, and the port takes it when
that reply begins to be sent; a frame that reaches a port whose buffer holds another is lost. That one row of the table
stands for a frame that is received and taken is the model's reading (assumption 4). -/
def Obligations.CommandRepliesOnceOrWaits : Prop :=
  (∀ (s : State) (c : Instr) (p : Authority) (code : Byte) (bytes : List Byte),
     s.waiting = [] → WellFormed c = true → encodeCommand c = some (p, code, bytes) → s.takes p code bytes →
     ∃ t a, exec c s = .next t ∧ s.replied t p code a) ∧
  (∀ (s : State) (p : Authority) (code : Byte) (bytes : List Byte), s.waiting = [] → s.takes p code bytes →
     (∀ c : Instr, isMalformed c = true → encodeCommand c = some (p, code, bytes) →
       exec c s = .next (s.answered p code (.refused .badArgument []))) ∧
     ((code.toNat = 0 ∨ 31 < code.toNat) →
       exec (.unknownCommand p code bytes) s = .next (s.answered p code (.refused .unknownCommand [])))) ∧
  (∀ (s : State) (c : Instr) (p : Authority) (code : Byte) (bytes : List Byte),
     s.waiting = [] → WellFormed c = true → encodeCommand c = some (p, code, bytes) →
     ((s.port p).reply ≠ none → ((s.port p).buffer = none ∨ (s.port p).buffer = some ⟨code, bytes⟩) →
       exec c s = .next (s.setPort p { s.port p with buffer := some ⟨code, bytes⟩ })) ∧
     ((s.port p).buffer ≠ none → (s.port p).buffer ≠ some ⟨code, bytes⟩ → exec c s = .next s)) ∧
  (∀ (s : State) (p : Authority) (ready : Bool) (r : Reply) (f : CommandFrame),
     s.waiting = [] → (s.port p).transmitter ≠ none → (s.port p).reply = some r → (s.port p).buffer = some f →
     exec (.frameFinished p ready) s = exec (decodeCommand p f.code f.payload) (s.setPort p
       { s.port p with ready := ready, buffer := none, reply := none, transmitter := some r.frame }))

/-- Every command or event is carried out in every state, with no fault and no refusal (assumption 5), and changes no
part of the device that the rules of its row do not change (spec/95_what_each_step_holds.md): the parts outside
`mayChange` stay as they are. Where other commands and events meet its resolution requests (assumption 13), it changes
beside these only what those may change, with the decisions that they begin. That no decision waits for the resolver
between two steps is the model's reading of R38 (assumption 13); every step keeps it, as a statement of its own says. -/
def Obligations.EveryStepChangesOnlyItsParts : Prop :=
  ∀ (c : Instr) (s : State), ∃ t, exec c s = .next t ∧
    (s.waiting = [] → (makesRequests c = false ∨ s.meetings = []) → s.changesOnly (mayChange c) t) ∧
    (s.waiting = [] → makesRequests c = true → s.changesOnly (mayChange c ++ s.mayMeet) t)

/-! ### The rights memory -/

/-- WRITE BLOCK: its checks in order (R15); and the block becomes the sender's, with the kind and the entries written,
as one change, and the reply carries its old codes (R15, R16). READ BLOCK (R19): the owner code, kind code and 64 bytes
as they stand, whoever owns the block; of a Free block, zeros (R1). -/
def Obligations.BlocksAreWrittenAndRead : Prop :=
  (∀ (s : State) (p : Authority) (a : WriteBlockArgs),
     (∀ bytes, s.takes p 1 bytes →
       exec (.writeBlock p (.malformed bytes)) s = .next (s.answered p 1 (.refused .badArgument []))) ∧
     (s.takes p 1 a.encode →
       let out := exec (.writeBlock p (.fields a)) s
       ((511 < a.block.toNat ∨ a.kind.toNat = 0 ∨ 3 < a.kind.toNat) →
         out = .next (s.answered p 1 (.refused .badArgument []))) ∧
       ∀ (b : BlockNo) (k : Kind), a.block.toNat = b.val → a.kind = kindCode (some (p, k)) →
         (∀ o k', (s.block b).owner = some (o, k') → o ≠ p →
           out = .next (s.answered p 1 (.refused .notOwner (num2 b.val)))) ∧
         ((∀ o k', (s.block b).owner = some (o, k') → o = p) →
           out = .next ((s.setBlock b ⟨some (p, k), a.entries⟩).answered p 1
             (.accepted (num2 b.val ++ [ownerCode (s.block b).owner, kindCode (s.block b).owner])))))) ∧
  (∀ (s : State) (p : Authority) (a : ReadBlockArgs), s.takes p 3 a.encode →
     let out := exec (.readBlock p (.fields a)) s
     (511 < a.block.toNat → out = .next (s.answered p 3 (.refused .badArgument []))) ∧
     ∀ b : BlockNo, a.block.toNat = b.val →
       out = .next (s.answered p 3 (.accepted
         ([ownerCode (s.block b).owner, kindCode (s.block b).owner] ++ (s.block b).bytes.toList))) ∧
       (s.freeBlocksZero → (s.block b).owner = none →
         out = .next (s.answered p 3 (.accepted ([0, 0] ++ List.replicate 64 0)))))

/-- FREE BLOCKS, whole (R17, R18): its checks in order, each refusal with the lowest block that fails, and every block
of the range made Free at once. -/
def Obligations.FreeBlocksTakesOrRefuses : Prop :=
  ∀ (s : State) (p : Authority) (a : FreeBlocksArgs), s.takes p 2 a.encode →
    let out := exec (.freeBlocks p (.fields a)) s
    let inRange := fun b : BlockNo => a.first.toNat ≤ b.val ∧ b.val < a.first.toNat + a.count.toNat
    let owned := fun b : BlockNo => ∃ k, (s.block b).owner = some (p, k)
    let named := fun b : BlockNo => ∃ n d, (s.space n).describes d ∧ d.names b.val = true
    ((a.count.toNat = 0 ∨ 512 < a.first.toNat + a.count.toNat) →
      out = .next (s.answered p 2 (.refused .badArgument []))) ∧
    (a.count.toNat ≠ 0 → a.first.toNat + a.count.toNat ≤ 512 →
      (∀ b, inRange b → ¬ owned b → (∀ c, inRange c → c < b → owned c) →
        out = .next (s.answered p 2 (.refused .notOwner (num2 b.val)))) ∧
      ((∀ b, inRange b → owned b) →
        (∀ b, inRange b → named b → (∀ c, inRange c → c < b → ¬ named c) →
          out = .next (s.answered p 2 (.refused .inUse (num2 b.val)))) ∧
        ((∀ b, inRange b → ¬ named b) →
          ∃ t, s.changesOnly [.blocks] t ∧ (∀ b, inRange b → t.block b = Block.free) ∧
            (∀ b, ¬ inRange b → t.block b = s.block b) ∧
            out = .next (t.answered p 2 (.accepted (num2 a.first.toNat ++ num2 a.count.toNat))))))

/-! ### The space directory and the cache -/

/-- DEFINE SPACE (R24, R25): its checks in order, and the lowest record out of use taken with its generation advanced.
That a scope or flag code outside its set is refused BAD_ARGUMENT is from R169 (assumption 8). -/
def Obligations.DefineSpaceTakesOrRefuses : Prop :=
  ∀ (s : State) (p : Authority) (a : DescriptorArgs), s.takes p 4 a.encode →
    let out := exec (.defineSpace p (.fields a)) s
    ((∀ d, carriesDescriptor a d → d.topOrigin = none) →
      out = .next (s.answered p 4 (.refused .badArgument []))) ∧
    ∀ d, carriesDescriptor a d → d.authority = p → d.topOrigin ≠ none →
      let ready := fun b : BlockNo => (s.block b).owner = some (p, d.scope.kind)
      (p = .sec → out = .next (s.answered p 4 (.refused .notPermitted []))) ∧
      (p ≠ .sec →
        (∀ b : BlockNo, d.names b.val = true → ¬ ready b → (∀ c : BlockNo, d.names c.val = true → c < b → ready c) →
          out = .next (s.answered p 4 (.refused .tableNotReady (num2 b.val)))) ∧
        ((∀ b : BlockNo, d.names b.val = true → ready b) →
          ((∀ n : SpaceNo, 2 ≤ n.val → (s.space n).inUse = true) →
            out = .next (s.answered p 4 (.refused .spaceTableFull []))) ∧
          ∀ n : SpaceNo, 2 ≤ n.val → (s.space n).inUse = false →
            (∀ m : SpaceNo, 2 ≤ m.val → m < n → (s.space m).inUse = true) →
            out = .next ((s.setSpace n ⟨some d, none, (s.space n).generation + 1, 0⟩).answered p 4
              (.accepted (num1 n.val ++ [(s.space n).generation + 1])))))

/-- STAGE SPACE (R24, R27, R28, R29): its checks in order; with drain count 0 the switch at once and SPACE_SWITCHED to
the owner behind the reply; otherwise the staged descriptor and the deadline 120 seconds on. That a scope or flag code
outside its set is refused BAD_ARGUMENT is from R169 (assumption 8). -/
def Obligations.StageSpaceTakesOrRefuses : Prop :=
  ∀ (s : State) (p : Authority) (a : StageSpaceArgs), s.takes p 5 a.encode →
    let out := exec (.stageSpace p (.fields a)) s
    let good := fun (n : SpaceNo) (d : Descriptor) => a.space.toNat = n.val ∧ carriesDescriptor a.descriptor d ∧
      (2 ≤ n.val → d.topOrigin ≠ none) ∧ (n.val ≤ 1 → d.scope = .estate) ∧ (n.val = 0 → d.isPrivate = true)
    ((∀ n d, ¬ good n d) → out = .next (s.answered p 5 (.refused .badArgument []))) ∧
    ∀ n d, good n d → d.authority = p →
      let r := s.space n
      let ready := fun b : BlockNo => (s.block b).owner = some (p, d.scope.kind)
      (r.owner ≠ some p → out = .next (s.answered p 5 (.refused .notPermitted []))) ∧
      (r.owner = some p →
        (r.go = true → out = .next (s.answered p 5 (.refused .stagePending []))) ∧
        (r.go = false →
          (∀ b : BlockNo, d.names b.val = true → ¬ ready b →
            (∀ c : BlockNo, d.names c.val = true → c < b → ready c) →
            out = .next (s.answered p 5 (.refused .tableNotReady (num2 b.val)))) ∧
          ((∀ b : BlockNo, d.names b.val = true → ready b) →
            (r.drain = 0 → out = .next (((s.setSpace n ⟨some d, none, r.generation + 1, 0⟩).answered p 5
              (.accepted (num1 n.val ++ [0, r.generation + 1]))).notify p
                (.spaceSwitched n (r.generation + 1) .immediate 0))) ∧
            (r.drain ≠ 0 → out = .next ((s.setSpace n { r with waiting := some ⟨d, s.count + 120⟩ }).answered p 5
              (.accepted (num1 n.val ++ [1, r.generation])))))))

/-- CANCEL STAGE, whole (R33): its checks in order; the staged descriptor, Go and the deadline go, and the current
descriptor, the generation and the drain count stay. RETIRE SPACE, whole (R35): its checks in order; the record leaves
use and keeps its generation. -/
def Obligations.StageIsCancelledAndSpaceRetired : Prop :=
  (∀ (s : State) (p : Authority) (a : NumberArgs), s.takes p 6 a.encode →
     let out := exec (.cancelStage p (.fields a)) s
     (63 < a.number.toNat → out = .next (s.answered p 6 (.refused .badArgument []))) ∧
     ∀ n : SpaceNo, a.number.toNat = n.val →
       ((s.space n).owner ≠ some p → out = .next (s.answered p 6 (.refused .notPermitted []))) ∧
       ((s.space n).owner = some p → (s.space n).go = false →
         out = .next (s.answered p 6 (.refused .notStaged []))) ∧
       ((s.space n).owner = some p → (s.space n).go = true →
         out = .next ((s.setSpace n { s.space n with waiting := none }).answered p 6 (.accepted [])))) ∧
  (∀ (s : State) (p : Authority) (a : NumberArgs), s.takes p 7 a.encode →
     let out := exec (.retireSpace p (.fields a)) s
     (63 < a.number.toNat → out = .next (s.answered p 7 (.refused .badArgument []))) ∧
     ∀ n : SpaceNo, a.number.toNat = n.val →
       let names := fun w : WorkOrderNo => ∃ r, s.workOrder w = some r ∧ ∃ o ∈ r.options, o.space = n
       ((n.val ≤ 1 ∨ (s.space n).owner ≠ some p) → out = .next (s.answered p 7 (.refused .notPermitted []))) ∧
       (2 ≤ n.val → (s.space n).owner = some p →
         ((s.space n).go = true → out = .next (s.answered p 7 (.refused .stagePending []))) ∧
         ((s.space n).go = false →
           (∀ w, names w → (∀ v < w, ¬ names v) → out = .next (s.answered p 7 (.refused .inUse (num1 w.val)))) ∧
           ((∀ w, ¬ names w) →
             out = .next ((s.setSpace n { s.space n with current := none }).answered p 7 (.accepted (num1 n.val)))))))

/-- PURGE (R70, R71): its checks in order, the entries removed, and their number. That the reply of form All echoes the
argument byte received is the model's choice (assumption 37). -/
def Obligations.PurgeTakesOrRefuses : Prop :=
  ∀ (s : State) (p : Authority) (a : PurgeArgs), s.takes p 9 a.encode →
    let out := exec (.purge p (.fields a)) s
    let inRange := a.form = 0 ∨ (a.form = 1 ∧ a.argument.toNat ≤ 63) ∨ (a.form = 2 ∧ a.argument.toNat ≤ 127)
    let own := a.form = 1 ∧ ∀ n : SpaceNo, n.val = a.argument.toNat → (s.space n).owner = some p
    let kept := s.cache.filter fun e =>
      if a.form = 0 then false
      else if a.form = 1 then e.space.val ≠ a.argument.toNat
      else e.summary.covers.site.val ≠ a.argument.toNat
    (¬ inRange → out = .next (s.answered p 9 (.refused .badArgument []))) ∧
    (inRange → p ≠ .sec → ¬ own → out = .next (s.answered p 9 (.refused .notPermitted []))) ∧
    (inRange → (p = .sec ∨ own) →
      out = .next ({ s with cache := kept }.answered p 9
        (.accepted ([a.form, a.argument] ++ num1 (s.cache.length - kept.length)))))

/-- SWITCH_DEADLINE (R32), in a state whose pairings are sound. Before the deadline, or with Go clear, nothing happens.
At the deadline every admission counted in the space is abandoned, the doors served by the other slots stay as they
are, and the staged descriptor becomes current with the generation advanced once and drain count 0. -/
def Obligations.ForcedSwitchAbandonsAndApplies : Prop :=
  ∀ (s : State) (n : SpaceNo),
    let out := exec (.switchDeadline n) s
    ((∀ w, (s.space n).waiting = some w → s.count < w.deadline) → out = .next s) ∧
    (∀ w, s.pairingsSound → (s.space n).waiting = some w → w.deadline ≤ s.count →
      ∃ t, out = .next t ∧ s.changesOnly [.spaces, .doors, .slots, .ports] t ∧
        t.space n = ⟨some w.descriptor, none, (s.space n).generation + 1, 0⟩ ∧
        (∀ k, k ∈ s.slotsCounted n → t.slot k = none) ∧ (∀ k, k ∉ s.slotsCounted n → t.slot k = s.slot k) ∧
        (∀ k x, k ∈ s.slotsCounted n → s.slot k = some x → t.door x.door =
          { s.door x.door with
            admission := .idle
            outgoing := (s.door x.door).outgoing.map Verdict.ended ++
              [⟨.deny .spaceSwitched, s.pairingCredentials x, false⟩] }) ∧
        (∀ d, (∀ k x, k ∈ s.slotsCounted n → s.slot k = some x → x.door ≠ d) → t.door d = s.door d))

/-- The resolution cache and the resolver (R16, R26, R38, R46, R64, R65, R66, R67, R68, R72, R73). A request that hits
is answered with the summary that was filled, whatever the blocks hold, and its entry becomes the most recent; a walk's
summary is filled at the most recent position, and of 32 entries the least recent leaves; a fault is not filled. The
entry hit is the most recent of the first sort that has any: tagged for the room, tagged zone-wide, and in a space
that is not private common for the room, common zone-wide; with none of these the lookup misses. While a decision waits
for a request a row may be taken, and one that makes requests is taken up to its first, which waits. One taken before
the lookup is seen by the lookup and by all that follows. After the lookup the walk keeps the descriptor and the
generation of the lookup, whatever switches its space; a read made before a WRITE BLOCK or FREE BLOCKS finds the block
as it was and one made after it as it became; a PURGE leaves the summary to be handed on, unfilled where the PURGE
covers the request and filled where it does not or is refused; and an accepted ESTATE CLEAR discards the request. So it
is with grant requests and with overlay requests. Which rows meet a request, and where, is the model's own input, and
that a row which would change what the decision is about, or begin another about the same, is not taken then is its
reading of R134; that a SET CLOCK, the entry of a minute, and a command, a presentation or a passage for the work order of
a selection, or for one whose turn in the same row is still to come, are taken before it or after it is its reading of
R77, R112 and section 7.3 (assumption 13). -/
def Obligations.CacheServesWhatWasFilled : Prop :=
  (∀ (s : State) (x : Decision) (n : SpaceNo) (r : Designator) (d : Descriptor),
     s.waiting = [] → (s.space n).current = some d →
     let resolve := resolveGrant x n r
     let walk := fun see => grantWalk see d r
     (s.meetings = [] → s.servesAlone resolve walk .grant n r d) ∧ s.servesAfter x resolve r ∧
       s.servesAround x resolve walk .grant n r d) ∧
  (∀ (s : State) (x : Decision) (r : Designator) (d : Descriptor),
     s.waiting = [] → (s.space 0).current = some d →
     let resolve := resolveOverlay x r
     let walk := fun see => overlayWalk see d r
     (s.meetings = [] → s.servesAlone resolve walk .overlay 0 r d) ∧ s.servesAfter x resolve r ∧
       s.servesAround x resolve walk .overlay 0 r d) ∧
  (∀ (n : SpaceNo) (g : BitVec 8) (isPrivate : Bool) (r : Designator) (cache : List CacheEntry),
     let pick := cachePick n g isPrivate r cache
     let tagged := fun f : CacheEntry => f.space = n ∧ f.generation = g
     let forRoom := fun f : CacheEntry => f.summary.covers = ⟨r.site, r.zone, some r.room⟩
     let zoneWide := fun f : CacheEntry => f.summary.covers = ⟨r.site, r.zone, none⟩
     (∀ before f after, cache = before ++ f :: after →
       (tagged f → forRoom f → (∀ x ∈ before, ¬ (tagged x ∧ forRoom x)) → pick = some f) ∧
       (tagged f → zoneWide f → (∀ x ∈ cache, ¬ (tagged x ∧ forRoom x)) → (∀ x ∈ before, ¬ (tagged x ∧ zoneWide x)) →
         pick = some f) ∧
       (isPrivate = false → f.summary.common = true → (∀ x ∈ cache, tagged x → ¬ forRoom x ∧ ¬ zoneWide x) →
         (forRoom f → (∀ x ∈ before, ¬ (x.summary.common = true ∧ forRoom x)) → pick = some f) ∧
         (zoneWide f → (∀ x ∈ cache, ¬ (x.summary.common = true ∧ forRoom x)) →
           (∀ x ∈ before, ¬ (x.summary.common = true ∧ zoneWide x)) → pick = some f))) ∧
     ((∀ x ∈ cache, forRoom x ∨ zoneWide x → ¬ tagged x ∧ (isPrivate = true ∨ x.summary.common = false)) →
       pick = none))

/-- The walks of the rights tables. One level reads its entry (R42, R43, R44, R45): LENGTH, TABLE_FREE, FOREIGN_TABLE
and TABLE_KIND are judged in that order, and the entry is read at index div 8 and index mod 8. A grant walk (R12, R13,
R40, R41, R47, R48, R49, R50, R51, R52) ends NOT_GRANTED with no top table and OUT_OF_SCOPE outside its scope; it
judges each entry for valid, window, common in a private space and pointer, in that order; and its summary gathers
escort, windows and common along the path and takes the rest from the zone entry, or from a Blanket site entry, which
ends it. Each read finds the device as it is at that read (R46). The fields of an entry stand in its eight bytes as
R11 places them. -/
def Obligations.WalkJudgesBlockInOrder : Prop :=
  (∀ (b : Block) (pos : Nat), pos < 8 →
    let e := b.entry pos
    let byte := fun k : Nat => (b.bytes.toList.getD (8 * pos + k) 0).toNat
    (e.valid = true ↔ byte 0 / 128 = 1) ∧ (e.blanket = true ↔ byte 0 / 64 % 2 = 1) ∧
    (e.common = true ↔ byte 0 / 32 % 2 = 1) ∧ (e.escort = true ↔ byte 0 / 16 % 2 = 1) ∧
    (e.remote = true ↔ byte 0 / 8 % 2 = 1) ∧
    e.window = (if byte 0 / 4 % 2 = 1 then some ⟨256 * byte 1 + byte 2, 256 * byte 3 + byte 4⟩ else none) ∧
    e.origin = 256 * byte 5 + byte 6 ∧ e.length = byte 7 ∧
    (e.custodian = .landlord ↔ byte 5 / 128 = 1) ∧ e.category = byte 5 % 4 ∧ e.guaranteed = byte 6 % 64 ∧
    e.ceiling = byte 7 % 128) ∧
  (∀ (s : State) (owner : Option Authority) (kind : Kind) (origin length index : Nat),
    let read := readEntry s owner kind origin length index
    (8 * length ≤ index → read = .error .length) ∧
    ∀ b : BlockNo, index < 8 * length → b.val = origin + index / 8 →
      ((s.block b).owner = none → read = .error .tableFree) ∧
      ∀ o k, (s.block b).owner = some (o, k) →
        ((∃ a, owner = some a ∧ a ≠ o) → read = .error .foreignTable) ∧
        ((∀ a, owner = some a → a = o) → k ≠ kind → read = .error .tableKind) ∧
        ((∀ a, owner = some a → a = o) → k = kind → read = .ok ((s.block b).entry (index % 8)))) ∧
  (∀ (see : Kind → State) (d : Descriptor) (r : Designator),
    let walk := grantWalk see d r
    let fault := fun (e : Entry) (common points : Bool) =>
      if e.valid = false then some DenyCode.notGranted
      else if e.window.any fun w => decide (1440 ≤ w.start) then some .entryInvalid
      else if d.isPrivate ∧ common ∧ e.common then some .privateConflict
      else if points ∧ (e.length = 0 ∨ 4 < e.length) then some .entryInvalid
      else if points ∧ 512 < e.origin + e.length then some .badOrigin
      else none
    let own := fun common : Bool => if common then none else some d.authority
    let window := fun e : Entry => e.window.toList.map fun w => Window.mk w.start (min w.length 1440)
    let summary := fun (e : Entry) (room : Option RoomNo) (escort : Bool) (windows : List Window) (common : Bool) =>
      GrantSummary.mk ⟨r.site, r.zone, room⟩ e.category e.custodian e.guaranteed e.ceiling e.remote escort windows common
    let zoneLevel := fun (origin length : Nat) (escort : Bool) (windows : List Window) (common : Bool) =>
      (∀ c, readEntry (see .zone) (own common) .zone origin length r.room.val = .error c → walk = .error c) ∧
      ∀ e, readEntry (see .zone) (own common) .zone origin length r.room.val = .ok e →
        (∀ c, fault e false false = some c → walk = .error c) ∧
        (fault e false false = none →
          walk = .ok (summary e (some r.room) (escort || e.escort) (windows ++ window e) common))
    let siteLevel := fun (origin length : Nat) (escort : Bool) (windows : List Window) (common : Bool) =>
      (∀ c, readEntry (see .site) (own common) .site origin length r.zone.val = .error c → walk = .error c) ∧
      ∀ e, readEntry (see .site) (own common) .site origin length r.zone.val = .ok e →
        (∀ c, fault e true (!e.blanket) = some c → walk = .error c) ∧
        (fault e true (!e.blanket) = none →
          (e.blanket = true →
            walk = .ok (summary e none (escort || e.escort) (windows ++ window e) (common || e.common))) ∧
          (e.blanket = false →
            zoneLevel e.origin e.length (escort || e.escort) (windows ++ window e) (common || e.common)))
    (d.topOrigin = none → walk = .error .notGranted) ∧
    ∀ o, d.topOrigin = some o →
      (d.scope = .estate →
        (∀ c, readEntry (see .estate) (some d.authority) .estate o.val d.topLength r.site.val = .error c → walk = .error c) ∧
        ∀ e, readEntry (see .estate) (some d.authority) .estate o.val d.topLength r.site.val = .ok e →
          (∀ c, fault e true true = some c → walk = .error c) ∧
          (fault e true true = none → siteLevel e.origin e.length e.escort (window e) e.common)) ∧
      (∀ st, d.scope = .site st →
        (r.site ≠ st → walk = .error .outOfScope) ∧ (r.site = st → siteLevel o.val d.topLength false [] false)) ∧
      (∀ st z, d.scope = .zone st z →
        ((r.site ≠ st ∨ r.zone ≠ z) → walk = .error .outOfScope) ∧
        (r.site = st → r.zone = z → zoneLevel o.val d.topLength false [] false)))

/-- The overlay walk (R12, R13, R54, R55, R56, R57, R58). With no top table it yields no item, zone-wide. Any fault of a
level, of a window or of a pointer is OVERLAY_FAULT, and no owner is judged. A common or escort entry adds an item with
its bar and force flags and its window; an entry that is not valid ends the walk, zone-wide above the zone level, as a
Blanket site entry does once its item is added; and the zone level speaks for the one room. Each read finds the device
as it is at that read (R46). -/
def Obligations.OverlayWalkGathersItems : Prop :=
  ∀ (see : Kind → State) (d : Descriptor) (r : Designator),
    let walk := overlayWalk see d r
    let fault := fun (e : Entry) (points : Bool) => e.valid = true ∧
      ((∃ w, e.window = some w ∧ 1440 ≤ w.start) ∨ (points = true ∧ (e.length = 0 ∨ 4 < e.length ∨ 512 < e.origin + e.length)))
    let item := fun e : Entry => if e.valid ∧ (e.common ∨ e.escort) then
      [OverlayItem.mk e.common e.escort (e.window.map fun w => ⟨w.start, min w.length 1440⟩)] else []
    let zoneWide := fun items => walk = .ok ⟨⟨r.site, r.zone, none⟩, items⟩
    (d.topOrigin = none → zoneWide []) ∧
    ∀ o, d.topOrigin = some o →
      let estate := readEntry (see .estate) none .estate o.val d.topLength r.site.val
      (∀ c, estate = .error c → walk = .error .overlayFault) ∧
      ∀ e, estate = .ok e →
        (fault e true → walk = .error .overlayFault) ∧
        (¬ fault e true →
          (e.valid = false → zoneWide []) ∧
          (e.valid = true →
            let site := readEntry (see .site) none .site e.origin e.length r.zone.val
            (∀ c, site = .error c → walk = .error .overlayFault) ∧
            ∀ f, site = .ok f →
              (fault f (!f.blanket) → walk = .error .overlayFault) ∧
              (¬ fault f (!f.blanket) →
                ((f.valid = false ∨ f.blanket = true) → zoneWide (item e ++ item f)) ∧
                (f.valid = true → f.blanket = false →
                  let zone := readEntry (see .zone) none .zone f.origin f.length r.room.val
                  (∀ c, zone = .error c → walk = .error .overlayFault) ∧
                  ∀ z, zone = .ok z →
                    (fault z false → walk = .error .overlayFault) ∧
                    (¬ fault z false →
                      walk = .ok ⟨⟨r.site, r.zone, some r.room⟩, item e ++ item f ++ item z⟩)))))

/-- The rights to a room are judged in this order, and nothing changes but by the two requests (R59, R60, R61, R138):
the grant request, the overlay request, an active bar, the custodian against the authority of the space and the
endorsements, and every window. A request that an ESTATE CLEAR discards ends the judgement (R38). The requirement
level is the category, and at least 1 where the grant or an active overlay item calls for an escort. Requests are served
in the order in which they are made (R38): where the request of another decision waits, it is served first, and the
overlay request that follows it waits behind; one ESTATE CLEAR discards both decisions; and behind a row the requests
that still wait are served until none waits. That no decision waits between two steps, and that the end of a decision
which would change what the other is about comes behind it, are the model's readings (assumption 13). -/
def Obligations.RightsAreJudgedInOrder : Prop :=
  (∀ (s s1 s2 : State) (x : Decision) (n : SpaceNo) (r : Designator) (w : WorkOrder) (optionWindow : Option Window)
    (minute : Nat) (g : GrantSummary) (ov : OverlaySummary) (a : Authority) (c : DenyCode),
    let rights := checkRights x n r w optionWindow minute s
    let active := fun i : OverlayItem => ∀ x, i.window = some x → x.contains minute = true
    let foreign := (a = .fac ∧ g.custodian = .landlord ∧ w.endorsedByLandlord = false) ∨
      (a = .lld ∧ g.custodian = .bank ∧ w.endorsedByFacilities = false)
    let windows := g.windows ++ optionWindow.toList
    (resolveGrant x n r s = (s1, .discarded) → rights = (s1, .discarded)) ∧
    (resolveGrant x n r s = (s1, .error c) → rights = (s1, .error c)) ∧
    (resolveGrant x n r s = (s1, .ok g) →
      (resolveOverlay x r s1 = (s2, .discarded) → rights = (s2, .discarded)) ∧
      (resolveOverlay x r s1 = (s2, .error c) → rights = (s2, .error c)) ∧
      (resolveOverlay x r s1 = (s2, .ok ov) → (s2.space n).owner = some a →
        ((∃ i ∈ ov.items, i.bar = true ∧ active i) → rights = (s2, .error .securityBar)) ∧
        ((∀ i ∈ ov.items, i.bar = true → ¬ active i) →
          (foreign → rights = (s2, .error .custodian)) ∧
          (¬ foreign → (∃ x ∈ windows, x.contains minute = false) → rights = (s2, .error .outsideWindow)) ∧
          (¬ foreign → (∀ x ∈ windows, x.contains minute = true) → rights = (s2, .ok (g, ov)))))) ∧
    ((g.escort = true ∨ ∃ i ∈ ov.items, i.force = true ∧ active i) → requirementLevel g ov minute = max g.category 1) ∧
    (g.escort = false → (∀ i ∈ ov.items, i.force = true → ¬ active i) → requirementLevel g ov minute = g.category)) ∧
  (∀ (s : State) (x : Decision) (n : SpaceNo) (r : Designator),
    s.servesBehind x (resolveGrant x n r) r ∧ s.servesBehind x (resolveOverlay x r) r) ∧
  ∀ (s : State) (p : Option Authority), (s.settle p).waiting = [] ∧ (s.waiting = [] → s.settle p = s)

/-- The window test, the remaining minutes and the deadline (R79, R80, R82). -/
def Obligations.WindowTestAndRemaining : Prop :=
  ∀ (w : Window) (m : Nat), w.start ≤ 1439 → w.length ≤ 1440 → m ≤ 1439 →
    (w.contains m = true ↔ w.length = 1440 ∨ (w.start ≤ m ∧ m < w.start + w.length) ∨ m + 1440 < w.start + w.length) ∧
    (w.contains m = true →
      1 ≤ w.remaining m ∧ w.remaining m ≤ 1440 ∧ (w.length = 1440 → w.remaining m = 1440) ∧
      (w.length < 1440 → w.contains ((m + w.remaining m) % 1440) = false ∧
        ∀ j < w.remaining m, w.contains ((m + j) % 1440) = true) ∧
      ∀ (count : Nat) (t : ClockTime), t.second ≤ 59 →
        count + 1 ≤ minuteDeadline count t (w.remaining m) ∧
        minuteDeadline count t (w.remaining m) + t.second = count + 60 * w.remaining m)

/-! ### Clock, posture, site allowances, timings, power-on and clear -/

/-- SET CLOCK (R76, R77, R107, R108, R109, R111, R112, R115): its refusals; accepted, the clock is set and the count is
not, the reply gives the clock before, a day change expires every work order whose last day has passed and no other, and
every Active work order is selected again and every Lapsed one tested again. One that stands alone among these, with no
work order expiring, takes its best option at the new clock with the deadline counted from it, with OPTION_SELECTED
behind the reply, and SHORTFALL before it where the option falls short and that is not refused; where the selection
fails an Active one lapses with WORK_ORDER_LAPSED, and a Lapsed one stays as it is. That the sender is judged before the
values, the order of the two notices, and what meets the requests, are the model's (assumptions 7, 21 and 13). -/
def Obligations.SetClockSetsAndHandsOn : Prop :=
  ∀ (s : State) (p : Authority) (a : SetClockArgs), s.waiting = [] → s.takes p 10 a.encode →
    let out := exec (.setClock p (.fields a)) s
    let time : ClockTime := ⟨a.day.toNat, a.minute.toNat, a.second.toNat⟩
    let reply := Answer.accepted (clockBytes s.clock ++ num4 s.count)
    let late := fun w : WorkOrder => ∃ first last, w.days = some (first, last) ∧ last < a.day.toNat
    let changed := ∀ c, s.clock = some c → c.day ≠ a.day.toNat
    (p ≠ .sec → out = .next (s.answered p 10 (.refused .notPermitted []))) ∧
    (p = .sec → (1439 < a.minute.toNat ∨ 59 < a.second.toNat) →
      out = .next (s.answered p 10 (.refused .badArgument []))) ∧
    (p = .sec → a.minute.toNat ≤ 1439 → a.second.toNat ≤ 59 →
      (∃ t, out = .next t ∧ (s.meetingsSpare [.clock] → t.clock = some time) ∧ s.replied t p 10 reply ∧
        s.changesOnly ([.clock, .spaces, .cache, .workOrders, .permits, .doors, .slots, .ports] ++ s.mayMeet) t ∧
        (s.meetings = [] →
          s.changesOnly [.clock, .spaces, .cache, .workOrders, .permits, .doors, .slots, .ports] t) ∧
        ∀ n w, s.meetingsSpare [.workOrders] → n ≠ 0 → s.workOrder n = some w → w.isClosing = false →
          (changed → late w →
            if s.hasCounted n then
              t.workOrder n = some { w with
                state := .closing .expired, selected := none, capInForce := 0, deadline := none }
            else t.workOrder n = none) ∧
          (¬ (changed ∧ late w) →
            (w.state = .pending → t.workOrder n = some w) ∧
            (w.state = .active → ∃ w', t.workOrder n = some w' ∧
              (w'.state = .active ∧ w'.selected ≠ none ∧ w'.deadline ≠ none ∨ w' = w.asLapsed)) ∧
            (w.state = .lapsed → ∃ w', t.workOrder n = some w' ∧ (w' = w ∨ w'.state = .active)))) ∧
      ∀ n w, n ≠ 0 → s.workOrder n = some w → (w.state = .active ∨ w.state = .lapsed) →
        (∀ m v, m ≠ 0 → m ≠ n → s.workOrder m = some v → v.state ≠ .active ∧ v.state ≠ .lapsed) →
        (changed → ∀ m v, m ≠ 0 → s.workOrder m = some v → v.isClosing = false → ¬ late v) → s.meetings = [] →
        let tested := testOptions (.selection (some p) n []) ⟨some time, s.count⟩ w 1 w.options
          { s with clock := some time }
        let chosen := fun (k : Candidate) (short : Bool) => (tested.1.setWorkOrder n
          (some (w.withOption k short (minuteDeadline s.count time k.remaining)))).answered p 10 reply
        let failed := fun f : SelectionFailure =>
          (w.state = .active → out = .next (((tested.1.setWorkOrder n (some w.asLapsed)).answered p 10 reply).notify
            w.issuer (.workOrderLapsed n f))) ∧
          (w.state = .lapsed → out = .next (tested.1.answered p 10 reply))
        (∀ k, w.bestOf tested.2 k →
          (w.requiredMinimum ≤ k.cap → out = .next ((chosen k false).notify w.issuer
            (.optionSelected n k.index k.cap k.remaining k.level false))) ∧
          (k.cap < w.requiredMinimum → w.refuseOnShortfall = false → out = .next (((chosen k true).notify w.issuer
            (.shortfall n k.index k.cap w.requiredMinimum)).notify w.issuer
              (.optionSelected n k.index k.cap k.remaining k.level true))) ∧
          (k.cap < w.requiredMinimum → w.refuseOnShortfall = true → failed (.shortfall k.index k.cap))) ∧
        ∀ codes : List DenyCode, tested.2 = codes.map .error → failed (.noOption codes))

/-- SECOND_TICK (R74, R75, R108, R112): the count rises by one; an Unset clock stays; within a minute only the second
moves; at the end of day 65535 the clock becomes Unset and nothing is handed on. A new minute touches Lapsed work
orders alone: each is tested again, and the one of them that stands alone becomes Active with its best option, with
SHORTFALL where that falls short and is not refused, and else stays as it is with no notice. A test that an ESTATE
CLEAR discards changes no work order (R38). The order of the two notices, and what meets the requests, are the
model's (assumptions 21 and 13). Decisions that a row begun meanwhile left waiting are then served (R38, assumption
13). -/
def Obligations.TickAdvancesClock : Prop :=
  ∀ (s : State), s.waiting = [] →
    let out := exec .secondTick s
    (s.clock = none → out = .next { s with count := s.count + 1 }) ∧
    ∀ c, s.clock = some c → c.minute ≤ 1439 → c.second ≤ 59 →
      (c.second ≤ 58 →
        out = .next { s with count := s.count + 1, clock := some { c with second := c.second + 1 } }) ∧
      (c.second = 59 → c.minute ≤ 1438 →
        let s1 := { s with count := s.count + 1, clock := some ⟨c.day, c.minute + 1, 0⟩ }
        (∃ t, out = .next t ∧ (s.meetingsSpare [.count] → t.count = s.count + 1) ∧
          (s.meetingsSpare [.clock] → t.clock = some ⟨c.day, c.minute + 1, 0⟩) ∧
          (s.meetings = [] → s.changesOnly [.count, .clock, .cache, .workOrders, .ports] t) ∧
          s.changesOnly ([.count, .clock, .cache, .workOrders, .ports] ++ s.mayMeet) t ∧
          (s.meetingsSpare [.workOrders] →
            ∀ n w, s.workOrder n = some w → w.state ≠ .lapsed → t.workOrder n = some w) ∧
          ((∀ n w, s.workOrder n = some w → w.state ≠ .lapsed) → t = s1)) ∧
        ∀ n w, n ≠ 0 → s.workOrder n = some w → w.state = .lapsed →
          (∀ m v, m ≠ n → s.workOrder m = some v → v.state ≠ .lapsed) →
          let tested := testOptions (.selection none n []) s1.reading w 1 w.options s1
          let ends := fun t : State => out = .next (t.settle none)
          let chosen := fun (k : Candidate) (short : Bool) =>
            tested.1.setWorkOrder n (some (w.withOption k short (s.count + 1 + 60 * k.remaining)))
          (∀ k, w.bestOf tested.2 k →
            (w.requiredMinimum ≤ k.cap → ends ((chosen k false).notify w.issuer
              (.optionSelected n k.index k.cap k.remaining k.level false))) ∧
            (k.cap < w.requiredMinimum → w.refuseOnShortfall = false → ends (((chosen k true).notify w.issuer
              (.shortfall n k.index k.cap w.requiredMinimum)).notify w.issuer
                (.optionSelected n k.index k.cap k.remaining k.level true))) ∧
            (k.cap < w.requiredMinimum → w.refuseOnShortfall = true → ends tested.1)) ∧
          (∀ codes : List DenyCode, tested.2 = codes.map .error → ends tested.1) ∧
          (.discarded ∈ tested.2 → out = .next tested.1)) ∧
      (c.second = 59 → c.minute = 1439 → c.day = 65535 →
        out = .next { s with count := s.count + 1, clock := none })

/-- SECOND_TICK at a day change (R75, R115, R129): a work order whose last day is before the new day is closed, and is
gone at once when no permit of it is Pending or Inside; its Idle permits are freed and its others marked revoked; and
every other work order is neither closed nor freed, and keeps its permits as they are. So it is while nothing that meets
a request of the minute entry that follows changes these (R38, assumption 13). -/
def Obligations.DayChangeExpiresWorkOrders : Prop :=
  ∀ (s : State) (c : ClockTime), s.waiting = [] → s.clock = some c → c.second = 59 → c.minute = 1439 → c.day < 65535 →
    ∃ t, exec .secondTick s = .next t ∧ (s.meetingsSpare [.count] → t.count = s.count + 1) ∧
      (s.meetingsSpare [.clock] → t.clock = some ⟨c.day + 1, 0, 0⟩) ∧
      ∀ n w, s.meetingsSpare [.workOrders, .permits] → n ≠ 0 → s.workOrder n = some w → w.isClosing = false →
        let late := ∃ first last, w.days = some (first, last) ∧ last < c.day + 1
        (late → s.hasCounted n = true → t.workOrder n = some { w with
          state := .closing .expired, selected := none, capInForce := 0, deadline := none }) ∧
        (late → s.hasCounted n = false → t.workOrder n = none) ∧
        (¬ late → ∃ w', t.workOrder n = some w' ∧ w'.isClosing = false ∧ (w.state ≠ .lapsed → w' = w)) ∧
        ∀ m q, s.permit m = some q → q.workOrder = n →
          (late → q.state.counted = true → t.permit m = some { q with revoked := true }) ∧
          (late → q.state.counted = false → t.permit m = none) ∧
          (¬ late → t.permit m = some q)

/-- SET POSTURE (R86, R87, R90, R94, R96, R147), in a state whose pairings are sound: its refusals; accepted, the
posture is set, the reply gives both postures, and every over-allowance flag agrees with the new allowance. At a
change to Lockdown every Open to an Enter that is not yet sent is withdrawn, from its door's list and from a lane that
is sending it, and a CANCEL waits for its door; every pairing is abandoned; every Enter in Passage Open ends with
cancel-pending set, and with the books in balance its permits and their loads are released; Exits stay. What becomes of
each door is said of states whose permits are sound too (R129), so that no ending frees a permit that a pairing names.
Otherwise no door, slot, lane, space, permit or work order changes. That an Open whose PASSAGE came before it was sent
is withdrawn at a door already Idle follows R86 where the order of the two is the model's choice (assumption 38); that a
frame still on the lane counts as not yet sent, and what the lane sends in its place, are its reading (assumption 16). -/
def Obligations.SetPostureActsOnDoorsAndFlags : Prop :=
  ∀ (s : State) (p : Authority) (a : SetPostureArgs), s.takes p 11 a.encode →
    let out := exec (.setPosture p (.fields a)) s
    (p ≠ .sec → out = .next (s.answered p 11 (.refused .notPermitted []))) ∧
    (p = .sec → 2 < a.posture.toNat → out = .next (s.answered p 11 (.refused .badArgument []))) ∧
    ∀ new : Posture, p = .sec → a.posture = postureValue new → s.pairingsSound →
      ∃ t, out = .next t ∧ t.posture = new ∧
        s.replied t p 11 (.accepted [postureValue s.posture, postureValue new]) ∧
        (∀ k o, t.record k = some o →
          let site := s.site o.room.site
          let bound := match new with
            | .normal => min o.ceiling (o.guaranteed + site.extra)
            | .restricted => min o.ceiling (min o.guaranteed site.forced)
            | .lockdown => 0
          (o.overAllowance = true ↔ bound < o.load)) ∧
        (new = .lockdown → s.posture ≠ .lockdown →
          (∀ k, t.slot k = none) ∧
          (s.booksBalance → s.releases t (s.reservedAt fun _ => true)) ∧
          (∀ l,
            let q := s.lane l
            let y := t.door ⟨l, q.position⟩
            ((∀ v, q.phase = .sendingVerdict v → v.outcome ≠ .admitted) → t.lane l = q) ∧
            ∀ v, q.phase = .sendingVerdict v → v.outcome = .admitted →
              (∀ w rest, y.presence = .ready → y.outgoing = w :: rest → t.lane l = { q with phase := .sendingVerdict w }) ∧
              (y.presence = .ready → y.outgoing = [] → t.lane l = { q with phase := .sendingCancel }) ∧
              (y.presence ≠ .ready →
                t.lane l = { q with phase := .polling, sent := q.sent ++ [pollFrame q.position] })) ∧
          (s.permitsSound → ∀ d,
            let x := s.door d
            let kept := x.outgoing.filter fun v => v.outcome ≠ .admitted
            let flying := match (s.lane d.lane).phase with
              | .sendingVerdict v => decide (v.outcome = .admitted ∧ (s.lane d.lane).position = d.address)
              | _ => false
            let cancel := x.cancelPending || (x.outgoing.any fun v => v.outcome = .admitted) || flying
            match x.admission with
            | .idle | .openExit .. => t.door d = { x with outgoing := kept, cancelPending := cancel }
            | .pairing .. | .awaitingConsent .. => ∃ k y, s.slot k = some y ∧ y.door = d ∧
                t.door d = { x with
                  admission := .idle
                  outgoing := kept.map Verdict.ended ++ [⟨.deny .lockdown, s.pairingCredentials y, false⟩]
                  cancelPending := cancel }
            | .openEnter .. =>
                t.door d = { x with admission := .idle, outgoing := kept.map Verdict.ended, cancelPending := true })) ∧
        ((new ≠ .lockdown ∨ s.posture = .lockdown) → s.changesOnly [.posture, .occupancy, .ports] t)

/-- SET SITE ALLOWANCE (R89, R90, R96, R97): its refusals, the clamped values, and the flags of the records of that
site and of no other. With one record in the site whose flag goes from clear to set, OVER_ALLOWANCE goes to Security
behind the reply. -/
def Obligations.SetSiteAllowanceEvaluatesSite : Prop :=
  ∀ (s : State) (p : Authority) (a : SetSiteAllowanceArgs), s.takes p 12 a.encode →
    let out := exec (.setSiteAllowance p (.fields a)) s
    (p ≠ .sec → out = .next (s.answered p 12 (.refused .notPermitted []))) ∧
    (p = .sec → 127 < a.site.toNat → out = .next (s.answered p 12 (.refused .badArgument []))) ∧
    ∀ n : SiteNo, p = .sec → a.site.toNat = n.val →
      let e := min a.extra.toNat 127
      let f := min a.forced.toNat 63
      let reply := num1 n.val ++ num1 (s.site n).extra ++ num1 (s.site n).forced ++ num1 e ++ num1 f
      let isOver := fun o : OccupancyRecord => match s.posture with
        | .normal => min o.ceiling (o.guaranteed + e) < o.load
        | .restricted => min o.ceiling (min o.guaranteed f) < o.load
        | .lockdown => 0 < o.load
      (∃ t, out = .next t ∧ s.replied t p 12 (.accepted reply) ∧ s.changesOnly [.sites, .occupancy, .ports] t ∧
        t.site n = ⟨e, f⟩ ∧ (∀ m, m ≠ n → t.site m = s.site m) ∧
        ∀ k, (s.record k = none → t.record k = none) ∧
          ∀ o, s.record k = some o →
            (o.room.site ≠ n → t.record k = some o) ∧
            (o.room.site = n → ∃ b, t.record k = some { o with overAllowance := b } ∧ (b = true ↔ isOver o))) ∧
      ∀ k o, s.record k = some o → o.room.site = n → o.overAllowance = false → isOver o →
        (∀ j o', s.record j = some o' → o'.room.site = n → j = k) →
        out = .next ((((s.setSite n ⟨e, f⟩).setRecord k (some { o with overAllowance := true })).answered p 12
          (.accepted reply)).notify .sec (.overAllowance o.room o.load
            (allowance s.posture ⟨e, f⟩ o.guaranteed o.ceiling)))

/-- SET TIMINGS, whole (R170): refused to Facilities and Landlord; the three values clamped into their ranges, and both
the old and the stored values in the reply. -/
def Obligations.SetTimingsClampsAndStores : Prop :=
  ∀ (s : State) (p : Authority) (a : SetTimingsArgs), s.takes p 29 a.encode →
    let out := exec (.setTimings p (.fields a)) s
    let stored : Timings :=
      ⟨max 5 (min 60 a.pairingWindow.toNat), max 5 (min 30 a.passageTime.toNat), max 15 (min 120 a.consentWait.toNat)⟩
    (p ≠ .sec → out = .next (s.answered p 29 (.refused .notPermitted []))) ∧
    (p = .sec → out = .next ({ s with timings := stored }.answered p 29 (.accepted
      (num1 s.timings.pairingWindow ++ num1 s.timings.passageTime ++ num1 s.timings.consentWait ++
        num1 stored.pairingWindow ++ num1 stored.passageTime ++ num1 stored.consentWait))))

/-- POWER_ON (R179, and the rules it gathers): the values of the device right after power-on, and that POWER_ON gives
them in every state. The two endorsement flags and the shortfall flag of work order 0, to which R102 gives no value, are
clear by the model's choice (assumption 39). The commands that wait, what meets the requests to come, and the levels of
the ready lines are not the device's (assumptions 1, 3 and 13). -/
def Obligations.PowerOnGivesResetValues : Prop :=
  let r := State.reset
  (r.waiting = [] ∧ r.clock = none ∧ r.count = 0 ∧ r.posture = .lockdown ∧ r.timings = ⟨20, 10, 60⟩ ∧ r.cache = [] ∧
    (∀ b, r.block b = Block.free) ∧
    (∀ n : SpaceNo, n.val ≤ 1 → ∃ d, r.space n = ⟨some d, none, 0, 0⟩ ∧ d.authority = .sec ∧ d.scope = .estate ∧
      d.topOrigin = none ∧ (d.isPrivate = true ↔ n.val = 0)) ∧
    (∀ n : SpaceNo, 2 ≤ n.val → r.space n = ⟨none, none, 0, 0⟩) ∧ (∀ n, r.site n = ⟨0, 0⟩) ∧
    r.workOrder 0 = some WorkOrder.escortRoster ∧ (∀ n, n ≠ 0 → r.workOrder n = none) ∧
    (∀ n, r.permit n = none) ∧ (∀ n, r.record n = none) ∧ (∀ k, r.slot k = none) ∧
    (∀ d, r.door d = ⟨none, .unknown, 0, .idle, [], false⟩) ∧
    (∀ l, (r.lane l).held = false ∧ (r.lane l).position = 0) ∧
    (∀ a, (r.port a).buffer = none ∧ (r.port a).reply = none ∧ (r.port a).transmitter = none ∧
      (r.port a).queue = [] ∧ (r.port a).dropped = false ∧ (r.port a).attention = false)) ∧
  ∀ s : State, ∃ t, exec .powerOn s = .next t ∧ r.changesOnly [.ports, .meetings, .pending] t ∧
    t.pending = s.pending ∧ t.meetings = s.meetings ∧
    ∀ a, t.port a = { r.port a with ready := (s.port a).ready, levels := (s.port a).levels }

/-- ESTATE CLEAR (R172, R173): refused to Facilities and Landlord, and OCCUPIED while an occupancy record is in
use; otherwise every part returns to its power-on value but the clock and the count, the posture, the lanes and the
timings; no request waits any more (R38); the notice queues are emptied, the dropped flags cleared, and the reply
carries nothing. That receivers,
buffers, frames being sent, ready levels and the turns in progress on the lanes survive the clear is the model's
deduction (assumption 17). -/
def Obligations.EstateClearReturnsToPowerOn : Prop :=
  ∀ (s : State) (p : Authority), s.takes p 31 [] →
    let out := exec (.estateClear p (.fields {})) s
    (p ≠ .sec → out = .next (s.answered p 31 (.refused .notPermitted []))) ∧
    (p = .sec → (∃ k o, s.record k = some o) → out = .next (s.answered p 31 (.refused .occupied []))) ∧
    (p = .sec → (∀ k, s.record k = none) →
      ∃ t, out = .next (t.answered p 31 (.accepted [])) ∧
        (∀ f ∈ ([.blocks, .spaces, .cache, .sites, .occupancy, .workOrders, .permits, .doors, .slots,
            .waiting] : List Field), State.reset.same t f) ∧
        (∀ f ∈ ([.clock, .count, .posture, .lanes, .timings, .meetings, .pending] : List Field), s.same t f) ∧
        ∀ a, t.port a = { s.port a with queue := [], dropped := false })

/-! ### Rooms, work orders and permits -/

/-- FORCE EXIT (R98, R113, R116, R122): its refusals; accepted, the permit leaves its room as `State.permitLeaves`
says: it becomes Idle, or is freed when it was revoked, the loads of the room and of its work order fall by its
weight, and a Closing work order of which it was the last permit inside is freed; a door open for its Exit holds no
permit any more; the reply carries the permit, the room and the load after the exit; and EXITED with the forced mark
goes to Security and to the issuer behind it, with PERMIT_RELEASED of cause exit to the issuer of a freed permit. That
the sender is judged before the values, and the order of the two notices, are the model's readings (assumptions 7 and
21). -/
def Obligations.ForceExitTakesPermitOut : Prop :=
  ∀ (s : State) (p : Authority) (a : NumberArgs), s.takes p 13 a.encode →
    let out := exec (.forceExit p (.fields a)) s
    let n : PermitNo := permitNo a.number
    (p ≠ .sec → out = .next (s.answered p 13 (.refused .notPermitted []))) ∧
    (p = .sec → (∀ q stay, s.permit n = some q → q.state ≠ .inside stay) →
      out = .next (s.answered p 13 (.refused .notInside []))) ∧
    ∀ q stay k o w, p = .sec → s.recordsSound → s.permit n = some q → q.state = .inside stay →
      s.record k = some o → o.room = stay.room → s.workOrder q.workOrder = some w →
      ∃ t, out = .next t ∧ s.changesOnly [.occupancy, .workOrders, .permits, .doors, .ports] t ∧
        s.permitLeaves t n q w k o ∧
        (∀ d, match (s.door d).admission with
          | .openExit (some m) deadline =>
            t.door d = if m = n then { s.door d with admission := .openExit none deadline } else s.door d
          | _ => t.door d = s.door d) ∧
        let after := if o.inside.erase n = [] ∧ o.pending.erase n = [] then 0 else o.load - q.role.weight
        let reply := Answer.accepted (num1 n.val ++
          (num1 stay.room.site.val ++ num1 stay.room.zone.val ++ num1 stay.room.room.val) ++ num1 after)
        s.replied t p 13 reply ∧
        ((s.allowanceAt o.room o.guaranteed o.ceiling < o.load - q.role.weight → o.overAllowance = true) →
          (s.lastCounted n q w → s.permitsSound) →
          let exited := (s.answered p 13 reply).notifyBoth (s.issuer q.workOrder)
            (.exited true n q.credential stay.room none)
          t.ports = (if q.revoked then
            exited.notify (s.issuer q.workOrder) (.permitReleased n q.credential .exit) else exited).ports)

/-- CREATE WORK ORDER (R103): its checks in order, the lowest unused record of 1..63 written in state Pending, and the
renewal interval stored rounded up. That a flag other than 0 and 1 is refused BAD_ARGUMENT is from R169. -/
def Obligations.CreateWorkOrderTakesOrRefuses : Prop :=
  ∀ (s : State) (p : Authority) (a : CreateWorkOrderArgs), s.takes p 15 a.encode →
    let out := exec (.createWorkOrder p (.fields a)) s
    let good := fun (options : List WorkOption) (home : Designator) =>
      List.Forall₂ carriesOption a.options options ∧ 1 ≤ options.length ∧ options.length ≤ 7 ∧
      carriesRoom a.home home ∧ a.requiredMinimum.toNat ≤ 127 ∧ a.preference.toNat ≤ 1 ∧
      a.refuseOnShortfall.toNat ≤ 1 ∧ a.firstDay.toNat ≤ a.lastDay.toNat
    let renewal := if a.renewal.toNat ≤ 5 then 5 else if a.renewal.toNat ≤ 15 then 15
      else if a.renewal.toNat ≤ 30 then 30 else 60
    ((∀ options home, ¬ good options home) → out = .next (s.answered p 15 (.refused .badArgument []))) ∧
    ∀ options home, good options home →
      (p = .sec → out = .next (s.answered p 15 (.refused .notPermitted []))) ∧
      (p ≠ .sec →
        (∀ before o after, options = before ++ o :: after → (s.space o.space).owner ≠ some p →
          (∀ x ∈ before, (s.space x.space).owner = some p) →
          out = .next (s.answered p 15 (.refused .notPermitted (num1 (before.length + 1))))) ∧
        ((∀ o ∈ options, (s.space o.space).owner = some p) →
          ((∀ n : WorkOrderNo, n ≠ 0 → s.workOrder n ≠ none) →
            out = .next (s.answered p 15 (.refused .workOrderTableFull []))) ∧
          ∀ n : WorkOrderNo, n ≠ 0 → s.workOrder n = none → (∀ m : WorkOrderNo, m ≠ 0 → m < n → s.workOrder m ≠ none) →
            out = .next ((s.setWorkOrder n (some
              { issuer := p, state := .pending, options := options, home := some home,
                requiredMinimum := a.requiredMinimum.toNat, renewal := renewal,
                preference := if a.preference = 0 then .longer else .shorter,
                refuseOnShortfall := a.refuseOnShortfall = 1,
                days := some (a.firstDay.toNat, a.lastDay.toNat),
                endorsedByFacilities := false, endorsedByLandlord := false, selected := none, capInForce := 0,
                shortfall := false, deadline := none, party := 0 })).answered p 15
              (.accepted (num1 n.val ++ num1 renewal)))))

/-- ENDORSE, whole (R104): its checks in order; the sender's own flag is written, and the reply carries both. -/
def Obligations.EndorseWritesOwnFlag : Prop :=
  ∀ (s : State) (p : Authority) (a : EndorseArgs), s.takes p 16 a.encode →
    let out := exec (.endorse p (.fields a)) s
    ((63 < a.workOrder.toNat ∨ 1 < a.value.toNat) → out = .next (s.answered p 16 (.refused .badArgument []))) ∧
    ∀ n : WorkOrderNo, a.workOrder.toNat = n.val → a.value.toNat ≤ 1 →
      ((p = .sec ∨ n = 0 ∨ s.workOrder n = none) → out = .next (s.answered p 16 (.refused .notPermitted []))) ∧
      ∀ w, s.workOrder n = some w →
        (w.issuer = p → out = .next (s.answered p 16 (.refused .notPermitted []))) ∧
        (p ≠ .sec → n ≠ 0 → w.issuer ≠ p →
          (∀ cause, w.state = .closing cause → out = .next (s.answered p 16 (.refused .closing []))) ∧
          ((∀ cause, w.state ≠ .closing cause) →
            (p = .fac → out = .next ((s.setWorkOrder n (some { w with endorsedByFacilities := a.value = 1 })).answered
              p 16 (.accepted [a.value, if w.endorsedByLandlord then 1 else 0]))) ∧
            (p = .lld → out = .next ((s.setWorkOrder n (some { w with endorsedByLandlord := a.value = 1 })).answered
              p 16 (.accepted [if w.endorsedByFacilities then 1 else 0, a.value])))))

/-- ACTIVATE (R105, R106, R107, R108, R109, R110, R111). Its refusals; a selection makes the work order Active with the
best option by the keys of R107 and queues OPTION_SELECTED behind the reply, with SHORTFALL before it where the option
falls short of the required minimum and that is not refused; refused, it answers SHORTFALL with the option and its cap;
with no option eligible it answers NO_OPTION with the reasons; and an Active work order whose selection fails lapses. So
it is where nothing meets its requests. One that an ESTATE CLEAR discards is selected no more: its work order is gone
with the clear, and what the reply says, which no rule gives, is a free value (R38, R173, assumptions 13 and 44). The
order of the two notices is the model's reading (assumption 21). The test of one option in every selection: CLOCK_UNSET,
DAY_RANGE and OUTSIDE_WINDOW of its own window, in that order and before any request, and then the code of the rights to
the home room in the option's space; eligible, its cap is the smaller of the party cap and the allowance of R90, its
level that of R61, and its effective remaining the least R of the windows of the summary and its own, 1440 with none
(R81). The options are tested in index order, and none behind one whose test is discarded. -/
def Obligations.ActivateSelectsBestOption : Prop :=
  (∀ (s : State) (p : Authority) (a : NumberArgs), s.waiting = [] → s.takes p 17 a.encode →
     let out := exec (.activate p (.fields a)) s
     (63 < a.number.toNat → out = .next (s.answered p 17 (.refused .badArgument []))) ∧
     ∀ n : WorkOrderNo, a.number.toNat = n.val →
       ((n = 0 ∨ ∀ w, s.workOrder n = some w → w.issuer ≠ p) →
         out = .next (s.answered p 17 (.refused .notPermitted []))) ∧
       ∀ w, n ≠ 0 → s.workOrder n = some w → w.issuer = p →
         (w.isClosing = true → out = .next (s.answered p 17 (.refused .closing []))) ∧
         (w.isClosing = false → s.meetings = [] →
           let tested := testOptions (.selection (some p) n []) s.reading w 1 w.options s
           let failed := fun (answer : Answer) (f : SelectionFailure) =>
             (w.state ≠ .active → out = .next (tested.1.answered p 17 answer)) ∧
             (w.state = .active → out = .next (((tested.1.setWorkOrder n (some w.asLapsed)).answered p 17 answer).notify p
               (.workOrderLapsed n f)))
           (∀ c time, s.clock = some time → w.bestOf tested.2 c →
             let chosen := fun short => (tested.1.setWorkOrder n
               (some (w.withOption c short (minuteDeadline s.count time c.remaining)))).answered p 17
               (.accepted (num1 c.index ++ num1 c.cap ++ num2 c.remaining ++ flagByte short))
             (w.requiredMinimum ≤ c.cap → out = .next ((chosen false).notify p
               (.optionSelected n c.index c.cap c.remaining c.level false))) ∧
             (c.cap < w.requiredMinimum → w.refuseOnShortfall = false → out = .next (((chosen true).notify p
               (.shortfall n c.index c.cap w.requiredMinimum)).notify p
                 (.optionSelected n c.index c.cap c.remaining c.level true))) ∧
             (c.cap < w.requiredMinimum → w.refuseOnShortfall = true →
               failed (.refused .shortfall (num1 c.index ++ num1 c.cap)) (.shortfall c.index c.cap))) ∧
           (∀ codes : List DenyCode, tested.2 = codes.map .error →
             failed (.refused .noOption (countByte codes.length :: codes.map DenyCode.value)) (.noOption codes))) ∧
         (w.isClosing = false →
           .discarded ∈ (testOptions (.selection (some p) n []) s.reading w 1 w.options (s.reserveReply p)).2 →
           ∃ t answer, out = .next t ∧ s.replied t p 17 answer ∧
             ∀ f ∈ ([.blocks, .spaces, .cache, .sites, .occupancy, .workOrders, .permits, .doors, .slots] : List Field),
               State.reset.same t f)) ∧
  (∀ (x : Decision) (now : Reading) (w : WorkOrder) (index : Nat) (o : WorkOption) (s : State),
     let test := testOption x now w index o s
     (now.clock = none → test = (s, .error .clockUnset)) ∧
     ∀ time, now.clock = some time →
       let m := time.minute
       let inDays := ∀ first last, w.days = some (first, last) → first ≤ time.day ∧ time.day ≤ last
       let inWindow := ∀ v, o.window = some v → v.contains m = true
       (¬ inDays → test = (s, .error .dayRange)) ∧
       (inDays → ¬ inWindow → test = (s, .error .outsideWindow)) ∧
       ∀ home, inDays → inWindow → w.home = some home →
         let rights := checkRights x o.space home w none m s
         (∀ c, rights.2 = .error c → test = (rights.1, .error c)) ∧
         (rights.2 = .discarded → test = (rights.1, .discarded)) ∧
         ∀ g ov, rights.2 = .ok (g, ov) →
           let site := s.site home.site
           let allowance := match s.posture with
             | .normal => min g.ceiling (g.guaranteed + site.extra)
             | .restricted => min g.ceiling (min g.guaranteed site.forced)
             | .lockdown => 0
           let windows := g.windows ++ o.window.toList
           let forced := g.escort = true ∨ ∃ i ∈ ov.items, i.force = true ∧ ∀ v, i.window = some v → v.contains m = true
           ∃ c, test = (rights.1, .ok c) ∧ c.index = index ∧ c.cap = min o.cap allowance ∧
             (forced → c.level = max g.category 1) ∧ (¬ forced → c.level = g.category) ∧
             (windows = [] → c.remaining = 1440) ∧ c.remaining ≤ 1440 ∧ (∀ v ∈ windows, c.remaining ≤ v.remaining m) ∧
             (c.remaining = 1440 ∨ ∃ v ∈ windows, c.remaining = v.remaining m)) ∧
  (∀ (x : Decision) (now : Reading) (w : WorkOrder) (index : Nat) (o : WorkOption) (rest : List WorkOption) (s : State),
     let test := testOption x now w index o s
     let others := testOptions x now w (index + 1) rest test.1
     testOptions x now w index [] s = (s, []) ∧
     (test.2 = .discarded → testOptions x now w index (o :: rest) s = (test.1, [.discarded])) ∧
     (test.2 ≠ .discarded → testOptions x now w index (o :: rest) s = (others.1, test.2 :: others.2)))

/-- SELECTION_DEADLINE (R84, R107, R108, R109, R111): before the deadline, or for a work order not Active, nothing
happens; at it the best option is stored again with OPTION_SELECTED, with SHORTFALL before it where the option falls
short and that is not refused. A selection that fails, because the shortfall is refused or because no option is
eligible, as with the clock Unset, lapses the work order, with WORK_ORDER_LAPSED to its issuer. A selection that an
ESTATE CLEAR discards changes no work order (R38). The order of the two notices, and what meets the requests, are the
model's (assumptions 21 and 13). Decisions that a row begun meanwhile left waiting are then served (R38, assumption
13). -/
def Obligations.SelectionDeadlineReselectsOrLapses : Prop :=
  ∀ (s : State) (n : WorkOrderNo), s.waiting = [] →
    let out := exec (.selectionDeadline n) s
    ((∀ w t, s.workOrder n = some w → w.state = .active → w.deadline = some t → s.count < t) → out = .next s) ∧
    ∀ w t, s.workOrder n = some w → w.state = .active → w.deadline = some t → t ≤ s.count →
      let tested := testOptions (.selection none n []) s.reading w 1 w.options s
      let ends := fun u : State => out = .next (u.settle none)
      let lapses := fun f => ends ((tested.1.setWorkOrder n (some w.asLapsed)).notify w.issuer (.workOrderLapsed n f))
      (∀ c time, s.clock = some time → w.bestOf tested.2 c →
        let chosen := fun short =>
          tested.1.setWorkOrder n (some (w.withOption c short (minuteDeadline s.count time c.remaining)))
        (w.requiredMinimum ≤ c.cap → ends ((chosen false).notify w.issuer
          (.optionSelected n c.index c.cap c.remaining c.level false))) ∧
        (c.cap < w.requiredMinimum → w.refuseOnShortfall = false → ends (((chosen true).notify w.issuer
          (.shortfall n c.index c.cap w.requiredMinimum)).notify w.issuer
            (.optionSelected n c.index c.cap c.remaining c.level true))) ∧
        (c.cap < w.requiredMinimum → w.refuseOnShortfall = true → lapses (.shortfall c.index c.cap))) ∧
      (∀ codes : List DenyCode, tested.2 = codes.map .error → lapses (.noOption codes)) ∧
      (.discarded ∈ tested.2 → out = .next tested.1) ∧
      (s.clock = none → lapses (.noOption (w.options.map fun _ => .clockUnset)))

/-- WITHDRAW (R114, R116, R128, R129), in a state whose pairings are sound: its refusals; accepted, each Idle permit
is freed and each other marked revoked, the work order becomes Closing or is gone, the pairings of its freed permits
end with the verdict deny REVOKED at their doors, and no permit, work order or slot but these changes. Where no
pairing ends, the notices are a PERMIT_RELEASED to the issuer for each freed permit, in number order, behind the
reply. The order of the checks is R114's. That the number revoked in the reply counts permits revoked before, and that
of the reply's two numbers the first takes two bytes and the second one, are read from R113, R118 and R168 (assumptions
25 and 43). -/
def Obligations.WithdrawClosesWorkOrder : Prop :=
  ∀ (s : State) (p : Authority) (a : NumberArgs), s.takes p 18 a.encode →
    let out := exec (.withdraw p (.fields a)) s
    (63 < a.number.toNat → out = .next (s.answered p 18 (.refused .badArgument []))) ∧
    ∀ n : WorkOrderNo, a.number.toNat = n.val →
      ((n = 0 ∨ s.workOrder n = none) → out = .next (s.answered p 18 (.refused .notPermitted []))) ∧
      ∀ w, n ≠ 0 → s.workOrder n = some w →
        (w.issuer ≠ p → p ≠ .sec → out = .next (s.answered p 18 (.refused .notPermitted []))) ∧
        ((w.issuer = p ∨ p = .sec) →
          (w.isClosing = true → out = .next (s.answered p 18 (.refused .closing []))) ∧
          (w.isClosing = false → s.pairingsSound →
            ∃ t, out = .next t ∧ s.changesOnly [.spaces, .workOrders, .permits, .doors, .slots, .ports] t ∧
              s.replied t p 18 (.accepted (num1 n.val ++ num2 (s.countPermits n false) ++ num1 (s.countPermits n true))) ∧
              (s.hasCounted n = true → t.workOrder n = some { w with
                state := .closing .withdrawn, selected := none, capInForce := 0, deadline := none }) ∧
              (s.hasCounted n = false → t.workOrder n = none) ∧
              (∀ v, v ≠ n → t.workOrder v = s.workOrder v) ∧
              (∀ m q, s.permit m = some q →
                (q.workOrder ≠ n → t.permit m = some q) ∧
                (q.workOrder = n → q.state.counted = true → t.permit m = some { q with revoked := true }) ∧
                (q.workOrder = n → q.state.counted = false → t.permit m = none)) ∧
              (∀ m, s.permit m = none → t.permit m = none) ∧
              ((∀ k x m q, s.slot k = some x → x.holds m = true → s.permit m = some q → q.workOrder ≠ n) →
                t.ports = ((List.finRange 256).foldl (fun u m => match s.permit m with
                  | some q =>
                    if q.workOrder = n ∧ q.state = .idle then
                      u.notify w.issuer (.permitReleased m q.credential .withdrawn) else u
                  | none => u) (s.answered p 18 (.accepted (num1 n.val ++ num2 (s.countPermits n false) ++
                    num1 (s.countPermits n true))))).ports) ∧
              ∀ k x, s.slot k = some x →
                let freed := ∃ m q, x.holds m = true ∧ s.permit m = some q ∧ q.workOrder = n
                (freed → t.slot k = none ∧ t.door x.door = { s.door x.door with
                  admission := .idle
                  outgoing := (s.door x.door).outgoing.map Verdict.ended ++
                    [⟨.deny .revoked, s.pairingCredentials x, false⟩] }) ∧
                (¬ freed → t.slot k = some x ∧ t.door x.door = s.door x.door)))

/-- ISSUE PERMIT, whole (R120): its checks in order, the duplicate's number told to Security and to its issuer alone,
and the lowest unused record written Idle with every flag clear. -/
def Obligations.IssuePermitTakesOrRefuses : Prop :=
  ∀ (s : State) (p : Authority) (a : IssuePermitArgs), s.takes p 20 a.encode →
    let out := exec (.issuePermit p (.fields a)) s
    ((63 < a.workOrder.toNat ∨ a.credential = 0 ∨ 3 < a.role.toNat ∨ (a.role = 3 ∧ a.workOrder ≠ 0) ∨
        (a.role ≠ 3 ∧ a.workOrder = 0)) →
      out = .next (s.answered p 20 (.refused .badArgument []))) ∧
    ∀ (w : WorkOrderNo) (role : Role), a.workOrder.toNat = w.val → a.role = roleValue role → a.credential ≠ 0 →
      (role = .escort ↔ w = 0) →
      (s.workOrder w = none → out = .next (s.answered p 20 (.refused .notPermitted []))) ∧
      ∀ r, s.workOrder w = some r →
        (((w = 0 ∧ p ≠ .sec) ∨ (w ≠ 0 ∧ r.issuer ≠ p)) → out = .next (s.answered p 20 (.refused .notPermitted []))) ∧
        ((w = 0 → p = .sec) → (w ≠ 0 → r.issuer = p) →
          (r.isClosing = true → out = .next (s.answered p 20 (.refused .closing []))) ∧
          (r.isClosing = false →
            (∀ n q, s.credentialsDistinct → s.permit n = some q → q.credential = a.credential →
              ((p = .sec ∨ s.issuer q.workOrder = p) →
                out = .next (s.answered p 20 (.refused .duplicateCredential (1 :: num1 n.val)))) ∧
              (p ≠ .sec → s.issuer q.workOrder ≠ p →
                out = .next (s.answered p 20 (.refused .duplicateCredential [0])))) ∧
            ((∀ n q, s.permit n = some q → q.credential ≠ a.credential) →
              ((∀ n, s.permit n ≠ none) → out = .next (s.answered p 20 (.refused .permitTableFull []))) ∧
              ∀ n, s.permit n = none → (∀ m < n, s.permit m ≠ none) →
                out = .next ((s.setPermit n (some ⟨a.credential, w, role, false, .idle⟩)).answered p 20
                  (.accepted (num1 n.val ++ num1 role.weight))))))

/-- REVOKE (R127, R128, R130): its refusals; a Pending or Inside permit is marked; an Idle permit that no pairing
holds is freed, with PERMIT_RELEASED to the issuer when another sent the command; one that a pairing holds has its
pairing ended first. -/
def Obligations.RevokeFreesOrMarks : Prop :=
  ∀ (s : State) (p : Authority) (a : NumberArgs), s.takes p 21 a.encode →
    let out := exec (.revoke p (.fields a)) s
    let n : PermitNo := permitNo a.number
    (s.permit n = none → out = .next (s.answered p 21 (.refused .notPermitted []))) ∧
    ∀ q, s.permit n = some q →
      (p ≠ .sec → s.issuer q.workOrder ≠ p → out = .next (s.answered p 21 (.refused .notPermitted []))) ∧
      ((p = .sec ∨ s.issuer q.workOrder = p) →
        (q.state ≠ .idle → out = .next ((s.setPermit n (some { q with revoked := true })).answered p 21
          (.accepted (num1 n.val ++ [permitStateValue q.state] ++ num1 1)))) ∧
        (q.state = .idle → (∀ k x, s.slot k = some x → x.holds n = false) →
          let freed := (s.setPermit n none).answered p 21 (.accepted (num1 n.val ++ [0] ++ num1 0))
          (s.issuer q.workOrder = p → out = .next freed) ∧
          (s.issuer q.workOrder ≠ p → out = .next (freed.notify (s.issuer q.workOrder)
            (.permitReleased n q.credential .revoked)))) ∧
        ∀ k x, q.state = .idle → s.pairingsSound → s.slot k = some x → x.holds n = true →
          ∃ t, out = .next t ∧ s.changesOnly [.spaces, .permits, .doors, .slots, .ports] t ∧
            s.replied t p 21 (.accepted (num1 n.val ++ [0] ++ num1 0)) ∧
            t.permit n = none ∧ (∀ m, m ≠ n → t.permit m = s.permit m) ∧
            t.slot k = none ∧ (∀ j, j ≠ k → t.slot j = s.slot j) ∧
            t.door x.door = { s.door x.door with
              admission := .idle
              outgoing := (s.door x.door).outgoing.map Verdict.ended ++
                [⟨.deny .revoked, s.pairingCredentials x, false⟩] } ∧
            ∀ d, d ≠ x.door → t.door d = s.door d)

/-! ### Doors, lanes and pairings -/

/-- The READ commands (R36, R99, R117, R131, R148, R171): a number out of range is refused BAD_ARGUMENT; Security reads
every record, and reads an unused one as not in use; Facilities and Landlord read their own spaces, work orders and
permits alone, and every authority reads rooms, doors and the status; and nothing but the reply changes. The items of
each reply are spelled out: those of R100 with the permits and their states; those of R118 with the weight, the work
order's state and the pairing slot; a room's record with the allowance of R90 and its members, or, with no record, load
0 and empty lists; a door's binding, presence, admission, held permits, slot, seconds, verdicts and cancel-pending flag;
and the clock, count, posture, timings, lanes, presences, counts of records, and the queue figures of the sender's own
port. A credential is shown to Security and to the issuer of the permit's work order. The layouts follow R168 as
assumption 20 reads it; that the seconds to a deadline reached and not yet taken read as 1 for a switch, and as 0 for a
selection, a passage, a stay and a check-in, is the model's choice (assumption 42). -/
def Obligations.ReadsAnswerAndChangeNothing : Prop :=
  (∀ (s : State) (p : Authority) (a : NumberArgs),
     (s.takes p 8 a.encode →
       let out := exec (.readSpace p (.fields a)) s
       (63 < a.number.toNat → out = .next (s.answered p 8 (.refused .badArgument []))) ∧
       ∀ n : SpaceNo, a.number.toNat = n.val →
         let r := s.space n
         (p ≠ .sec → r.owner ≠ some p → out = .next (s.answered p 8 (.refused .notPermitted []))) ∧
         (p = .sec → r.current = none → out = .next (s.answered p 8 (.accepted [0, r.generation]))) ∧
         ∀ d, r.current = some d → (p = .sec ∨ d.authority = p) →
           out = .next (s.answered p 8 (.accepted (1 :: descriptorBytes d ++ [r.generation] ++
             (match r.waiting with
               | none => [0, 0] ++ num1 r.drain ++ [0]
               | some w => [1, 1] ++ descriptorBytes w.descriptor ++ num1 r.drain ++
                 1 :: num1 (max 1 (w.deadline - s.count))))))) ∧
     (s.takes p 19 a.encode →
       let out := exec (.readWorkOrder p (.fields a)) s
       (63 < a.number.toNat → out = .next (s.answered p 19 (.refused .badArgument []))) ∧
       ∀ n : WorkOrderNo, a.number.toNat = n.val →
         (p ≠ .sec → (∀ w, s.workOrder n = some w → w.issuer ≠ p) →
           out = .next (s.answered p 19 (.refused .notPermitted []))) ∧
         (p = .sec → s.workOrder n = none → out = .next (s.answered p 19 (.accepted [0]))) ∧
         ∀ w, s.workOrder n = some w → (p = .sec ∨ w.issuer = p) →
           let options := w.options.flatMap fun o => num1 o.space.val ++
             (match o.window with | none => [0] | some v => 1 :: num2 v.start ++ num2 v.length) ++ num1 o.cap
           let permits := (List.finRange 256).filterMap fun m => match s.permit m with
             | some q => if q.workOrder = n then some (num1 m.val ++ [permitStateValue q.state]) else none
             | none => none
           out = .next (s.answered p 19 (.accepted ([1, authorityValue w.issuer, workOrderStateValue w.state] ++
             countByte w.options.length :: options ++
             (match w.home with | none => [0] | some r => 1 :: num1 r.site.val ++ num1 r.zone.val ++ num1 r.room.val) ++
             num1 w.requiredMinimum ++ num1 w.renewal ++ [preferenceValue w.preference] ++ flagByte w.refuseOnShortfall ++
             (match w.days with | none => [0, 0] | some (first, last) => 1 :: num2 first ++ 1 :: num2 last) ++
             flagByte w.endorsedByFacilities ++ flagByte w.endorsedByLandlord ++
             (match w.selected with | none => [0] | some k => 1 :: num1 k) ++ num1 w.capInForce ++ flagByte w.shortfall ++
             (match w.deadline with | none => [0] | some t => 1 :: num4 (t - s.count)) ++ num1 w.party ++
             countByte permits.length :: permits.flatten)))) ∧
     (s.takes p 22 a.encode →
       let out := exec (.readPermit p (.fields a)) s
       let n : PermitNo := permitNo a.number
       (p ≠ .sec → (∀ q, s.permit n = some q → s.issuer q.workOrder ≠ p) →
         out = .next (s.answered p 22 (.refused .notPermitted []))) ∧
       (p = .sec → s.permit n = none → out = .next (s.answered p 22 (.accepted [0]))) ∧
       ∀ q, s.permit n = some q → (p = .sec ∨ s.issuer q.workOrder = p) →
         (∃ results, out = .next (s.answered p 22 (.accepted results))) ∧
         ∀ w slot, s.workOrder q.workOrder = some w → s.slotShown (fun y => y.holds n) slot →
           out = .next (s.answered p 22 (.accepted ([1] ++ bytes32 q.credential ++ num1 q.workOrder.val ++ [roleValue q.role] ++
             (match q.state with
               | .idle => [0] ++ [0] ++ [0] ++ [0] ++ [0] ++ flagByte q.revoked ++ [0, 0, 0]
               | .pending r d remote =>
                 [1] ++ 1 :: num1 r.site.val ++ num1 r.zone.val ++ num1 r.room.val ++
                   1 :: num1 d.lane.val ++ num1 d.address.val ++ [0] ++ [0] ++ flagByte q.revoked ++ [0, 0] ++ flagByte remote
               | .inside x =>
                 [2] ++ 1 :: num1 x.room.site.val ++ num1 x.room.zone.val ++ num1 x.room.room.val ++ [0] ++
                   (match x.stayDeadline with | none => [0] | some t => 1 :: num4 (t - s.count)) ++
                   (match x.checkInDeadline with | none => [0] | some t => 1 :: num2 (t - s.count)) ++
                   flagByte q.revoked ++ flagByte x.overdue ++ flagByte x.overstay ++ flagByte x.remote) ++
             num1 q.role.weight ++ [workOrderStateValue w.state] ++
             (match slot with
               | none => [0, 0]
               | some (k, d) => 1 :: num1 k.val ++ 1 :: num1 d.lane.val ++ num1 d.address.val)))))) ∧
  (∀ (s : State) (p : Authority),
     let credential := fun q : Permit =>
       if p = .sec ∨ s.issuer q.workOrder = p then 1 :: bytes32 q.credential else [0]
     let inUse := fun l : List (PermitNo × Permit) => ∀ x ∈ l, s.permit x.1 = some x.2
     (∀ a : DesignatorArgs, s.takes p 14 a.encode →
       let out := exec (.readRoom p (.fields a)) s
       ((127 < a.site.toNat ∨ 31 < a.zone.toNat ∨ 31 < a.room.toNat) →
         out = .next (s.answered p 14 (.refused .badArgument []))) ∧
       ∀ r, carriesRoom a r →
         let site := s.site r.site
         let head := [postureValue s.posture] ++ num1 site.extra ++ num1 site.forced
         let members := fun l : List (PermitNo × Permit) => countByte l.length :: l.flatMap fun x =>
           num1 x.1.val ++ [roleValue x.2.role] ++ num1 x.2.role.weight ++ num1 x.2.workOrder.val ++ credential x.2
         (∃ results, out = .next (s.answered p 14 (.accepted results))) ∧
         ((∀ k o, s.record k = some o → o.room ≠ r) →
           out = .next (s.answered p 14 (.accepted (head ++ [0] ++ num1 0 ++ [0, 0, 0, 0] ++ [0, 0])))) ∧
         ∀ k o inside waits, s.record k = some o → o.room = r → (∀ j o', j < k → s.record j = some o' → o'.room ≠ r) →
           o.inside = inside.map Prod.fst → o.pending = waits.map Prod.fst → inUse (inside ++ waits) →
           let allowance := match s.posture with
             | .normal => min o.ceiling (o.guaranteed + site.extra)
             | .restricted => min o.ceiling (min o.guaranteed site.forced)
             | .lockdown => 0
           out = .next (s.answered p 14 (.accepted (head ++ 1 :: num1 k.val ++ num1 o.load ++ 1 :: num1 o.guaranteed ++
             1 :: num1 o.ceiling ++ 1 :: num1 allowance ++ 1 :: flagByte o.overAllowance ++ members inside ++
             members waits)))) ∧
     (∀ a : DoorArgs, s.takes p 24 a.encode →
       let out := exec (.readDoor p (.fields a)) s
       ((3 < a.lane.toNat ∨ 15 < a.address.toNat) → out = .next (s.answered p 24 (.refused .badArgument []))) ∧
       ∀ d, carriesDoor a d →
         let x := s.door d
         (∃ results, out = .next (s.answered p 24 (.accepted results))) ∧
         let holds := fun ns : List PermitNo => match x.admission with
           | .idle => ns = []
           | .pairing n _ | .awaitingConsent n _ => ns = [n]
           | .openEnter l _ => ns = l.map HeldPermit.permit
           | .openExit n _ => ns = n.toList
         ∀ held slot, holds (held.map Prod.fst) → inUse held → s.slotShown (fun y => y.door = d) slot →
           let deadline := fun t : Option Nat => match t with | none => [0] | some t => 1 :: num1 (t - s.count)
           let permits := countByte held.length :: held.flatMap fun h =>
             num1 h.1.val ++ num1 h.2.workOrder.val ++ credential h.2
           let pairing := match slot with | none => [0] | some (k, _) => 1 :: num1 k.val
           out = .next (s.answered p 24 (.accepted (
             (match x.binding with
               | none => [0]
               | some b => 1 :: num1 b.room.site.val ++ num1 b.room.zone.val ++ num1 b.room.room.val ++ [sideValue b.side]) ++
             [presenceValue x.presence] ++
             (match x.admission with
               | .idle => [0] ++ [0] ++ permits ++ pairing ++ [0]
               | .pairing .. => [1] ++ [0] ++ permits ++ pairing ++ [0]
               | .awaitingConsent .. => [2] ++ [0] ++ permits ++ pairing ++ [0]
               | .openEnter _ t => [3] ++ [1, 0] ++ permits ++ pairing ++ deadline t
               | .openExit _ t => [3] ++ [1, 1] ++ permits ++ pairing ++ deadline t) ++
             num1 x.outgoing.length ++ flagByte x.cancelPending)))) ∧
     (s.takes p 30 [] →
       let q := s.port p
       exec (.readStatus p (.fields {})) s = .next (s.answered p 30 (.accepted (
         (match s.clock with
           | none => [1, 0, 0, 0, 0, 0]
           | some t => 0 :: num2 t.day ++ num2 t.minute ++ num1 t.second) ++ num4 s.count ++
         [postureValue s.posture] ++ num1 s.timings.pairingWindow ++ num1 s.timings.passageTime ++
         num1 s.timings.consentWait ++
         ((List.finRange 4).flatMap fun l => flagByte (s.lane l).held ++ num1 (s.lane l).position.val ++
           (List.finRange 16).map fun b => presenceValue (s.door ⟨l, b⟩).presence) ++
         num1 ((List.finRange 64).countP fun n => (s.space n).current.isSome) ++
         num1 ((List.finRange 64).countP fun n => (s.workOrder n).isSome) ++
         num2 ((List.finRange 256).countP fun n => (s.permit n).isSome) ++
         num1 ((List.finRange 64).countP fun n => (s.record n).isSome) ++
         num1 ((List.finRange 4).countP fun n => (s.slot n).isSome) ++ num1 s.cache.length ++
         num1 q.queue.length ++ num1 (q.queue.countP Notice.isSafety) ++ flagByte q.dropped)))))

/-- BIND DOOR, whole (R133): its checks; the binding is written and nothing else of the door, and the reply carries the
binding before and after. That the sender is judged before the values is the model's reading (assumption 7). -/
def Obligations.BindDoorWritesBinding : Prop :=
  ∀ (s : State) (p : Authority) (a : BindDoorArgs), s.takes p 23 a.encode →
    let out := exec (.bindDoor p (.fields a)) s
    let good := fun (d : DoorId) (b : Option Binding) => carriesDoor a.door d ∧
      match a.binding, b with
      | none, none => True
      | some (room, side), some x => carriesRoom room x.room ∧ side = sideValue x.side
      | _, _ => False
    (p ≠ .sec → out = .next (s.answered p 23 (.refused .notPermitted []))) ∧
    (p = .sec → (∀ d b, ¬ good d b) → out = .next (s.answered p 23 (.refused .badArgument []))) ∧
    ∀ d b, p = .sec → good d b →
      ((s.door d).admission ≠ .idle → out = .next (s.answered p 23 (.refused .doorBusy []))) ∧
      ((s.door d).admission = .idle →
        out = .next ((s.setDoor d { s.door d with binding := b }).answered p 23
          (.accepted (optional bindingBytes (s.door d).binding ++ optional bindingBytes b))))

/-- A poll answered and a poll unanswered (R135, R160, R162, R163). The report NOTHING ends the turn, clears the miss
count, and announces to Security a door that was Unknown or Failed. Unanswered, the turn ends, and a Ready door counts
a miss, and at the third becomes Failed with DOOR_FAILED to Security: an Idle door with no slot only fails; a pairing
is cancelled; an Open whose sending set a deadline stays; an Open still unsent is removed and its admission ends, an
Exit's at once, and an Enter's with its permit released as `State.permitLeaves` says, or, with the books in balance,
all its permits. That an Exit answered twice ends when its second Open is removed, though the first was sent, is the
model's choice between two clauses of R163 (assumption 18). With no poll waiting for its answer nothing happens, and a
report that a door makes then is discarded, whatever it is. A report from an address that is not the one polled, and a
PRESENT of credential 0, are an unanswered poll, and that the turn ends with the miss at once is the model's reading
(R163, R166, assumption 15). -/
def Obligations.PollsMovePresence : Prop :=
  (∀ (s : State) (d : DoorId),
    let q := s.lane d.lane
    let x := s.door d
    let out := exec (.nothing d) s
    let t := (s.setLane d.lane { q with phase := .between, position := q.position + 1 }).setDoor d
      { x with presence := .ready, misses := 0 }
    (q.phase ≠ .polling → out = .next s) ∧
    (q.phase = .polling → q.position = d.address →
      (x.presence = .ready → out = .next t) ∧
      (x.presence = .unknown → out = .next (t.notify .sec (.doorAnnounced d x.binding .first))) ∧
      (x.presence = .failed → out = .next (t.notify .sec (.doorAnnounced d x.binding .recovered))))) ∧
  (∀ (s : State) (l : LaneNo),
    let q := s.lane l
    let d : DoorId := ⟨l, q.position⟩
    let x := s.door d
    let out := exec (.pollUnanswered l) s
    let s1 := s.setLane l { q with phase := .between, position := q.position + 1 }
    let failed := s1.setDoor d { x with presence := .failed, misses := 3 }
    let ended : Door := { x with
      presence := .failed, misses := 3, admission := .idle
      outgoing := (x.outgoing.filter fun v => !v.admits).map Verdict.ended }
    (q.phase ≠ .polling → out = .next s) ∧
    (q.phase = .polling →
      (x.presence ≠ .ready → out = .next s1) ∧
      (x.presence = .ready → x.misses ≤ 1 → out = .next (s1.setDoor d { x with misses := x.misses + 1 })) ∧
      (x.presence = .ready → 2 ≤ x.misses →
        ((∀ k y, s.slot k = some y → y.door ≠ d) →
          ((∀ v ∈ x.outgoing, v.admits = false) → out = .next (failed.notify .sec (.doorFailed d x.binding))) ∧
          (∀ held deadline, x.admission = .openExit held deadline → (∃ v ∈ x.outgoing, v.admits = true) →
            out = .next ((s1.setDoor d ended).notify .sec (.doorFailed d x.binding))) ∧
          ∀ h deadline p room e remote w k o, x.admission = .openEnter [h] deadline →
            (∃ v ∈ x.outgoing, v.admits = true) → s.recordsSound → s.permit h.permit = some p →
            p.state = .pending room e remote → s.workOrder p.workOrder = some w → s.record k = some o → o.room = room →
            ∃ t, out = .next t ∧ s1.changesOnly [.occupancy, .workOrders, .permits, .doors, .ports] t ∧
              t.door d = ended ∧ (∀ e, e ≠ d → t.door e = s.door e) ∧ s.permitLeaves t h.permit p w k o) ∧
        (∀ held deadline, x.admission = .openEnter held deadline → (∃ v ∈ x.outgoing, v.admits = true) →
          s.booksBalance →
          ∃ t, out = .next t ∧ s1.changesOnly [.occupancy, .workOrders, .permits, .doors, .ports] t ∧
            t.door d = ended ∧ (∀ e, e ≠ d → t.door e = s.door e) ∧ s.releases t (s.reservedAt fun e => e = d)) ∧
        ∀ k y, s.pairingsSound → s.slot k = some y → y.door = d → (∀ v ∈ x.outgoing, v.admits = false) →
          ∃ t, out = .next t ∧ s.changesOnly [.spaces, .doors, .slots, .lanes, .ports] t ∧ t.slot k = none ∧
            (∀ j, j ≠ k → t.slot j = s.slot j) ∧ (∀ e, e ≠ d → t.door e = s.door e) ∧
            t.door d = { x with
              presence := .failed, misses := 3, admission := .idle
              outgoing := x.outgoing.map Verdict.ended ++ [⟨.deny .cancelled, s.pairingCredentials y, false⟩] }))) ∧
  (∀ (s : State) (d : DoorId) (c : Credential) (i : Instr),
    let q := s.lane d.lane
    let presents := i = .presentEnter d c ∨ i = .presentExit d c ∨ i = .presentCheckin d c
    (presents ∨ i = .passage d ∨ i = .nothing d) → (i = .presentEnter d c → s.waiting = []) →
      (q.phase ≠ .polling → exec i s = .next s) ∧
      (q.phase = .polling → (q.position ≠ d.address ∨ (presents ∧ c = 0)) →
        exec i s = exec (.pollUnanswered d.lane) s))

/-- The turns of a lane (R135, R162, R165, R166): what a turn begins with; the verdict whose frame is sent leaves the
head of the list, with the passage deadline set for the Open of the door's admission, and the turn goes on with what
is on the list; a verdict that left the list while its frame was on the lane takes nothing from the list with it, and
at a door that is not Ready, as every door is after the ESTATE CLEAR that does so (R132, R161), the poll follows; a
CANCEL sent; and the end of a break. Every one of these events completes in every state. The phases of a turn and the
frames sent are the model's own record of it (assumption 12), and that such a verdict is sent to its end is its
reading (assumption 16). -/
def Obligations.TurnSendsVerdictsThenCancelThenPoll : Prop :=
  ∀ (s : State) (l : LaneNo),
    let q := s.lane l
    let d : DoorId := ⟨l, q.position⟩
    let x := s.door d
    let turn := exec (.pollTurn l) s
    let sent := exec (.verdictSent l) s
    (q.phase ≠ .between → turn = .next s) ∧
    (q.phase = .between →
      (∀ v rest, x.presence = .ready → x.outgoing = v :: rest →
        turn = .next (s.setLane l { q with phase := .sendingVerdict v, sent := [] })) ∧
      (x.presence = .ready → x.outgoing = [] → x.cancelPending = true →
        turn = .next (s.setLane l { q with phase := .sendingCancel, sent := [] })) ∧
      ((x.presence ≠ .ready ∨ (x.outgoing = [] ∧ x.cancelPending = false)) →
        turn = .next (s.setLane l { q with phase := .polling, sent := [pollFrame q.position] }))) ∧
    ((∀ v, q.phase ≠ .sendingVerdict v) → sent = .next s) ∧
    (∀ v, q.phase = .sendingVerdict v →
      let frames := q.sent ++ [verdictFrame q.position s.timings.passageTime v]
      let goesOn := fun (t : State) (rest : List Verdict) =>
        (∀ w rest', x.presence = .ready → rest = w :: rest' →
          sent = .next (t.setLane l { q with phase := .sendingVerdict w, sent := frames })) ∧
        (x.presence = .ready → rest = [] → x.cancelPending = true →
          sent = .next (t.setLane l { q with phase := .sendingCancel, sent := frames })) ∧
        ((x.presence ≠ .ready ∨ (rest = [] ∧ x.cancelPending = false)) →
          sent = .next (t.setLane l { q with phase := .polling, sent := frames ++ [pollFrame q.position] }))
      (∀ w rest, x.outgoing = w :: rest → w.outcome = v.outcome → w.credentials = v.credentials →
        let y : Door := { x with
          outgoing := rest
          admission := match w.admits, x.admission with
            | true, .openEnter held _ => .openEnter held (some (s.count + s.timings.passageTime))
            | true, .openExit held _ => .openExit held (some (s.count + s.timings.passageTime))
            | _, other => other }
        goesOn (s.setDoor d y) rest) ∧
      ((∀ w rest, x.outgoing = w :: rest → w.outcome ≠ v.outcome ∨ w.credentials ≠ v.credentials) →
        goesOn s x.outgoing)) ∧
    (q.phase ≠ .sendingCancel → exec (.cancelSent l) s = .next s) ∧
    (q.phase = .sendingCancel →
      exec (.cancelSent l) s = .next ((s.setDoor d { x with cancelPending := false }).setLane l
        { q with phase := .polling, sent := q.sent ++ [cancelFrame q.position, pollFrame q.position] })) ∧
    (q.phase ≠ .breaking → exec (.laneBreakEnd l) s = .next s) ∧
    (q.phase = .breaking → exec (.laneBreakEnd l) s = .next (s.setLane l { q with phase := .between }))

/-- An Enter presented at an Idle door is denied at the first failing check of R136 and R137, in their order: the
verdict deny with that code joins the list, DENIED goes to Security and to the permit's issuer (R141), and nothing
else changes beyond the answered poll. -/
def Obligations.EnterDeniedAtFirstFailingCheck : Prop :=
  ∀ (s : State) (d : DoorId) (c : Credential),
    let s1 := (s.endTurn d.lane).announce d
    c ≠ 0 → s.waiting = [] → s.credentialsDistinct →
    (s.lane d.lane).phase = .polling → (s.lane d.lane).position = d.address → (s.door d).admission = .idle →
    let out := exec (.presentEnter d c) s
    let x := s1.door d
    let denied := fun code =>
      s1.setDoor d { x with outgoing := x.outgoing ++ [⟨.deny code, [c], false⟩] }
    let plain := fun code => out = .next ((denied code).notify .sec (.denied d x.binding c code none))
    let named := fun code n (q : Permit) => out = .next ((denied code).notifyBoth (s.issuer q.workOrder)
      (.denied d x.binding c code (some (n, q.workOrder))))
    (∀ n q, s.permit n = some q → q.credential = c →
      (x.binding = none → named .doorUnbound n q) ∧
      (x.binding ≠ none →
        ((s.lane d.lane).held = true → named .held n q) ∧
        ((s.lane d.lane).held = false →
          (s.clock = none → named .clockUnset n q) ∧
          ∀ time, s.clock = some time →
            (s.posture = .lockdown → named .lockdown n q) ∧
            (s.posture ≠ .lockdown →
              (q.revoked = true → named .revoked n q) ∧
              (q.revoked = false →
                ((q.state ≠ .idle ∨ ∃ k y, s.slot k = some y ∧ y.holds n = true) → named .alreadyInside n q) ∧
                (q.state = .idle → (∀ k y, s.slot k = some y → y.holds n = false) →
                  ∀ w, s.workOrder q.workOrder = some w →
                    (w.state ≠ .active → named .workOrderInactive n q) ∧
                    (∀ first last, w.state = .active → w.days = some (first, last) →
                      (time.day < first ∨ last < time.day) → named .dayRange n q))))))) ∧
    ((∀ n q, s.permit n = some q → q.credential ≠ c) →
      (x.binding = none → plain .doorUnbound) ∧
      (x.binding ≠ none →
        ((s.lane d.lane).held = true → plain .held) ∧
        ((s.lane d.lane).held = false →
          (s.clock = none → plain .clockUnset) ∧
          (s.clock ≠ none →
            (s.posture = .lockdown → plain .lockdown) ∧ (s.posture ≠ .lockdown → plain .noPermit)))))

/-- An Enter that passes the checks of R136 and R137 is denied at the first failing check after them (R138, R139,
R140, R141): with the code that the judgement of the rights to the room gives; and where no escort is called for,
PARTY_FULL, ROOM_FULL and OCCUPANCY_TABLE_FULL in that order. The verdict joins the list, DENIED goes to Security and
to the permit's issuer, and nothing else changes beyond the judgement of the rights. Where an ESTATE CLEAR discards a
request of the judgement the admission is discarded with it, and nothing more is done (R38). An Enter at a door in
Awaiting Consent or Passage Open is denied DOOR_BUSY, and the admission stays (R134). Decisions that a row begun
meanwhile left waiting are then served (R38, assumption 13). -/
def Obligations.EnterDeniedByRightsPartyOrRoom : Prop :=
  (∀ (s s2 : State) (d : DoorId) (c : Credential) (b : Binding) (time : ClockTime) (n : PermitNo) (q : Permit)
    (w : WorkOrder) (o : WorkOption),
    let s1 := (s.endTurn d.lane).announce d
    c ≠ 0 → s.waiting = [] → s.credentialsDistinct →
    (s.lane d.lane).phase = .polling → (s.lane d.lane).position = d.address → (s.door d).admission = .idle →
    (s.door d).binding = some b → (s.lane d.lane).held = false → s.clock = some time → s.posture ≠ .lockdown →
    s.permit n = some q → q.credential = c → q.revoked = false → q.state = .idle →
    (∀ j y, s.slot j = some y → y.holds n = false) → s.workOrder q.workOrder = some w → w.state = .active →
    w.dayPasses time.day = true → w.selectedOption = some o →
    let rights := checkRights (.contractor d b.room n q) o.space b.room w o.window time.minute s1
    let denied := fun code => exec (.presentEnter d c) s = .next (((s2.setDoor d
      { s1.door d with outgoing := (s1.door d).outgoing ++ [⟨.deny code, [c], false⟩] }).notifyBoth
        (s.issuer q.workOrder) (.denied d (some b) c code (some (n, q.workOrder)))).settle none)
    (rights = (s2, .discarded) → exec (.presentEnter d c) s = .next s2) ∧
    (∀ code, rights = (s2, .error code) → denied code) ∧
    ∀ g ov, rights = (s2, .ok (g, ov)) →
      (q.role = .escort ∨ requirementLevel g ov time.minute = 0 ∨
        (requirementLevel g ov time.minute = 1 ∧ s2.escortInside b.room = true)) →
      let load := s.loadOf b.room + q.role.weight
      let allowed := s.allowanceAt b.room g.guaranteed g.ceiling
      (w.capInForce < w.party + q.role.weight → denied .partyFull) ∧
      (w.party + q.role.weight ≤ w.capInForce →
        (allowed < load → denied .roomFull) ∧
        (load ≤ allowed → (∀ k o', s2.record k = some o' → o'.room ≠ b.room) → (∀ k, s2.record k ≠ none) →
          denied .occupancyTableFull))) ∧
  (∀ (s : State) (d : DoorId) (c : Credential),
    let s1 := (s.endTurn d.lane).announce d
    c ≠ 0 → s.waiting = [] → s.credentialsDistinct →
    (s.lane d.lane).phase = .polling → (s.lane d.lane).position = d.address →
    ((s.door d).admission.state = .awaitingConsent ∨ (s.door d).admission.state = .passageOpen) →
    let out := exec (.presentEnter d c) s
    let x := s1.door d
    let t := s1.setDoor d { x with outgoing := x.outgoing ++ [⟨.deny .doorBusy, [c], false⟩] }
    (∀ n q, s.permit n = some q → q.credential = c → out = .next (t.notifyBoth (s.issuer q.workOrder)
      (.denied d x.binding c .doorBusy (some (n, q.workOrder))))) ∧
    ((∀ n q, s.permit n = some q → q.credential ≠ c) →
      out = .next (t.notify .sec (.denied d x.binding c .doorBusy none))))

/-- An Enter that passes every check opens the door (R138, R139, R140, R94): the rights to the room are judged by
`checkRights` (stated of its own); no escort is called for; party and room have place. The permit becomes Pending,
the loads rise by its weight, the record keeps the room's G and ceiling, the door holds the permit with its windows,
and the verdict Open joins the list. Beyond the judgement of the rights nothing else changes and no notice is queued.
Decisions that a row begun meanwhile left waiting are then served (R38, assumption 13). -/
def Obligations.EnterAdmittedOpensDoor : Prop :=
  ∀ (s s2 : State) (d : DoorId) (c : Credential) (b : Binding) (time : ClockTime) (n : PermitNo) (q : Permit)
    (w : WorkOrder) (o : WorkOption) (g : GrantSummary) (ov : OverlaySummary) (k : RecordNo),
    let s1 := (s.endTurn d.lane).announce d
    c ≠ 0 → s.waiting = [] → s.credentialsDistinct →
    (s.lane d.lane).phase = .polling → (s.lane d.lane).position = d.address → (s.door d).admission = .idle →
    (s.door d).binding = some b → (s.lane d.lane).held = false → s.clock = some time → s.posture ≠ .lockdown →
    s.permit n = some q → q.credential = c → q.revoked = false → q.state = .idle →
    (∀ j y, s.slot j = some y → y.holds n = false) → s.workOrder q.workOrder = some w → w.state = .active →
    w.dayPasses time.day = true → w.selectedOption = some o →
    checkRights (.contractor d b.room n q) o.space b.room w o.window time.minute s1 = (s2, .ok (g, ov)) →
    (q.role = .escort ∨ requirementLevel g ov time.minute = 0 ∨
      (requirementLevel g ov time.minute = 1 ∧ s2.escortInside b.room = true)) →
    w.party + q.role.weight ≤ w.capInForce →
    s.loadOf b.room + q.role.weight ≤ s.allowanceAt b.room g.guaranteed g.ceiling → s2.recordFor b.room = some k →
    let old := (s2.record k).getD ⟨b.room, 0, [], [], 0, 0, false⟩
    ∃ t, exec (.presentEnter d c) s = .next (t.settle none) ∧
      s2.changesOnly [.occupancy, .workOrders, .permits, .doors] t ∧
      t.permit n = some { q with state := .pending b.room d false } ∧ (∀ m, m ≠ n → t.permit m = s2.permit m) ∧
      t.workOrder q.workOrder = some { w with party := w.party + q.role.weight } ∧
      (∀ v, v ≠ q.workOrder → t.workOrder v = s2.workOrder v) ∧
      t.record k = some { old with
        pending := old.pending ++ [n], load := old.load + q.role.weight,
        guaranteed := g.guaranteed, ceiling := g.ceiling, overAllowance := false } ∧
      (∀ j, j ≠ k → t.record j = s2.record j) ∧
      t.door d = { s1.door d with
        admission := .openEnter [⟨n, g.windows, o.window⟩] none
        outgoing := (s1.door d).outgoing ++ [⟨.admitted, [c], true⟩] } ∧
      ∀ e, e ≠ d → t.door e = s2.door e

/-- An Enter whose level calls for an escort takes the lowest free slot (R30, R139, R150): the slot waits for an
escort until the pairing window ends, the door goes to Pairing with the decision values, the three drain counts rise
by one, and there is no verdict and no notice beyond the judgement of the rights. With every slot in use it is denied
PAIRING_BUSY. Decisions that a row begun meanwhile left waiting are then served (R38, assumption 13). -/
def Obligations.EnterBeginsPairing : Prop :=
  ∀ (s s2 : State) (d : DoorId) (c : Credential) (b : Binding) (time : ClockTime) (n : PermitNo) (q : Permit)
    (w : WorkOrder) (o : WorkOption) (g : GrantSummary) (ov : OverlaySummary),
    let s1 := (s.endTurn d.lane).announce d
    c ≠ 0 → s.waiting = [] → s.credentialsDistinct →
    (s.lane d.lane).phase = .polling → (s.lane d.lane).position = d.address → (s.door d).admission = .idle →
    (s.door d).binding = some b → (s.lane d.lane).held = false → s.clock = some time → s.posture ≠ .lockdown →
    s.permit n = some q → q.credential = c → q.revoked = false → q.state = .idle →
    (∀ j y, s.slot j = some y → y.holds n = false) → s.workOrder q.workOrder = some w → w.state = .active →
    w.dayPasses time.day = true → w.selectedOption = some o → 2 ≤ o.space.val →
    checkRights (.contractor d b.room n q) o.space b.room w o.window time.minute s1 = (s2, .ok (g, ov)) →
    let level := requirementLevel g ov time.minute
    q.role ≠ .escort → (2 ≤ level ∨ (level = 1 ∧ s2.escortInside b.room = false)) →
    (∀ k, s2.slot k = none → (∀ j < k, s2.slot j ≠ none) →
      ∃ t, exec (.presentEnter d c) s = .next (t.settle none) ∧ s2.changesOnly [.spaces, .doors, .slots] t ∧
        t.slot k = some ⟨d, n, if level = 3 then 2 else 1, .escort, none, .running (s.count + s2.timings.pairingWindow)⟩ ∧
        (∀ j, j ≠ k → t.slot j = s2.slot j) ∧
        t.door d = { s1.door d with admission := (.pairing n
          ⟨o.space, g.guaranteed, g.ceiling, g.category, g.remote, g.windows, o.window, ov, level⟩) } ∧
        (∀ e, e ≠ d → t.door e = s2.door e) ∧
        ∀ m, t.space m = if m = o.space ∨ m = 1 ∨ m = 0 then { s2.space m with drain := (s2.space m).drain + 1 }
          else s2.space m) ∧
    ((∀ k, s2.slot k ≠ none) →
      ∃ t, exec (.presentEnter d c) s = .next (t.settle none) ∧ s2.changesOnly [.doors, .ports] t ∧
        t.door d = { s1.door d with outgoing := (s1.door d).outgoing ++ [⟨.deny .pairingBusy, [c], false⟩] } ∧
        ∀ e, e ≠ d → t.door e = s2.door e)

/-- The escort step that ends a pairing, in a state whose work orders, permits and pairings are sound: the escort's
one step of a one-round pairing, or the last step of a two-round one, by the escort held (R94, R153, R154). With
place in both parties and in the room the slot is freed, the door opens for both, contractor then escort, each
becomes Pending, the room's load rises by both weights, and one verdict Open names both. Otherwise PARTY_FULL,
ROOM_FULL or OCCUPANCY_TABLE_FULL, in that order, ends the pairing with one verdict deny for both, and no permit,
record or work order changes. Decisions that a row begun meanwhile left waiting are then served (R38, assumption 13). -/
def Obligations.EscortCompletesPairing : Prop :=
  ∀ (s s2 : State) (d : DoorId) (c : Credential) (b : Binding) (time : ClockTime) (j : SlotNo) (x : Slot)
    (m n : PermitNo) (pc pe : Permit) (wc w0 : WorkOrder) (v : DecisionValues) (g : GrantSummary)
    (ov : OverlaySummary),
    let s1 := (s.endTurn d.lane).announce d
    c ≠ 0 → s.waiting = [] → s.workOrdersSound → s.permitsSound → s.pairingsSound → s.credentialsDistinct →
    (s.lane d.lane).phase = .polling → (s.lane d.lane).position = d.address →
    (s.door d).binding = some b → (s.door d).admission = .pairing m v → s.slot j = some x → x.door = d →
    ((x.expects = .escort ∧ x.rounds = 1 ∧ ∀ i y, s.slot i = some y → y.holds n = false) ∨
      (x.expects = .finalEscort ∧ ∃ ws, x.escort = some ⟨n, c, ws⟩)) →
    x.contractor = m → (s.lane d.lane).held = false → s.clock = some time →
    s.permit m = some pc → s.workOrder pc.workOrder = some wc →
    s.permit n = some pe → pe.credential = c → pe.role = .escort → pe.revoked = false → pe.state = .idle →
    s.workOrder 0 = some w0 →
    checkRights (.escort d b.room x n pc.workOrder) 1 b.room w0 none time.minute s1 = (s2, .ok (g, ov)) →
    let weight := pc.role.weight + pe.role.weight
    let parties := wc.party + pc.role.weight ≤ wc.capInForce ∧ w0.party + pe.role.weight ≤ w0.capInForce
    let load := s.loadOf b.room + weight
    let allowed := s.allowanceAt b.room v.guaranteed v.ceiling
    let lowered := fun (t : State) => ∀ sp, (s2.space sp).go = false →
      t.space sp = if sp = v.space ∨ sp = 1 ∨ sp = 0 then { s2.space sp with drain := (s2.space sp).drain - 1 }
        else s2.space sp
    let failed := fun code =>
      ∃ t, exec (.presentEnter d c) s = .next (t.settle none) ∧ s2.changesOnly [.spaces, .doors, .slots, .ports] t ∧
        t.slot j = none ∧ (∀ i, i ≠ j → t.slot i = s2.slot i) ∧ (∀ e, e ≠ d → t.door e = s2.door e) ∧ lowered t ∧
        t.door d = { s1.door d with
          admission := .idle
          outgoing := (s1.door d).outgoing.map Verdict.ended ++ [⟨.deny code, [pc.credential, c], false⟩] }
    (¬ parties → failed .partyFull) ∧
    (parties → allowed < load → failed .roomFull) ∧
    (parties → load ≤ allowed → s2.recordFor b.room = none → failed .occupancyTableFull) ∧
    ∀ k, parties → load ≤ allowed → s2.recordFor b.room = some k →
      let old := (s2.record k).getD ⟨b.room, 0, [], [], 0, 0, false⟩
      ∃ t, exec (.presentEnter d c) s = .next (t.settle none) ∧ t.slot j = none ∧ (∀ i, i ≠ j → t.slot i = s2.slot i) ∧
        s2.changesOnly [.spaces, .occupancy, .workOrders, .permits, .doors, .slots, .ports] t ∧
        t.permit m = some { pc with state := .pending b.room d false } ∧
        t.permit n = some { pe with state := .pending b.room d false } ∧
        (∀ i, i ≠ m → i ≠ n → t.permit i = s2.permit i) ∧
        t.workOrder pc.workOrder = some { wc with party := wc.party + pc.role.weight } ∧
        t.workOrder 0 = some { w0 with party := w0.party + pe.role.weight } ∧
        t.record k = some { old with
          pending := old.pending ++ [m, n], load := old.load + weight,
          guaranteed := v.guaranteed, ceiling := v.ceiling, overAllowance := false } ∧
        t.door d = { s1.door d with
          admission := .openEnter [⟨m, v.windows, v.optionWindow⟩, ⟨n, g.windows, none⟩] none
          outgoing := (s1.door d).outgoing.map Verdict.ended ++ [⟨.admitted, [pc.credential, c], true⟩] } ∧
        (∀ e, e ≠ d → t.door e = s2.door e) ∧ lowered t

/-- The steps of a pairing (R152, R153, R155). In a two-round pairing an escort that passes is held and the
contractor is expected within 8 seconds; the contractor's presentation is taken with no further check, with the clock
Unset too, and the escort is expected again within 8 seconds. No verdict is made. On a held lane every step is denied
HELD, and an escort that fails its own checks, at the escort step of either number of rounds or at the last step of
two rounds, is denied with the first of them: REVOKED, ALREADY_INSIDE, CLOCK_UNSET with the clock Unset, or the code
of its rights in space 1. Such a denial answers the escort alone, and the pairing goes on. Where an ESTATE CLEAR
discards a request of the escort's checks the pairing is discarded with it, and nothing more is done (R38). Decisions
that a row begun meanwhile left waiting are then served (R38, assumption 13). -/
def Obligations.TwoRoundPairingSteps : Prop :=
  ∀ (s : State) (d : DoorId) (c : Credential) (b : Binding) (j : SlotNo) (x : Slot) (v : DecisionValues),
    let s1 := (s.endTurn d.lane).announce d
    let out := exec (.presentEnter d c) s
    c ≠ 0 → s.waiting = [] → s.credentialsDistinct →
    (s.lane d.lane).phase = .polling → (s.lane d.lane).position = d.address →
    (s.door d).binding = some b → (s.door d).admission = .pairing x.contractor v → s.slot j = some x → x.door = d →
    (∀ i y, s.slot i = some y → y.door = d → i = j) →
    (∀ (time : ClockTime) (n : PermitNo) (pc pe : Permit) (w0 : WorkOrder) (s2 : State) (g : GrantSummary)
      (ov : OverlaySummary), s.clock = some time →
      x.expects = .escort → x.rounds = 2 → (s.lane d.lane).held = false →
      s.permit n = some pe → pe.credential = c → pe.role = .escort → pe.revoked = false → pe.state = .idle →
      (∀ i y, s.slot i = some y → y.holds n = false) → s.workOrder 0 = some w0 → s.permit x.contractor = some pc →
      checkRights (.escort d b.room x n pc.workOrder) 1 b.room w0 none time.minute s1 = (s2, .ok (g, ov)) →
      out = .next ((s2.setSlot j (some { x with
        escort := some ⟨n, c, g.windows⟩, expects := .contractor, timer := .running (s.count + 8) })).settle none)) ∧
    (∀ pc, x.expects = .contractor → s.permit x.contractor = some pc → pc.credential = c →
      ((s.lane d.lane).held = false → out = .next (s1.setSlot j (some { x with
        expects := .finalEscort, timer := .running (s.count + 8) }))) ∧
      ((s.lane d.lane).held = true →
        ∃ t, out = .next t ∧ s1.changesOnly [.doors, .ports] t ∧
          t.door d = { s1.door d with outgoing := (s1.door d).outgoing ++ [⟨.deny .held, [c], false⟩] } ∧
          ∀ e, e ≠ d → t.door e = s1.door e)) ∧
    ∀ (n : PermitNo) (pe : Permit), s.permit n = some pe → pe.credential = c → pe.role = .escort →
      (x.expects = .escort ∨ (x.expects = .finalEscort ∧ ∃ ws, x.escort = some ⟨n, c, ws⟩)) →
      let denied := fun (t : State) code => (t.setDoor d
        { s1.door d with outgoing := (s1.door d).outgoing ++ [⟨.deny code, [c], false⟩] }).notifyBoth
          (t.issuer pe.workOrder) (.denied d (some b) c code (some (n, pe.workOrder)))
      let busy := pe.state ≠ .idle ∨ (x.expects = .escort ∧ ∃ i y, s.slot i = some y ∧ y.holds n = true)
      ((s.lane d.lane).held = true → out = .next (denied s1 .held)) ∧
      ((s.lane d.lane).held = false →
        (pe.revoked = true → out = .next (denied s1 .revoked)) ∧
        (pe.revoked = false → busy → out = .next (denied s1 .alreadyInside)) ∧
        (pe.revoked = false → ¬ busy →
          (s.clock = none → out = .next (denied s1 .clockUnset)) ∧
          ∀ time w0 pc s2, s.clock = some time → s.workOrder 0 = some w0 → s.permit x.contractor = some pc →
            let rights := checkRights (.escort d b.room x n pc.workOrder) 1 b.room w0 none time.minute s1
            (∀ code, rights = (s2, .error code) → out = .next ((denied s2 code).settle none)) ∧
            (rights = (s2, .discarded) → out = .next s2)))

/-- A wrong presenter breaks a pairing (R152, R156): the slot is freed, the door is Idle, one verdict deny
PAIRING_BROKEN names the contractor and a held escort, a second answers the intruder, and no permit, record or work
order changes. The intruder presents Enter with no Escort-role permit where an escort is expected, with another
credential than the contractor's or the held escort's where one of these is, or CheckIn at any step. -/
def Obligations.WrongPresenterBreaksPairing : Prop :=
  ∀ (s : State) (d : DoorId) (c : Credential) (j : SlotNo) (x : Slot) (m : PermitNo) (v : DecisionValues),
    let s1 := (s.endTurn d.lane).announce d
    c ≠ 0 → s.waiting = [] → s.pairingsSound →
    (s.lane d.lane).phase = .polling → (s.lane d.lane).position = d.address →
    (s.door d).admission = .pairing m v → s.slot j = some x → x.door = d →
    let broken := fun c' : Instr =>
      ∃ t, exec c' s = .next t ∧ s1.changesOnly [.spaces, .doors, .slots, .ports] t ∧
        t.slot j = none ∧ (∀ i, i ≠ j → t.slot i = s.slot i) ∧ (∀ e, e ≠ d → t.door e = s.door e) ∧
        t.door d = { s1.door d with
          admission := .idle
          outgoing := (s1.door d).outgoing.map Verdict.ended ++
            [⟨.deny .pairingBroken, s.pairingCredentials x, false⟩, ⟨.deny .pairingBroken, [c], false⟩] }
    (x.expects = .escort → (∀ n q, s.permit n = some q → q.credential = c → q.role ≠ .escort) →
      broken (.presentEnter d c)) ∧
    (x.expects = .contractor → (s.door d).binding ≠ none →
      (∀ q, s.permit x.contractor = some q → q.credential ≠ c) → broken (.presentEnter d c)) ∧
    (∀ e, x.expects = .finalEscort → (s.door d).binding ≠ none → x.escort = some e → e.credential ≠ c →
      broken (.presentEnter d c)) ∧
    broken (.presentCheckin d c)

/-- An Exit at a bound door is answered Open whatever the posture, the lane's hold and the clock (R144): at an Idle door
it opens for the permit Inside this room, or, not-recorded and with PASSBACK, for anyone else; at a door open for the
same permit's Exit the Open is made again; at a door busy otherwise it is Open, not-recorded, with PASSBACK, which at a
door that holds no permit for its Exit is the model's choice (assumption 40). At a door in Pairing it breaks the pairing
and is then answered at the Idle door (R152, R156). At an Unbound door it is denied DOOR_UNBOUND. -/
def Obligations.ExitIsAlwaysAnswered : Prop :=
  ∀ (s : State) (d : DoorId) (c : Credential),
    let s1 := (s.endTurn d.lane).announce d
    c ≠ 0 → s.credentialsDistinct →
    (s.lane d.lane).phase = .polling → (s.lane d.lane).position = d.address →
    let out := exec (.presentExit d c) s
    let x := s1.door d
    let answer := fun (admission : Admission) (outcome : VerdictOutcome) (admits : Bool) =>
      s1.setDoor d { x with admission := admission, outgoing := x.outgoing ++ [⟨outcome, [c], admits⟩] }
    (∀ b, (s.door d).binding = some b →
      let insideHere := fun n => ∃ q stay, s.permit n = some q ∧ q.credential = c ∧ q.state = .inside stay ∧
        stay.room = b.room
      ((s.door d).admission = .idle →
        (∀ n, insideHere n →
          (∀ e deadline, e ≠ d → (s.door e).admission ≠ .openExit (some n) deadline) →
          out = .next (answer (.openExit (some n) none) (.opened .plain) true)) ∧
        (∀ n e deadline, insideHere n → e ≠ d → (s.door e).admission = .openExit (some n) deadline →
          ∃ t, out = .next t ∧ (t.door e).admission = .idle ∧ (t.door d).admission = .openExit (some n) none ∧
            (t.door d).outgoing = x.outgoing ++ [⟨.opened .plain, [c], true⟩] ∧ s1.changesOnly [.doors] t) ∧
        ((∀ n, ¬ insideHere n) → out = .next ((answer (.openExit none none) (.opened .notRecorded) true).notify .sec
          (.passback d (some b) c .notInside)))) ∧
      (∀ n q deadline, (s.door d).admission = .openExit (some n) deadline → s.permit n = some q →
        (q.credential = c → out = .next (answer x.admission (.opened .plain) true)) ∧
        (q.credential ≠ c → out = .next ((answer x.admission (.opened .notRecorded) false).notify .sec
          (.passback d (some b) c .doorBusy)))) ∧
      (((∃ held deadline, (s.door d).admission = .openEnter held deadline) ∨
          (∃ deadline, (s.door d).admission = .openExit none deadline) ∨
          (∃ n v, (s.door d).admission = .awaitingConsent n v)) →
        out = .next ((answer x.admission (.opened .notRecorded) false).notify .sec
          (.passback d (some b) c .doorBusy))) ∧
      ∀ m v j y, (s.door d).admission = .pairing m v → s.pairingsSound → s.slot j = some y → y.door = d →
        ∃ t, out = .next t ∧ s1.changesOnly [.spaces, .doors, .slots, .ports] t ∧
          t.slot j = none ∧ (∀ i, i ≠ j → t.slot i = s.slot i) ∧
          (let broken := x.outgoing.map Verdict.ended ++ [⟨.deny .pairingBroken, s.pairingCredentials y, false⟩];
            (∀ n, insideHere n → (∀ e deadline, e ≠ d → (s.door e).admission ≠ .openExit (some n) deadline) →
              t.door d = { x with
                admission := .openExit (some n) none, outgoing := broken ++ [⟨.opened .plain, [c], true⟩] } ∧
              ∀ e, e ≠ d → t.door e = s.door e) ∧
            ((∀ n, ¬ insideHere n) →
              t.door d = { x with
                admission := .openExit none none, outgoing := broken ++ [⟨.opened .notRecorded, [c], true⟩] } ∧
              ∀ e, e ≠ d → t.door e = s.door e))) ∧
    ((s.door d).binding = none →
      let denied := answer x.admission (.deny .doorUnbound) false
      ((∀ n q, s.permit n = some q → q.credential ≠ c) →
        out = .next (denied.notify .sec (.denied d none c .doorUnbound none))) ∧
      ∀ n q, s.permit n = some q → q.credential = c → out = .next (denied.notifyBoth (s.issuer q.workOrder)
        (.denied d none c .doorUnbound (some (n, q.workOrder)))))

/-- A CheckIn at a door not in Pairing (R123, R124): for a permit Inside this door's room the check-in deadline is set
again, overdue is cleared, the verdict is Open with the check-in mark, and CHECKED_IN goes to Security and the issuer;
otherwise it is denied. The door's admission stays. -/
def Obligations.CheckInRenewsDeadline : Prop :=
  ∀ (s : State) (d : DoorId) (c : Credential),
    let s1 := (s.endTurn d.lane).announce d
    c ≠ 0 → s.credentialsDistinct →
    (s.lane d.lane).phase = .polling → (s.lane d.lane).position = d.address →
    (∀ n v, (s.door d).admission ≠ .pairing n v) →
    let out := exec (.presentCheckin d c) s
    let x := s1.door d
    let answer := fun outcome =>
      s1.setDoor d { x with outgoing := x.outgoing ++ [⟨outcome, [c], false⟩] }
    ((s.door d).binding = none →
      ((∀ n q, s.permit n = some q → q.credential ≠ c) →
        out = .next ((answer (.deny .doorUnbound)).notify .sec (.denied d none c .doorUnbound none))) ∧
      ∀ n q, s.permit n = some q → q.credential = c →
        out = .next ((answer (.deny .doorUnbound)).notifyBoth (s.issuer q.workOrder)
          (.denied d none c .doorUnbound (some (n, q.workOrder))))) ∧
    ∀ b, (s.door d).binding = some b →
      ((∀ n q, s.permit n = some q → q.credential ≠ c) →
        out = .next ((answer (.deny .noPermit)).notify .sec (.denied d (some b) c .noPermit none))) ∧
      ∀ n q, s.permit n = some q → q.credential = c →
        ((∀ stay, q.state = .inside stay → stay.room ≠ b.room) →
          out = .next ((answer (.deny .notInside)).notifyBoth (s.issuer q.workOrder)
            (.denied d (some b) c .notInside (some (n, q.workOrder))))) ∧
        ∀ stay w, q.state = .inside stay → stay.room = b.room → s.workOrder q.workOrder = some w →
          let seconds := 60 * (if stay.remote then min w.renewal 15 else w.renewal)
          out = .next (((answer (.opened .checkIn)).setPermit n (some { q with
            state := .inside { stay with checkInDeadline := some (s.count + seconds), overdue := false } })).notifyBoth
              (s.issuer q.workOrder) (.checkedIn n stay.room d seconds))

/-- A PASSAGE confirms the entry of the permits that the door holds (R95, R121, R142): each Pending one becomes Inside
with a check-in deadline and, while the clock is Set and every window it entered with contains the minute, a stay
deadline, else overstay at once; each moves from its room's pending list to the end of the inside list; no load
changes; the door is Idle. Of a permit alone at the door, OVERSTAY where a window has closed and then ENTERED go to
Security and to the issuer, in the order of assumption 21. -/
def Obligations.PassageConfirmsEntry : Prop :=
  ∀ (s : State) (d : DoorId) (b : Binding) (held : List HeldPermit) (deadline : Option Nat),
    let s1 := (s.endTurn d.lane).announce d
    (s.lane d.lane).phase = .polling → (s.lane d.lane).position = d.address →
    (s.door d).binding = some b →
    (s.door d).admission = .openEnter held deadline → (held.map HeldPermit.permit).Nodup →
    ∃ t, exec (.passage d) s = .next t ∧ s1.changesOnly [.occupancy, .permits, .doors, .ports] t ∧
      t.door d = { s1.door d with admission := .idle, outgoing := (s1.door d).outgoing.map Verdict.ended } ∧
      (∀ e, e ≠ d → t.door e = s.door e) ∧ (∀ room, t.loadOf room = s.loadOf room) ∧
      (∀ m, m ∉ held.map HeldPermit.permit → t.permit m = s.permit m) ∧
      (∀ h q room e remote w, h ∈ held → s.permit h.permit = some q → q.state = .pending room e remote →
        s.workOrder q.workOrder = some w →
        let windows := h.windows ++ h.optionWindow.toList
        let checkIn := s.count + 60 * (if remote then min w.renewal 15 else w.renewal)
        (s.clock = none → t.permit h.permit = some { q with
          state := .inside ⟨room, remote, none, some checkIn, false, false⟩ }) ∧
        ∀ time, s.clock = some time →
          ((∀ x ∈ windows, x.contains time.minute = true) → t.permit h.permit = some { q with
            state := .inside ⟨room, remote,
              some (minuteDeadline s.count time (effectiveRemaining windows time.minute)), some checkIn, false, false⟩ }) ∧
          ((∃ x ∈ windows, x.contains time.minute = false) → t.permit h.permit = some { q with
            state := .inside ⟨room, remote, none, some checkIn, false, true⟩ })) ∧
      (∀ room k o, s.recordsSound → s.record k = some o → o.room = room →
        (∀ h ∈ held, ∃ q e remote, s.permit h.permit = some q ∧ q.state = .pending room e remote) →
        t.record k = some { o with
          pending := (held.map HeldPermit.permit).foldl List.erase o.pending
          inside := o.inside ++ held.map HeldPermit.permit } ∧
        ∀ j, j ≠ k → t.record j = s.record j) ∧
      ∀ h q room e remote, held = [h] → s.permit h.permit = some q → q.state = .pending room e remote →
        let windows := h.windows ++ h.optionWindow.toList
        let entered := fun (u : State) stay =>
          t.ports = (u.notifyBoth (s.issuer q.workOrder) (.entered h.permit q.credential room d b.side stay)).ports
        (s.clock = none → entered s1 none) ∧
        ∀ time, s.clock = some time →
          ((∀ x ∈ windows, x.contains time.minute = true) →
            entered s1 (some (minuteDeadline s.count time (effectiveRemaining windows time.minute) - s.count))) ∧
          ((∃ x ∈ windows, x.contains time.minute = false) →
            entered (s1.notifyBoth (s.issuer q.workOrder) (.overstay h.permit q.credential q.workOrder room)) none)

/-- A PASSAGE at a door open for an Exit (R116, R122, R130, R145), and an unrecorded one (R146). A permit Inside this
room leaves it as `State.permitLeaves` says: it becomes Idle, or is freed when it was revoked, both loads fall by its
weight, and a Closing work order of which it was the last permit inside is freed. EXITED goes to Security and to the
issuer, and PERMIT_RELEASED with cause exit to the issuer of a freed permit. A door holding no permit only becomes
Idle; at an Unbound door, and at one not in Passage Open, UNRECORDED_PASSAGE goes to Security and the door stays as it
is. That EXITED comes before PERMIT_RELEASED is the model's reading of the night in spec/08, 8.8 (assumption 21). -/
def Obligations.PassageConfirmsExitOrIsUnrecorded : Prop :=
  ∀ (s : State) (d : DoorId),
    let s1 := (s.endTurn d.lane).announce d
    (s.lane d.lane).phase = .polling → (s.lane d.lane).position = d.address →
    let out := exec (.passage d) s
    let x := s1.door d
    ((x.binding = none ∨ x.admission.state ≠ .passageOpen) →
      out = .next (s1.notify .sec (.unrecordedPassage d x.binding x.admission.state))) ∧
    ∀ b deadline, x.binding = some b →
      (x.admission = .openExit none deadline →
        out = .next (s1.setDoor d { x with admission := .idle, outgoing := x.outgoing.map Verdict.ended })) ∧
      ∀ n q stay k o w, x.admission = .openExit (some n) deadline → s.recordsSound → s.permit n = some q →
        q.state = .inside stay → stay.room = b.room → s.record k = some o → o.room = b.room →
        s.workOrder q.workOrder = some w →
        ∃ t, out = .next t ∧ s1.changesOnly [.occupancy, .workOrders, .permits, .doors, .ports] t ∧
          t.door d = { x with admission := .idle, outgoing := x.outgoing.map Verdict.ended } ∧
          (∀ e, e ≠ d → t.door e = s.door e) ∧ s.permitLeaves t n q w k o ∧
          let exited := s1.notifyBoth (s.issuer q.workOrder) (.exited false n q.credential b.room (some (d, b.side)))
          (s.allowanceAt o.room o.guaranteed o.ceiling < o.load - q.role.weight → o.overAllowance = true) →
          ¬ s.lastCounted n q w →
          t.ports = (if q.revoked then
            exited.notify (s.issuer q.workOrder) (.permitReleased n q.credential .exit) else exited).ports

/-- PASSAGE_DEADLINE (R116, R122, R130, R143): before it, or at a door not in Passage Open, nothing happens; at it an
Exit simply ends; an Enter ends with each held permit that is not revoked and whose work order is not Closing Idle
again. A permit alone at the door is released as `State.permitLeaves` says: freed when it was revoked, with
PERMIT_RELEASED of cause released to its issuer, and with it a Closing work order of which it was the last permit
counted. The door is Idle, and no other notice is queued. With the books in balance all permits of an Enter are
released. -/
def Obligations.PassageDeadlineEndsAdmission : Prop :=
  ∀ (s : State) (d : DoorId),
    let out := exec (.passageDeadline d) s
    let x := s.door d
    let ended : Door := { x with admission := .idle, outgoing := x.outgoing.map Verdict.ended }
    ((∀ t, x.admission.deadline = some t → s.count < t) → out = .next s) ∧
    (∀ held t, x.admission = .openExit held (some t) → t ≤ s.count → out = .next (s.setDoor d ended)) ∧
    (∀ held t, x.admission = .openEnter held (some t) → t ≤ s.count →
      (held.map HeldPermit.permit).Nodup →
      (∀ h ∈ held, ∃ q w room e remote, s.permit h.permit = some q ∧ q.state = .pending room e remote ∧
        q.revoked = false ∧ s.workOrder q.workOrder = some w ∧ w.isClosing = false) →
      ∃ u, out = .next u ∧ s.changesOnly [.occupancy, .workOrders, .permits, .doors, .ports] u ∧
        u.door d = ended ∧ (∀ e, e ≠ d → u.door e = s.door e) ∧
        (∀ m, m ∉ held.map HeldPermit.permit → u.permit m = s.permit m) ∧
        (∀ h ∈ held, ∀ q, s.permit h.permit = some q → u.permit h.permit = some { q with state := .idle }) ∧
        ∀ w r, s.workOrder w = some r → ∃ load, u.workOrder w = some { r with party := load } ∧ load ≤ r.party) ∧
    (∀ held t, x.admission = .openEnter held (some t) → t ≤ s.count → s.booksBalance →
      ∃ u, out = .next u ∧ s.changesOnly [.occupancy, .workOrders, .permits, .doors, .ports] u ∧
        u.door d = ended ∧ (∀ e, e ≠ d → u.door e = s.door e) ∧ s.releases u (s.reservedAt fun e => e = d)) ∧
    ∀ h t q room e remote w k o, x.admission = .openEnter [h] (some t) → t ≤ s.count → s.recordsSound →
      s.permit h.permit = some q → q.state = .pending room e remote → s.workOrder q.workOrder = some w →
      s.record k = some o → o.room = room →
      ∃ u, out = .next u ∧ s.changesOnly [.occupancy, .workOrders, .permits, .doors, .ports] u ∧
        u.door d = ended ∧ (∀ e, e ≠ d → u.door e = s.door e) ∧ s.permitLeaves u h.permit q w k o ∧
        ((s.allowanceAt o.room o.guaranteed o.ceiling < o.load - q.role.weight → o.overAllowance = true) →
          ¬ s.lastCounted h.permit q w →
          u.ports = (if q.revoked then
            s.notify (s.issuer q.workOrder) (.permitReleased h.permit q.credential .released) else s).ports)

/-- STEP_DEADLINE and CONSENT_DEADLINE (R157, R158, R159), in a state whose pairings are sound. Before its deadline
and while frozen a slot does not time out. The escort step of a remote room of level 1 or 2 moves to Awaiting Consent
with CONSENT_REQUEST to Security; every other step ends the pairing with ESCORT_ABSENT, and Consent with
CONSENT_TIMEOUT. -/
def Obligations.PairingTimesOut : Prop :=
  ∀ (s : State) (k : SlotNo),
    let step := exec (.stepDeadline k) s
    let consent := exec (.consentDeadline k) s
    (s.slot k = none → step = .next s ∧ consent = .next s) ∧
    ∀ x, s.slot k = some x →
      let ended := fun (out : Host.Outcome State Fault Refusal) (code : DenyCode) =>
        ∃ t, out = .next t ∧ s.changesOnly [.spaces, .doors, .slots, .ports] t ∧
          t.slot k = none ∧ (∀ j, j ≠ k → t.slot j = s.slot j) ∧ (∀ e, e ≠ x.door → t.door e = s.door e) ∧
          t.door x.door = { s.door x.door with
            admission := .idle
            outgoing := (s.door x.door).outgoing.map Verdict.ended ++
              [⟨.deny code, s.pairingCredentials x, false⟩] }
      (x.expects = .consent → step = .next s) ∧ (x.expects ≠ .consent → consent = .next s) ∧
      ((∀ t, x.timer = .running t → s.count < t) → step = .next s ∧ consent = .next s) ∧
      ∀ t, x.timer = .running t → t ≤ s.count →
        (x.expects = .consent → s.pairingsSound → ended consent .consentTimeout) ∧
        (∀ m v, (s.door x.door).admission = .pairing m v →
          (x.expects = .escort → v.remote = true → v.level ≠ 3 → ∀ q, s.permit x.contractor = some q →
            step = .next (((s.setSlot k (some { x with
              expects := .consent, timer := .running (s.count + s.timings.consentWait) })).setDoor x.door
                { s.door x.door with admission := .awaitingConsent x.contractor v }).notify .sec
                  (.consentRequest x.door (s.door x.door).binding x.contractor q.credential q.workOrder v.level
                    s.timings.consentWait))) ∧
          (x.expects ≠ .consent → (x.expects ≠ .escort ∨ v.remote = false ∨ v.level = 3) → s.pairingsSound →
            ended step .escortAbsent))

/-- REMOTE CONSENT (R158): its checks in order; a refusal ends the pairing with CONSENT_REFUSED; a grant for which
party and room have place opens the door for the contractor alone, remote-supervised; and a grant that finds none ends
the pairing with PARTY_FULL, ROOM_FULL or OCCUPANCY_TABLE_FULL, in that order, and the reply carries the code. -/
def Obligations.RemoteConsentDecides : Prop :=
  ∀ (s : State) (p : Authority) (a : RemoteConsentArgs), s.takes p 25 a.encode →
    let out := exec (.remoteConsent p (.fields a)) s
    ((3 < a.door.lane.toNat ∨ 15 < a.door.address.toNat ∨ 1 < a.decision.toNat) →
      out = .next (s.answered p 25 (.refused .badArgument []))) ∧
    ∀ d, carriesDoor a.door d → a.decision.toNat ≤ 1 →
      (p ≠ .sec → out = .next (s.answered p 25 (.refused .notPermitted []))) ∧
      (p = .sec → (∀ n v, (s.door d).admission ≠ .awaitingConsent n v) →
        out = .next (s.answered p 25 (.refused .tooLate []))) ∧
      ∀ m v b j x, p = .sec → s.pairingsSound → (s.door d).admission = .awaitingConsent m v →
        (s.door d).binding = some b → s.slot j = some x → x.door = d →
        let ended := fun code : DenyCode =>
          ∃ t, out = .next t ∧ s.changesOnly [.spaces, .doors, .slots, .ports] t ∧
            s.replied t p 25 (.accepted (num1 d.lane.val ++ num1 d.address.val ++ [a.decision, code.value])) ∧
            t.slot j = none ∧ (∀ i, i ≠ j → t.slot i = s.slot i) ∧ (∀ e, e ≠ d → t.door e = s.door e) ∧
            t.door d = { s.door d with
              admission := .idle
              outgoing := (s.door d).outgoing.map Verdict.ended ++ [⟨.deny code, s.pairingCredentials x, false⟩] }
        (a.decision = 1 → ended .consentRefused) ∧
        ∀ q w, a.decision = 0 → s.permit m = some q → s.workOrder q.workOrder = some w →
          let load := s.loadOf b.room + q.role.weight
          let allowed := s.allowanceAt b.room v.guaranteed v.ceiling
          (w.capInForce < w.party + q.role.weight → ended .partyFull) ∧
          (w.party + q.role.weight ≤ w.capInForce →
            (allowed < load → ended .roomFull) ∧
            (load ≤ allowed → s.recordFor b.room = none → ended .occupancyTableFull) ∧
            ∀ k, load ≤ allowed → s.recordFor b.room = some k →
              let old := (s.record k).getD ⟨b.room, 0, [], [], 0, 0, false⟩
              ∃ t, out = .next t ∧
                s.changesOnly [.spaces, .occupancy, .workOrders, .permits, .doors, .slots, .ports] t ∧
                s.replied t p 25 (.accepted (num1 d.lane.val ++ num1 d.address.val ++ [0, 0])) ∧
                t.slot j = none ∧ (∀ i, i ≠ j → t.slot i = s.slot i) ∧
                t.permit m = some { q with state := .pending b.room d true } ∧
                (∀ i, i ≠ m → t.permit i = s.permit i) ∧
                t.workOrder q.workOrder = some { w with party := w.party + q.role.weight } ∧
                t.record k = some { old with
                  pending := old.pending ++ [m], load := old.load + q.role.weight,
                  guaranteed := v.guaranteed, ceiling := v.ceiling, overAllowance := false } ∧
                t.door d = { s.door d with
                  admission := .openEnter [⟨m, v.windows, v.optionWindow⟩] none
                  outgoing := (s.door d).outgoing.map Verdict.ended ++ [⟨.admitted, [q.credential], true⟩] } ∧
                ∀ e, e ≠ d → t.door e = s.door e)

/-- HOLD LANE and RELEASE LANE, whole (R164, R159): their refusals; the flag is written and the slots of the lane's
doors freeze with the seconds left, at least 1, or thaw with a deadline those seconds on; where the flag already
stands so nothing changes. That the sender is judged before the lane is the model's reading (assumption 7). -/
def Obligations.HoldAndReleaseFreezeSlots : Prop :=
  ∀ (s : State) (p : Authority) (a : NumberArgs) (hold : Bool),
    let code : Byte := if hold then 26 else 27
    s.takes p code a.encode →
    let out := if hold then exec (.holdLane p (.fields a)) s else exec (.releaseLane p (.fields a)) s
    (p ≠ .sec → out = .next (s.answered p code (.refused .notPermitted []))) ∧
    (p = .sec → 3 < a.number.toNat → out = .next (s.answered p code (.refused .badArgument []))) ∧
    ∀ l : LaneNo, p = .sec → a.number.toNat = l.val →
      let reply := Answer.accepted (num1 l.val ++ [if (s.lane l).held then 1 else 0, if hold then 1 else 0])
      ((s.lane l).held = hold → out = .next (s.answered p code reply)) ∧
      ((s.lane l).held ≠ hold →
        ∃ t, out = .next (t.answered p code reply) ∧ s.changesOnly [.lanes, .slots] t ∧
          t.lane l = { s.lane l with held := hold } ∧ (∀ m, m ≠ l → t.lane m = s.lane m) ∧
          ∀ k, (s.slot k = none → t.slot k = none) ∧
            ∀ x, s.slot k = some x →
              (x.door.lane ≠ l → t.slot k = some x) ∧
              (x.door.lane = l →
                (∀ deadline, hold = true → x.timer = .running deadline →
                  t.slot k = some { x with timer := .frozen (max 1 (deadline - s.count)) }) ∧
                (∀ left, hold = false → x.timer = .frozen left →
                  t.slot k = some { x with timer := .running (s.count + left) })))

/-- RESET LANE (R160, R165), in a state whose pairings are sound: its refusals; every message of the lane's doors is
dropped, every pairing there ends with no verdict, an admission whose Open was unsent ends, with the books in balance
releasing the permits and loads of an Enter, and one whose Open was sent stays, every door of the lane is Unknown, the
poll position is 0 and the break is driven; the hold flag, the other lanes and their doors and slots stay. That an
Exit answered twice ends when its second Open is dropped, though the first was sent, is the model's choice between two
clauses of R165 (assumption 18). -/
def Obligations.ResetLaneDropsAndForgets : Prop :=
  ∀ (s : State) (p : Authority) (a : NumberArgs), s.takes p 28 a.encode →
    let out := exec (.resetLane p (.fields a)) s
    (p ≠ .sec → out = .next (s.answered p 28 (.refused .notPermitted []))) ∧
    (p = .sec → 3 < a.number.toNat → out = .next (s.answered p 28 (.refused .badArgument []))) ∧
    ∀ l : LaneNo, p = .sec → a.number.toNat = l.val → s.pairingsSound →
      ∃ t, out = .next t ∧
        s.changesOnly [.spaces, .occupancy, .workOrders, .permits, .doors, .slots, .lanes, .ports] t ∧
        s.replied t p 28 (.accepted (num1 l.val ++ num1 (s.pairingsOn l))) ∧
        t.lane l = { s.lane l with position := 0, phase := .breaking, sent := [] } ∧
        (∀ m, m ≠ l → t.lane m = s.lane m) ∧
        (∀ k x, s.slot k = some x → if x.door.lane = l then t.slot k = none else t.slot k = some x) ∧
        (∀ d, d.lane ≠ l → t.door d = s.door d) ∧
        (s.booksBalance → s.releases t (s.reservedAt fun d => d.lane = l ∧ (s.door d).openWaiting)) ∧
        ∀ d, d.lane = l →
          t.door d = { s.door d with
            presence := .unknown, misses := 0, outgoing := [], cancelPending := false
            admission := match (s.door d).admission with
              | .pairing .. | .awaitingConsent .. | .idle => .idle
              | open_ => if (s.door d).openWaiting then .idle else open_ }

/-- CHECKIN_DEADLINE and STAY_DEADLINE, whole (R125, R126): when the count has reached the deadline of a permit
Inside, the deadline is removed, the flag is set, and the notice goes to Security and to the issuer; otherwise nothing
happens. -/
def Obligations.PermitDeadlinesRaiseFlags : Prop :=
  ∀ (s : State) (n : PermitNo),
    let checkIn := exec (.checkinDeadline n) s
    let stayOver := exec (.stayDeadline n) s
    ((∀ q stay t, s.permit n = some q → q.state = .inside stay → stay.checkInDeadline = some t → s.count < t) →
      checkIn = .next s) ∧
    ((∀ q stay t, s.permit n = some q → q.state = .inside stay → stay.stayDeadline = some t → s.count < t) →
      stayOver = .next s) ∧
    ∀ q stay t, s.permit n = some q → q.state = .inside stay → t ≤ s.count →
      (stay.checkInDeadline = some t →
        checkIn = .next ((s.setPermit n (some { q with
          state := .inside { stay with checkInDeadline := none, overdue := true } })).notifyBoth
            (s.issuer q.workOrder) (.overdue n q.credential q.workOrder stay.room))) ∧
      (stay.stayDeadline = some t →
        stayOver = .next ((s.setPermit n (some { q with
          state := .inside { stay with stayDeadline := none, overstay := true } })).notifyBoth
            (s.issuer q.workOrder) (.overstay n q.credential q.workOrder stay.room)))

/-! ### Laws of the whole device -/

/-- While the posture is Lockdown no report of a door and no other event opens a door for an Enter, no Open to an Enter
waits for a door, and no lane is sending one (R86, R87, R136, R147). That Lockdown is quiet before the step is a
premise; that every step keeps it is stated of its own. That an Open in flight is withdrawn too is the model's reading
of R86 (assumption 16). -/
def Obligations.LockdownOpensNoDoorForEnter : Prop :=
  ∀ (s t : State) (d : DoorId) (held : List HeldPermit) (deadline : Option Nat),
    s.waiting = [] → s.lockdownQuiet → s.posture = .lockdown → t.posture = .lockdown → step s = .next t →
    (t.door d).admission ≠ .openEnter held deadline ∧ (∀ v ∈ (t.door d).outgoing, v.outcome ≠ .admitted) ∧
      ∀ l v, (t.lane l).phase = .sendingVerdict v → v.outcome ≠ .admitted

/-- Every step keeps the bounds of the notice queues (R174) and of the cache (R62), the ranges of the clock, the
timings, the site records and the miss counts (R74, R88, R161, R170), and the order of a port: a reply waits only behind
a frame being sent, and a command only behind a reply (R169, R176). It leaves no decision waiting for the resolver,
which is the model's reading of R38 (assumption 13). -/
def Obligations.DeviceBoundsAreKept : Prop :=
  ∀ (s t : State), s.waiting = [] → step s = .next t →
    t.waiting = [] ∧ (s.queuesBounded → t.queuesBounded) ∧ (s.cacheBounded → t.cacheBounded) ∧
    (s.settingsInRange → t.settingsInRange) ∧ (s.portsOrdered → t.portsOrdered)

/-- Every step keeps the laws of the tables: a Free block is zero (R1), no block of a top table is Free or another
authority's (R17), Go means a drain count of at least 1 (R28), spaces 0 and 1 stay Security's (R23), work order 0 keeps
its fixed values (R102), no two permits share a credential (R118), and no two records name one room or stand empty
(R91). That the endorsement flags and the shortfall flag of work order 0, to which R102 gives no value, stay clear, is
the model's choice (assumption 39). -/
def Obligations.TableLawsAreKept : Prop :=
  (∀ (s t : State), s.waiting = [] → step s = .next t →
     (s.freeBlocksZero → t.freeBlocksZero) ∧ (s.topTablesOwned → t.topTablesOwned) ∧
     (s.goMeansDraining → t.goMeansDraining) ∧ (s.spacesSound → t.spacesSound)) ∧
  (∀ (s t : State), s.waiting = [] → step s = .next t →
     (s.rosterFixed → t.rosterFixed) ∧ (s.credentialsDistinct → t.credentialsDistinct) ∧
     (s.recordsSound → t.recordsSound))

/-- Every step keeps the books of the device in balance, with Lockdown quiet: the loads of rooms and work orders are the
sums of the weights of the permits counted, every pairing slot agrees with its door and permits, every drain count is
the number of pairings counted, and in Lockdown no admission waits and no Open to an Enter waits or is sent (R30, R85,
R86, R91, R113, R149; a frame in flight by the reading of assumption 16). -/
def Obligations.BooksStayBalanced : Prop :=
  ∀ (s t : State), s.waiting = [] → s.booksBalance → s.lockdownQuiet → step s = .next t →
    t.booksBalance ∧ t.lockdownQuiet

/-- Right after power-on every law of the device holds. -/
def Obligations.LawsHoldAtReset : Prop :=
  State.reset.waiting = [] ∧ State.reset.queuesBounded ∧ State.reset.cacheBounded ∧ State.reset.settingsInRange ∧
  State.reset.portsOrdered ∧ State.reset.freeBlocksZero ∧
  State.reset.topTablesOwned ∧ State.reset.goMeansDraining ∧ State.reset.credentialsDistinct ∧
  State.reset.booksBalance ∧ State.reset.lockdownQuiet
end

