-- ==== Sys2Proof/Laws/Codec.lean ====
section
/-! SUPPORT. Numbers and their bytes, there and back (R168). -/

namespace Sys2Proof.Machine

theorem word16_getLsbD (hi lo : Byte) (i : Nat) :
    (word16 hi lo).getLsbD i = if i < 8 then lo.getLsbD i else hi.getLsbD (i - 8) :=
  BitVec.getLsbD_append

theorem word32_getLsbD (b3 b2 b1 b0 : Byte) (i : Nat) :
    (word32 b3 b2 b1 b0).getLsbD i =
      if i < 16 then (word16 b1 b0).getLsbD i else (word16 b3 b2).getLsbD (i - 16) :=
  BitVec.getLsbD_append

/-- A number is the number of its two bytes. -/
@[simp] theorem word16_bytes (w : Word16) : word16 (w.extractLsb' 8 8) (w.extractLsb' 0 8) = w := by
  apply BitVec.eq_of_getLsbD_eq
  intro i hi
  rw [word16_getLsbD]
  split
  · simp [*]
  · rw [BitVec.getLsbD_extractLsb']
    simp only [show i - 8 < 8 by omega, decide_true, Bool.true_and]
    congr 1
    omega

/-- The bytes of a number of two bytes are those bytes. -/
@[simp] theorem bytes16_word16 (hi lo : Byte) : bytes16 (word16 hi lo) = [hi, lo] := by
  simp only [bytes16, List.cons.injEq, and_true]
  constructor <;> apply BitVec.eq_of_getLsbD_eq <;> intro i hi <;>
    simp [word16_getLsbD, hi]

/-- A number is the number of its four bytes. -/
@[simp] theorem word32_bytes (w : Word32) :
    word32 (w.extractLsb' 24 8) (w.extractLsb' 16 8) (w.extractLsb' 8 8) (w.extractLsb' 0 8) = w := by
  apply BitVec.eq_of_getLsbD_eq
  intro i hi
  simp only [word32_getLsbD, word16_getLsbD, BitVec.getLsbD_extractLsb']
  split <;> split
  · simp [*]
  · rw [decide_eq_true (show i - 8 < 8 by omega), Bool.true_and]
    congr 1
    omega
  · rw [decide_eq_true (show i - 16 < 8 by omega), Bool.true_and]
    congr 1
    omega
  · rw [decide_eq_true (show i - 16 - 8 < 8 by omega), Bool.true_and]
    congr 1
    omega

/-- The bytes of a number of four bytes are those bytes. -/
@[simp] theorem bytes32_word32 (b3 b2 b1 b0 : Byte) : bytes32 (word32 b3 b2 b1 b0) = [b3, b2, b1, b0] := by
  simp only [bytes32, List.cons.injEq, and_true]
  refine ⟨?_, ?_, ?_, ?_⟩ <;> apply BitVec.eq_of_getLsbD_eq <;> intro i hi <;>
    simp only [BitVec.getLsbD_extractLsb', word32_getLsbD, word16_getLsbD, hi, decide_true, Bool.true_and]
  · rw [if_neg (by omega), if_neg (by omega)]
    congr 1
    omega
  · rw [if_neg (by omega), if_pos (by omega)]
    congr 1
    omega
  · rw [if_pos (by omega), if_neg (by omega)]
    congr 1
    omega
  · rw [if_pos (by omega), if_pos (by omega)]
    congr 1
    omega

end Sys2Proof.Machine
end

