-- ==== Sys2Proof/Laws/State.lean ====
section
/-! SUPPORT. What each update of the state changes: one lemma for each field and each update, so that no proof
unfolds an update, and the value read back after a write. -/

namespace Sys2Proof.Machine

/-! ### The fields after an update -/

@[simp] theorem State.setBlock_spaces (s : State) (b : BlockNo) (x : Block) : (s.setBlock b x).spaces = s.spaces := rfl
@[simp] theorem State.setBlock_cache (s : State) (b : BlockNo) (x : Block) : (s.setBlock b x).cache = s.cache := rfl
@[simp] theorem State.setBlock_clock (s : State) (b : BlockNo) (x : Block) : (s.setBlock b x).clock = s.clock := rfl
@[simp] theorem State.setBlock_count (s : State) (b : BlockNo) (x : Block) : (s.setBlock b x).count = s.count := rfl
@[simp] theorem State.setBlock_posture (s : State) (b : BlockNo) (x : Block) : (s.setBlock b x).posture = s.posture := rfl
@[simp] theorem State.setBlock_sites (s : State) (b : BlockNo) (x : Block) : (s.setBlock b x).sites = s.sites := rfl
@[simp] theorem State.setBlock_occupancy (s : State) (b : BlockNo) (x : Block) : (s.setBlock b x).occupancy = s.occupancy := rfl
@[simp] theorem State.setBlock_workOrders (s : State) (b : BlockNo) (x : Block) : (s.setBlock b x).workOrders = s.workOrders := rfl
@[simp] theorem State.setBlock_permits (s : State) (b : BlockNo) (x : Block) : (s.setBlock b x).permits = s.permits := rfl
@[simp] theorem State.setBlock_doors (s : State) (b : BlockNo) (x : Block) : (s.setBlock b x).doors = s.doors := rfl
@[simp] theorem State.setBlock_slots (s : State) (b : BlockNo) (x : Block) : (s.setBlock b x).slots = s.slots := rfl
@[simp] theorem State.setBlock_lanes (s : State) (b : BlockNo) (x : Block) : (s.setBlock b x).lanes = s.lanes := rfl
@[simp] theorem State.setBlock_ports (s : State) (b : BlockNo) (x : Block) : (s.setBlock b x).ports = s.ports := rfl
@[simp] theorem State.setBlock_timings (s : State) (b : BlockNo) (x : Block) : (s.setBlock b x).timings = s.timings := rfl
@[simp] theorem State.setBlock_waiting (s : State) (b : BlockNo) (x : Block) : (s.setBlock b x).waiting = s.waiting := rfl
@[simp] theorem State.setBlock_meetings (s : State) (b : BlockNo) (x : Block) : (s.setBlock b x).meetings = s.meetings := rfl
@[simp] theorem State.setBlock_pending (s : State) (b : BlockNo) (x : Block) : (s.setBlock b x).pending = s.pending := rfl
@[simp] theorem State.setBlock_space (s : State) (b : BlockNo) (x : Block) (i : SpaceNo) : (s.setBlock b x).space i = s.space i := rfl
@[simp] theorem State.setBlock_site (s : State) (b : BlockNo) (x : Block) (i : SiteNo) : (s.setBlock b x).site i = s.site i := rfl
@[simp] theorem State.setBlock_record (s : State) (b : BlockNo) (x : Block) (i : RecordNo) : (s.setBlock b x).record i = s.record i := rfl
@[simp] theorem State.setBlock_workOrder (s : State) (b : BlockNo) (x : Block) (i : WorkOrderNo) : (s.setBlock b x).workOrder i = s.workOrder i := rfl
@[simp] theorem State.setBlock_permit (s : State) (b : BlockNo) (x : Block) (i : PermitNo) : (s.setBlock b x).permit i = s.permit i := rfl
@[simp] theorem State.setBlock_door (s : State) (b : BlockNo) (x : Block) (i : DoorId) : (s.setBlock b x).door i = s.door i := rfl
@[simp] theorem State.setBlock_slot (s : State) (b : BlockNo) (x : Block) (i : SlotNo) : (s.setBlock b x).slot i = s.slot i := rfl
@[simp] theorem State.setBlock_lane (s : State) (b : BlockNo) (x : Block) (i : LaneNo) : (s.setBlock b x).lane i = s.lane i := rfl
@[simp] theorem State.setBlock_port (s : State) (b : BlockNo) (x : Block) (i : Authority) : (s.setBlock b x).port i = s.port i := rfl

@[simp] theorem State.setSpace_blocks (s : State) (n : SpaceNo) (x : SpaceRecord) : (s.setSpace n x).blocks = s.blocks := rfl
@[simp] theorem State.setSpace_cache (s : State) (n : SpaceNo) (x : SpaceRecord) : (s.setSpace n x).cache = s.cache := rfl
@[simp] theorem State.setSpace_clock (s : State) (n : SpaceNo) (x : SpaceRecord) : (s.setSpace n x).clock = s.clock := rfl
@[simp] theorem State.setSpace_count (s : State) (n : SpaceNo) (x : SpaceRecord) : (s.setSpace n x).count = s.count := rfl
@[simp] theorem State.setSpace_posture (s : State) (n : SpaceNo) (x : SpaceRecord) : (s.setSpace n x).posture = s.posture := rfl
@[simp] theorem State.setSpace_sites (s : State) (n : SpaceNo) (x : SpaceRecord) : (s.setSpace n x).sites = s.sites := rfl
@[simp] theorem State.setSpace_occupancy (s : State) (n : SpaceNo) (x : SpaceRecord) : (s.setSpace n x).occupancy = s.occupancy := rfl
@[simp] theorem State.setSpace_workOrders (s : State) (n : SpaceNo) (x : SpaceRecord) : (s.setSpace n x).workOrders = s.workOrders := rfl
@[simp] theorem State.setSpace_permits (s : State) (n : SpaceNo) (x : SpaceRecord) : (s.setSpace n x).permits = s.permits := rfl
@[simp] theorem State.setSpace_doors (s : State) (n : SpaceNo) (x : SpaceRecord) : (s.setSpace n x).doors = s.doors := rfl
@[simp] theorem State.setSpace_slots (s : State) (n : SpaceNo) (x : SpaceRecord) : (s.setSpace n x).slots = s.slots := rfl
@[simp] theorem State.setSpace_lanes (s : State) (n : SpaceNo) (x : SpaceRecord) : (s.setSpace n x).lanes = s.lanes := rfl
@[simp] theorem State.setSpace_ports (s : State) (n : SpaceNo) (x : SpaceRecord) : (s.setSpace n x).ports = s.ports := rfl
@[simp] theorem State.setSpace_timings (s : State) (n : SpaceNo) (x : SpaceRecord) : (s.setSpace n x).timings = s.timings := rfl
@[simp] theorem State.setSpace_waiting (s : State) (n : SpaceNo) (x : SpaceRecord) : (s.setSpace n x).waiting = s.waiting := rfl
@[simp] theorem State.setSpace_meetings (s : State) (n : SpaceNo) (x : SpaceRecord) : (s.setSpace n x).meetings = s.meetings := rfl
@[simp] theorem State.setSpace_pending (s : State) (n : SpaceNo) (x : SpaceRecord) : (s.setSpace n x).pending = s.pending := rfl
@[simp] theorem State.setSpace_block (s : State) (n : SpaceNo) (x : SpaceRecord) (i : BlockNo) : (s.setSpace n x).block i = s.block i := rfl
@[simp] theorem State.setSpace_site (s : State) (n : SpaceNo) (x : SpaceRecord) (i : SiteNo) : (s.setSpace n x).site i = s.site i := rfl
@[simp] theorem State.setSpace_record (s : State) (n : SpaceNo) (x : SpaceRecord) (i : RecordNo) : (s.setSpace n x).record i = s.record i := rfl
@[simp] theorem State.setSpace_workOrder (s : State) (n : SpaceNo) (x : SpaceRecord) (i : WorkOrderNo) : (s.setSpace n x).workOrder i = s.workOrder i := rfl
@[simp] theorem State.setSpace_permit (s : State) (n : SpaceNo) (x : SpaceRecord) (i : PermitNo) : (s.setSpace n x).permit i = s.permit i := rfl
@[simp] theorem State.setSpace_door (s : State) (n : SpaceNo) (x : SpaceRecord) (i : DoorId) : (s.setSpace n x).door i = s.door i := rfl
@[simp] theorem State.setSpace_slot (s : State) (n : SpaceNo) (x : SpaceRecord) (i : SlotNo) : (s.setSpace n x).slot i = s.slot i := rfl
@[simp] theorem State.setSpace_lane (s : State) (n : SpaceNo) (x : SpaceRecord) (i : LaneNo) : (s.setSpace n x).lane i = s.lane i := rfl
@[simp] theorem State.setSpace_port (s : State) (n : SpaceNo) (x : SpaceRecord) (i : Authority) : (s.setSpace n x).port i = s.port i := rfl

@[simp] theorem State.setSite_blocks (s : State) (n : SiteNo) (x : SiteRecord) : (s.setSite n x).blocks = s.blocks := rfl
@[simp] theorem State.setSite_spaces (s : State) (n : SiteNo) (x : SiteRecord) : (s.setSite n x).spaces = s.spaces := rfl
@[simp] theorem State.setSite_cache (s : State) (n : SiteNo) (x : SiteRecord) : (s.setSite n x).cache = s.cache := rfl
@[simp] theorem State.setSite_clock (s : State) (n : SiteNo) (x : SiteRecord) : (s.setSite n x).clock = s.clock := rfl
@[simp] theorem State.setSite_count (s : State) (n : SiteNo) (x : SiteRecord) : (s.setSite n x).count = s.count := rfl
@[simp] theorem State.setSite_posture (s : State) (n : SiteNo) (x : SiteRecord) : (s.setSite n x).posture = s.posture := rfl
@[simp] theorem State.setSite_occupancy (s : State) (n : SiteNo) (x : SiteRecord) : (s.setSite n x).occupancy = s.occupancy := rfl
@[simp] theorem State.setSite_workOrders (s : State) (n : SiteNo) (x : SiteRecord) : (s.setSite n x).workOrders = s.workOrders := rfl
@[simp] theorem State.setSite_permits (s : State) (n : SiteNo) (x : SiteRecord) : (s.setSite n x).permits = s.permits := rfl
@[simp] theorem State.setSite_doors (s : State) (n : SiteNo) (x : SiteRecord) : (s.setSite n x).doors = s.doors := rfl
@[simp] theorem State.setSite_slots (s : State) (n : SiteNo) (x : SiteRecord) : (s.setSite n x).slots = s.slots := rfl
@[simp] theorem State.setSite_lanes (s : State) (n : SiteNo) (x : SiteRecord) : (s.setSite n x).lanes = s.lanes := rfl
@[simp] theorem State.setSite_ports (s : State) (n : SiteNo) (x : SiteRecord) : (s.setSite n x).ports = s.ports := rfl
@[simp] theorem State.setSite_timings (s : State) (n : SiteNo) (x : SiteRecord) : (s.setSite n x).timings = s.timings := rfl
@[simp] theorem State.setSite_waiting (s : State) (n : SiteNo) (x : SiteRecord) : (s.setSite n x).waiting = s.waiting := rfl
@[simp] theorem State.setSite_meetings (s : State) (n : SiteNo) (x : SiteRecord) : (s.setSite n x).meetings = s.meetings := rfl
@[simp] theorem State.setSite_pending (s : State) (n : SiteNo) (x : SiteRecord) : (s.setSite n x).pending = s.pending := rfl
@[simp] theorem State.setSite_block (s : State) (n : SiteNo) (x : SiteRecord) (i : BlockNo) : (s.setSite n x).block i = s.block i := rfl
@[simp] theorem State.setSite_space (s : State) (n : SiteNo) (x : SiteRecord) (i : SpaceNo) : (s.setSite n x).space i = s.space i := rfl
@[simp] theorem State.setSite_record (s : State) (n : SiteNo) (x : SiteRecord) (i : RecordNo) : (s.setSite n x).record i = s.record i := rfl
@[simp] theorem State.setSite_workOrder (s : State) (n : SiteNo) (x : SiteRecord) (i : WorkOrderNo) : (s.setSite n x).workOrder i = s.workOrder i := rfl
@[simp] theorem State.setSite_permit (s : State) (n : SiteNo) (x : SiteRecord) (i : PermitNo) : (s.setSite n x).permit i = s.permit i := rfl
@[simp] theorem State.setSite_door (s : State) (n : SiteNo) (x : SiteRecord) (i : DoorId) : (s.setSite n x).door i = s.door i := rfl
@[simp] theorem State.setSite_slot (s : State) (n : SiteNo) (x : SiteRecord) (i : SlotNo) : (s.setSite n x).slot i = s.slot i := rfl
@[simp] theorem State.setSite_lane (s : State) (n : SiteNo) (x : SiteRecord) (i : LaneNo) : (s.setSite n x).lane i = s.lane i := rfl
@[simp] theorem State.setSite_port (s : State) (n : SiteNo) (x : SiteRecord) (i : Authority) : (s.setSite n x).port i = s.port i := rfl

@[simp] theorem State.setRecord_blocks (s : State) (n : RecordNo) (x : Option OccupancyRecord) : (s.setRecord n x).blocks = s.blocks := rfl
@[simp] theorem State.setRecord_spaces (s : State) (n : RecordNo) (x : Option OccupancyRecord) : (s.setRecord n x).spaces = s.spaces := rfl
@[simp] theorem State.setRecord_cache (s : State) (n : RecordNo) (x : Option OccupancyRecord) : (s.setRecord n x).cache = s.cache := rfl
@[simp] theorem State.setRecord_clock (s : State) (n : RecordNo) (x : Option OccupancyRecord) : (s.setRecord n x).clock = s.clock := rfl
@[simp] theorem State.setRecord_count (s : State) (n : RecordNo) (x : Option OccupancyRecord) : (s.setRecord n x).count = s.count := rfl
@[simp] theorem State.setRecord_posture (s : State) (n : RecordNo) (x : Option OccupancyRecord) : (s.setRecord n x).posture = s.posture := rfl
@[simp] theorem State.setRecord_sites (s : State) (n : RecordNo) (x : Option OccupancyRecord) : (s.setRecord n x).sites = s.sites := rfl
@[simp] theorem State.setRecord_workOrders (s : State) (n : RecordNo) (x : Option OccupancyRecord) : (s.setRecord n x).workOrders = s.workOrders := rfl
@[simp] theorem State.setRecord_permits (s : State) (n : RecordNo) (x : Option OccupancyRecord) : (s.setRecord n x).permits = s.permits := rfl
@[simp] theorem State.setRecord_doors (s : State) (n : RecordNo) (x : Option OccupancyRecord) : (s.setRecord n x).doors = s.doors := rfl
@[simp] theorem State.setRecord_slots (s : State) (n : RecordNo) (x : Option OccupancyRecord) : (s.setRecord n x).slots = s.slots := rfl
@[simp] theorem State.setRecord_lanes (s : State) (n : RecordNo) (x : Option OccupancyRecord) : (s.setRecord n x).lanes = s.lanes := rfl
@[simp] theorem State.setRecord_ports (s : State) (n : RecordNo) (x : Option OccupancyRecord) : (s.setRecord n x).ports = s.ports := rfl
@[simp] theorem State.setRecord_timings (s : State) (n : RecordNo) (x : Option OccupancyRecord) : (s.setRecord n x).timings = s.timings := rfl
@[simp] theorem State.setRecord_waiting (s : State) (n : RecordNo) (x : Option OccupancyRecord) : (s.setRecord n x).waiting = s.waiting := rfl
@[simp] theorem State.setRecord_meetings (s : State) (n : RecordNo) (x : Option OccupancyRecord) : (s.setRecord n x).meetings = s.meetings := rfl
@[simp] theorem State.setRecord_pending (s : State) (n : RecordNo) (x : Option OccupancyRecord) : (s.setRecord n x).pending = s.pending := rfl
@[simp] theorem State.setRecord_block (s : State) (n : RecordNo) (x : Option OccupancyRecord) (i : BlockNo) : (s.setRecord n x).block i = s.block i := rfl
@[simp] theorem State.setRecord_space (s : State) (n : RecordNo) (x : Option OccupancyRecord) (i : SpaceNo) : (s.setRecord n x).space i = s.space i := rfl
@[simp] theorem State.setRecord_site (s : State) (n : RecordNo) (x : Option OccupancyRecord) (i : SiteNo) : (s.setRecord n x).site i = s.site i := rfl
@[simp] theorem State.setRecord_workOrder (s : State) (n : RecordNo) (x : Option OccupancyRecord) (i : WorkOrderNo) : (s.setRecord n x).workOrder i = s.workOrder i := rfl
@[simp] theorem State.setRecord_permit (s : State) (n : RecordNo) (x : Option OccupancyRecord) (i : PermitNo) : (s.setRecord n x).permit i = s.permit i := rfl
@[simp] theorem State.setRecord_door (s : State) (n : RecordNo) (x : Option OccupancyRecord) (i : DoorId) : (s.setRecord n x).door i = s.door i := rfl
@[simp] theorem State.setRecord_slot (s : State) (n : RecordNo) (x : Option OccupancyRecord) (i : SlotNo) : (s.setRecord n x).slot i = s.slot i := rfl
@[simp] theorem State.setRecord_lane (s : State) (n : RecordNo) (x : Option OccupancyRecord) (i : LaneNo) : (s.setRecord n x).lane i = s.lane i := rfl
@[simp] theorem State.setRecord_port (s : State) (n : RecordNo) (x : Option OccupancyRecord) (i : Authority) : (s.setRecord n x).port i = s.port i := rfl

@[simp] theorem State.setWorkOrder_blocks (s : State) (n : WorkOrderNo) (x : Option WorkOrder) : (s.setWorkOrder n x).blocks = s.blocks := rfl
@[simp] theorem State.setWorkOrder_spaces (s : State) (n : WorkOrderNo) (x : Option WorkOrder) : (s.setWorkOrder n x).spaces = s.spaces := rfl
@[simp] theorem State.setWorkOrder_cache (s : State) (n : WorkOrderNo) (x : Option WorkOrder) : (s.setWorkOrder n x).cache = s.cache := rfl
@[simp] theorem State.setWorkOrder_clock (s : State) (n : WorkOrderNo) (x : Option WorkOrder) : (s.setWorkOrder n x).clock = s.clock := rfl
@[simp] theorem State.setWorkOrder_count (s : State) (n : WorkOrderNo) (x : Option WorkOrder) : (s.setWorkOrder n x).count = s.count := rfl
@[simp] theorem State.setWorkOrder_posture (s : State) (n : WorkOrderNo) (x : Option WorkOrder) : (s.setWorkOrder n x).posture = s.posture := rfl
@[simp] theorem State.setWorkOrder_sites (s : State) (n : WorkOrderNo) (x : Option WorkOrder) : (s.setWorkOrder n x).sites = s.sites := rfl
@[simp] theorem State.setWorkOrder_occupancy (s : State) (n : WorkOrderNo) (x : Option WorkOrder) : (s.setWorkOrder n x).occupancy = s.occupancy := rfl
@[simp] theorem State.setWorkOrder_permits (s : State) (n : WorkOrderNo) (x : Option WorkOrder) : (s.setWorkOrder n x).permits = s.permits := rfl
@[simp] theorem State.setWorkOrder_doors (s : State) (n : WorkOrderNo) (x : Option WorkOrder) : (s.setWorkOrder n x).doors = s.doors := rfl
@[simp] theorem State.setWorkOrder_slots (s : State) (n : WorkOrderNo) (x : Option WorkOrder) : (s.setWorkOrder n x).slots = s.slots := rfl
@[simp] theorem State.setWorkOrder_lanes (s : State) (n : WorkOrderNo) (x : Option WorkOrder) : (s.setWorkOrder n x).lanes = s.lanes := rfl
@[simp] theorem State.setWorkOrder_ports (s : State) (n : WorkOrderNo) (x : Option WorkOrder) : (s.setWorkOrder n x).ports = s.ports := rfl
@[simp] theorem State.setWorkOrder_timings (s : State) (n : WorkOrderNo) (x : Option WorkOrder) : (s.setWorkOrder n x).timings = s.timings := rfl
@[simp] theorem State.setWorkOrder_waiting (s : State) (n : WorkOrderNo) (x : Option WorkOrder) : (s.setWorkOrder n x).waiting = s.waiting := rfl
@[simp] theorem State.setWorkOrder_meetings (s : State) (n : WorkOrderNo) (x : Option WorkOrder) : (s.setWorkOrder n x).meetings = s.meetings := rfl
@[simp] theorem State.setWorkOrder_pending (s : State) (n : WorkOrderNo) (x : Option WorkOrder) : (s.setWorkOrder n x).pending = s.pending := rfl
@[simp] theorem State.setWorkOrder_block (s : State) (n : WorkOrderNo) (x : Option WorkOrder) (i : BlockNo) : (s.setWorkOrder n x).block i = s.block i := rfl
@[simp] theorem State.setWorkOrder_space (s : State) (n : WorkOrderNo) (x : Option WorkOrder) (i : SpaceNo) : (s.setWorkOrder n x).space i = s.space i := rfl
@[simp] theorem State.setWorkOrder_site (s : State) (n : WorkOrderNo) (x : Option WorkOrder) (i : SiteNo) : (s.setWorkOrder n x).site i = s.site i := rfl
@[simp] theorem State.setWorkOrder_record (s : State) (n : WorkOrderNo) (x : Option WorkOrder) (i : RecordNo) : (s.setWorkOrder n x).record i = s.record i := rfl
@[simp] theorem State.setWorkOrder_permit (s : State) (n : WorkOrderNo) (x : Option WorkOrder) (i : PermitNo) : (s.setWorkOrder n x).permit i = s.permit i := rfl
@[simp] theorem State.setWorkOrder_door (s : State) (n : WorkOrderNo) (x : Option WorkOrder) (i : DoorId) : (s.setWorkOrder n x).door i = s.door i := rfl
@[simp] theorem State.setWorkOrder_slot (s : State) (n : WorkOrderNo) (x : Option WorkOrder) (i : SlotNo) : (s.setWorkOrder n x).slot i = s.slot i := rfl
@[simp] theorem State.setWorkOrder_lane (s : State) (n : WorkOrderNo) (x : Option WorkOrder) (i : LaneNo) : (s.setWorkOrder n x).lane i = s.lane i := rfl
@[simp] theorem State.setWorkOrder_port (s : State) (n : WorkOrderNo) (x : Option WorkOrder) (i : Authority) : (s.setWorkOrder n x).port i = s.port i := rfl

@[simp] theorem State.setPermit_blocks (s : State) (n : PermitNo) (x : Option Permit) : (s.setPermit n x).blocks = s.blocks := rfl
@[simp] theorem State.setPermit_spaces (s : State) (n : PermitNo) (x : Option Permit) : (s.setPermit n x).spaces = s.spaces := rfl
@[simp] theorem State.setPermit_cache (s : State) (n : PermitNo) (x : Option Permit) : (s.setPermit n x).cache = s.cache := rfl
@[simp] theorem State.setPermit_clock (s : State) (n : PermitNo) (x : Option Permit) : (s.setPermit n x).clock = s.clock := rfl
@[simp] theorem State.setPermit_count (s : State) (n : PermitNo) (x : Option Permit) : (s.setPermit n x).count = s.count := rfl
@[simp] theorem State.setPermit_posture (s : State) (n : PermitNo) (x : Option Permit) : (s.setPermit n x).posture = s.posture := rfl
@[simp] theorem State.setPermit_sites (s : State) (n : PermitNo) (x : Option Permit) : (s.setPermit n x).sites = s.sites := rfl
@[simp] theorem State.setPermit_occupancy (s : State) (n : PermitNo) (x : Option Permit) : (s.setPermit n x).occupancy = s.occupancy := rfl
@[simp] theorem State.setPermit_workOrders (s : State) (n : PermitNo) (x : Option Permit) : (s.setPermit n x).workOrders = s.workOrders := rfl
@[simp] theorem State.setPermit_doors (s : State) (n : PermitNo) (x : Option Permit) : (s.setPermit n x).doors = s.doors := rfl
@[simp] theorem State.setPermit_slots (s : State) (n : PermitNo) (x : Option Permit) : (s.setPermit n x).slots = s.slots := rfl
@[simp] theorem State.setPermit_lanes (s : State) (n : PermitNo) (x : Option Permit) : (s.setPermit n x).lanes = s.lanes := rfl
@[simp] theorem State.setPermit_ports (s : State) (n : PermitNo) (x : Option Permit) : (s.setPermit n x).ports = s.ports := rfl
@[simp] theorem State.setPermit_timings (s : State) (n : PermitNo) (x : Option Permit) : (s.setPermit n x).timings = s.timings := rfl
@[simp] theorem State.setPermit_waiting (s : State) (n : PermitNo) (x : Option Permit) : (s.setPermit n x).waiting = s.waiting := rfl
@[simp] theorem State.setPermit_meetings (s : State) (n : PermitNo) (x : Option Permit) : (s.setPermit n x).meetings = s.meetings := rfl
@[simp] theorem State.setPermit_pending (s : State) (n : PermitNo) (x : Option Permit) : (s.setPermit n x).pending = s.pending := rfl
@[simp] theorem State.setPermit_block (s : State) (n : PermitNo) (x : Option Permit) (i : BlockNo) : (s.setPermit n x).block i = s.block i := rfl
@[simp] theorem State.setPermit_space (s : State) (n : PermitNo) (x : Option Permit) (i : SpaceNo) : (s.setPermit n x).space i = s.space i := rfl
@[simp] theorem State.setPermit_site (s : State) (n : PermitNo) (x : Option Permit) (i : SiteNo) : (s.setPermit n x).site i = s.site i := rfl
@[simp] theorem State.setPermit_record (s : State) (n : PermitNo) (x : Option Permit) (i : RecordNo) : (s.setPermit n x).record i = s.record i := rfl
@[simp] theorem State.setPermit_workOrder (s : State) (n : PermitNo) (x : Option Permit) (i : WorkOrderNo) : (s.setPermit n x).workOrder i = s.workOrder i := rfl
@[simp] theorem State.setPermit_door (s : State) (n : PermitNo) (x : Option Permit) (i : DoorId) : (s.setPermit n x).door i = s.door i := rfl
@[simp] theorem State.setPermit_slot (s : State) (n : PermitNo) (x : Option Permit) (i : SlotNo) : (s.setPermit n x).slot i = s.slot i := rfl
@[simp] theorem State.setPermit_lane (s : State) (n : PermitNo) (x : Option Permit) (i : LaneNo) : (s.setPermit n x).lane i = s.lane i := rfl
@[simp] theorem State.setPermit_port (s : State) (n : PermitNo) (x : Option Permit) (i : Authority) : (s.setPermit n x).port i = s.port i := rfl

@[simp] theorem State.setDoor_blocks (s : State) (d : DoorId) (x : Door) : (s.setDoor d x).blocks = s.blocks := rfl
@[simp] theorem State.setDoor_spaces (s : State) (d : DoorId) (x : Door) : (s.setDoor d x).spaces = s.spaces := rfl
@[simp] theorem State.setDoor_cache (s : State) (d : DoorId) (x : Door) : (s.setDoor d x).cache = s.cache := rfl
@[simp] theorem State.setDoor_clock (s : State) (d : DoorId) (x : Door) : (s.setDoor d x).clock = s.clock := rfl
@[simp] theorem State.setDoor_count (s : State) (d : DoorId) (x : Door) : (s.setDoor d x).count = s.count := rfl
@[simp] theorem State.setDoor_posture (s : State) (d : DoorId) (x : Door) : (s.setDoor d x).posture = s.posture := rfl
@[simp] theorem State.setDoor_sites (s : State) (d : DoorId) (x : Door) : (s.setDoor d x).sites = s.sites := rfl
@[simp] theorem State.setDoor_occupancy (s : State) (d : DoorId) (x : Door) : (s.setDoor d x).occupancy = s.occupancy := rfl
@[simp] theorem State.setDoor_workOrders (s : State) (d : DoorId) (x : Door) : (s.setDoor d x).workOrders = s.workOrders := rfl
@[simp] theorem State.setDoor_permits (s : State) (d : DoorId) (x : Door) : (s.setDoor d x).permits = s.permits := rfl
@[simp] theorem State.setDoor_slots (s : State) (d : DoorId) (x : Door) : (s.setDoor d x).slots = s.slots := rfl
@[simp] theorem State.setDoor_lanes (s : State) (d : DoorId) (x : Door) : (s.setDoor d x).lanes = s.lanes := rfl
@[simp] theorem State.setDoor_ports (s : State) (d : DoorId) (x : Door) : (s.setDoor d x).ports = s.ports := rfl
@[simp] theorem State.setDoor_timings (s : State) (d : DoorId) (x : Door) : (s.setDoor d x).timings = s.timings := rfl
@[simp] theorem State.setDoor_waiting (s : State) (d : DoorId) (x : Door) : (s.setDoor d x).waiting = s.waiting := rfl
@[simp] theorem State.setDoor_meetings (s : State) (d : DoorId) (x : Door) : (s.setDoor d x).meetings = s.meetings := rfl
@[simp] theorem State.setDoor_pending (s : State) (d : DoorId) (x : Door) : (s.setDoor d x).pending = s.pending := rfl
@[simp] theorem State.setDoor_block (s : State) (d : DoorId) (x : Door) (i : BlockNo) : (s.setDoor d x).block i = s.block i := rfl
@[simp] theorem State.setDoor_space (s : State) (d : DoorId) (x : Door) (i : SpaceNo) : (s.setDoor d x).space i = s.space i := rfl
@[simp] theorem State.setDoor_site (s : State) (d : DoorId) (x : Door) (i : SiteNo) : (s.setDoor d x).site i = s.site i := rfl
@[simp] theorem State.setDoor_record (s : State) (d : DoorId) (x : Door) (i : RecordNo) : (s.setDoor d x).record i = s.record i := rfl
@[simp] theorem State.setDoor_workOrder (s : State) (d : DoorId) (x : Door) (i : WorkOrderNo) : (s.setDoor d x).workOrder i = s.workOrder i := rfl
@[simp] theorem State.setDoor_permit (s : State) (d : DoorId) (x : Door) (i : PermitNo) : (s.setDoor d x).permit i = s.permit i := rfl
@[simp] theorem State.setDoor_slot (s : State) (d : DoorId) (x : Door) (i : SlotNo) : (s.setDoor d x).slot i = s.slot i := rfl
@[simp] theorem State.setDoor_lane (s : State) (d : DoorId) (x : Door) (i : LaneNo) : (s.setDoor d x).lane i = s.lane i := rfl
@[simp] theorem State.setDoor_port (s : State) (d : DoorId) (x : Door) (i : Authority) : (s.setDoor d x).port i = s.port i := rfl

@[simp] theorem State.setSlot_blocks (s : State) (k : SlotNo) (x : Option Slot) : (s.setSlot k x).blocks = s.blocks := rfl
@[simp] theorem State.setSlot_spaces (s : State) (k : SlotNo) (x : Option Slot) : (s.setSlot k x).spaces = s.spaces := rfl
@[simp] theorem State.setSlot_cache (s : State) (k : SlotNo) (x : Option Slot) : (s.setSlot k x).cache = s.cache := rfl
@[simp] theorem State.setSlot_clock (s : State) (k : SlotNo) (x : Option Slot) : (s.setSlot k x).clock = s.clock := rfl
@[simp] theorem State.setSlot_count (s : State) (k : SlotNo) (x : Option Slot) : (s.setSlot k x).count = s.count := rfl
@[simp] theorem State.setSlot_posture (s : State) (k : SlotNo) (x : Option Slot) : (s.setSlot k x).posture = s.posture := rfl
@[simp] theorem State.setSlot_sites (s : State) (k : SlotNo) (x : Option Slot) : (s.setSlot k x).sites = s.sites := rfl
@[simp] theorem State.setSlot_occupancy (s : State) (k : SlotNo) (x : Option Slot) : (s.setSlot k x).occupancy = s.occupancy := rfl
@[simp] theorem State.setSlot_workOrders (s : State) (k : SlotNo) (x : Option Slot) : (s.setSlot k x).workOrders = s.workOrders := rfl
@[simp] theorem State.setSlot_permits (s : State) (k : SlotNo) (x : Option Slot) : (s.setSlot k x).permits = s.permits := rfl
@[simp] theorem State.setSlot_doors (s : State) (k : SlotNo) (x : Option Slot) : (s.setSlot k x).doors = s.doors := rfl
@[simp] theorem State.setSlot_lanes (s : State) (k : SlotNo) (x : Option Slot) : (s.setSlot k x).lanes = s.lanes := rfl
@[simp] theorem State.setSlot_ports (s : State) (k : SlotNo) (x : Option Slot) : (s.setSlot k x).ports = s.ports := rfl
@[simp] theorem State.setSlot_timings (s : State) (k : SlotNo) (x : Option Slot) : (s.setSlot k x).timings = s.timings := rfl
@[simp] theorem State.setSlot_waiting (s : State) (k : SlotNo) (x : Option Slot) : (s.setSlot k x).waiting = s.waiting := rfl
@[simp] theorem State.setSlot_meetings (s : State) (k : SlotNo) (x : Option Slot) : (s.setSlot k x).meetings = s.meetings := rfl
@[simp] theorem State.setSlot_pending (s : State) (k : SlotNo) (x : Option Slot) : (s.setSlot k x).pending = s.pending := rfl
@[simp] theorem State.setSlot_block (s : State) (k : SlotNo) (x : Option Slot) (i : BlockNo) : (s.setSlot k x).block i = s.block i := rfl
@[simp] theorem State.setSlot_space (s : State) (k : SlotNo) (x : Option Slot) (i : SpaceNo) : (s.setSlot k x).space i = s.space i := rfl
@[simp] theorem State.setSlot_site (s : State) (k : SlotNo) (x : Option Slot) (i : SiteNo) : (s.setSlot k x).site i = s.site i := rfl
@[simp] theorem State.setSlot_record (s : State) (k : SlotNo) (x : Option Slot) (i : RecordNo) : (s.setSlot k x).record i = s.record i := rfl
@[simp] theorem State.setSlot_workOrder (s : State) (k : SlotNo) (x : Option Slot) (i : WorkOrderNo) : (s.setSlot k x).workOrder i = s.workOrder i := rfl
@[simp] theorem State.setSlot_permit (s : State) (k : SlotNo) (x : Option Slot) (i : PermitNo) : (s.setSlot k x).permit i = s.permit i := rfl
@[simp] theorem State.setSlot_door (s : State) (k : SlotNo) (x : Option Slot) (i : DoorId) : (s.setSlot k x).door i = s.door i := rfl
@[simp] theorem State.setSlot_lane (s : State) (k : SlotNo) (x : Option Slot) (i : LaneNo) : (s.setSlot k x).lane i = s.lane i := rfl
@[simp] theorem State.setSlot_port (s : State) (k : SlotNo) (x : Option Slot) (i : Authority) : (s.setSlot k x).port i = s.port i := rfl

@[simp] theorem State.setLane_blocks (s : State) (l : LaneNo) (x : Lane) : (s.setLane l x).blocks = s.blocks := rfl
@[simp] theorem State.setLane_spaces (s : State) (l : LaneNo) (x : Lane) : (s.setLane l x).spaces = s.spaces := rfl
@[simp] theorem State.setLane_cache (s : State) (l : LaneNo) (x : Lane) : (s.setLane l x).cache = s.cache := rfl
@[simp] theorem State.setLane_clock (s : State) (l : LaneNo) (x : Lane) : (s.setLane l x).clock = s.clock := rfl
@[simp] theorem State.setLane_count (s : State) (l : LaneNo) (x : Lane) : (s.setLane l x).count = s.count := rfl
@[simp] theorem State.setLane_posture (s : State) (l : LaneNo) (x : Lane) : (s.setLane l x).posture = s.posture := rfl
@[simp] theorem State.setLane_sites (s : State) (l : LaneNo) (x : Lane) : (s.setLane l x).sites = s.sites := rfl
@[simp] theorem State.setLane_occupancy (s : State) (l : LaneNo) (x : Lane) : (s.setLane l x).occupancy = s.occupancy := rfl
@[simp] theorem State.setLane_workOrders (s : State) (l : LaneNo) (x : Lane) : (s.setLane l x).workOrders = s.workOrders := rfl
@[simp] theorem State.setLane_permits (s : State) (l : LaneNo) (x : Lane) : (s.setLane l x).permits = s.permits := rfl
@[simp] theorem State.setLane_doors (s : State) (l : LaneNo) (x : Lane) : (s.setLane l x).doors = s.doors := rfl
@[simp] theorem State.setLane_slots (s : State) (l : LaneNo) (x : Lane) : (s.setLane l x).slots = s.slots := rfl
@[simp] theorem State.setLane_ports (s : State) (l : LaneNo) (x : Lane) : (s.setLane l x).ports = s.ports := rfl
@[simp] theorem State.setLane_timings (s : State) (l : LaneNo) (x : Lane) : (s.setLane l x).timings = s.timings := rfl
@[simp] theorem State.setLane_waiting (s : State) (l : LaneNo) (x : Lane) : (s.setLane l x).waiting = s.waiting := rfl
@[simp] theorem State.setLane_meetings (s : State) (l : LaneNo) (x : Lane) : (s.setLane l x).meetings = s.meetings := rfl
@[simp] theorem State.setLane_pending (s : State) (l : LaneNo) (x : Lane) : (s.setLane l x).pending = s.pending := rfl
@[simp] theorem State.setLane_block (s : State) (l : LaneNo) (x : Lane) (i : BlockNo) : (s.setLane l x).block i = s.block i := rfl
@[simp] theorem State.setLane_space (s : State) (l : LaneNo) (x : Lane) (i : SpaceNo) : (s.setLane l x).space i = s.space i := rfl
@[simp] theorem State.setLane_site (s : State) (l : LaneNo) (x : Lane) (i : SiteNo) : (s.setLane l x).site i = s.site i := rfl
@[simp] theorem State.setLane_record (s : State) (l : LaneNo) (x : Lane) (i : RecordNo) : (s.setLane l x).record i = s.record i := rfl
@[simp] theorem State.setLane_workOrder (s : State) (l : LaneNo) (x : Lane) (i : WorkOrderNo) : (s.setLane l x).workOrder i = s.workOrder i := rfl
@[simp] theorem State.setLane_permit (s : State) (l : LaneNo) (x : Lane) (i : PermitNo) : (s.setLane l x).permit i = s.permit i := rfl
@[simp] theorem State.setLane_door (s : State) (l : LaneNo) (x : Lane) (i : DoorId) : (s.setLane l x).door i = s.door i := rfl
@[simp] theorem State.setLane_slot (s : State) (l : LaneNo) (x : Lane) (i : SlotNo) : (s.setLane l x).slot i = s.slot i := rfl
@[simp] theorem State.setLane_port (s : State) (l : LaneNo) (x : Lane) (i : Authority) : (s.setLane l x).port i = s.port i := rfl

@[simp] theorem State.setPort_blocks (s : State) (a : Authority) (x : Port) : (s.setPort a x).blocks = s.blocks := rfl
@[simp] theorem State.setPort_spaces (s : State) (a : Authority) (x : Port) : (s.setPort a x).spaces = s.spaces := rfl
@[simp] theorem State.setPort_cache (s : State) (a : Authority) (x : Port) : (s.setPort a x).cache = s.cache := rfl
@[simp] theorem State.setPort_clock (s : State) (a : Authority) (x : Port) : (s.setPort a x).clock = s.clock := rfl
@[simp] theorem State.setPort_count (s : State) (a : Authority) (x : Port) : (s.setPort a x).count = s.count := rfl
@[simp] theorem State.setPort_posture (s : State) (a : Authority) (x : Port) : (s.setPort a x).posture = s.posture := rfl
@[simp] theorem State.setPort_sites (s : State) (a : Authority) (x : Port) : (s.setPort a x).sites = s.sites := rfl
@[simp] theorem State.setPort_occupancy (s : State) (a : Authority) (x : Port) : (s.setPort a x).occupancy = s.occupancy := rfl
@[simp] theorem State.setPort_workOrders (s : State) (a : Authority) (x : Port) : (s.setPort a x).workOrders = s.workOrders := rfl
@[simp] theorem State.setPort_permits (s : State) (a : Authority) (x : Port) : (s.setPort a x).permits = s.permits := rfl
@[simp] theorem State.setPort_doors (s : State) (a : Authority) (x : Port) : (s.setPort a x).doors = s.doors := rfl
@[simp] theorem State.setPort_slots (s : State) (a : Authority) (x : Port) : (s.setPort a x).slots = s.slots := rfl
@[simp] theorem State.setPort_lanes (s : State) (a : Authority) (x : Port) : (s.setPort a x).lanes = s.lanes := rfl
@[simp] theorem State.setPort_timings (s : State) (a : Authority) (x : Port) : (s.setPort a x).timings = s.timings := rfl
@[simp] theorem State.setPort_waiting (s : State) (a : Authority) (x : Port) : (s.setPort a x).waiting = s.waiting := rfl
@[simp] theorem State.setPort_meetings (s : State) (a : Authority) (x : Port) : (s.setPort a x).meetings = s.meetings := rfl
@[simp] theorem State.setPort_pending (s : State) (a : Authority) (x : Port) : (s.setPort a x).pending = s.pending := rfl
@[simp] theorem State.setPort_block (s : State) (a : Authority) (x : Port) (i : BlockNo) : (s.setPort a x).block i = s.block i := rfl
@[simp] theorem State.setPort_space (s : State) (a : Authority) (x : Port) (i : SpaceNo) : (s.setPort a x).space i = s.space i := rfl
@[simp] theorem State.setPort_site (s : State) (a : Authority) (x : Port) (i : SiteNo) : (s.setPort a x).site i = s.site i := rfl
@[simp] theorem State.setPort_record (s : State) (a : Authority) (x : Port) (i : RecordNo) : (s.setPort a x).record i = s.record i := rfl
@[simp] theorem State.setPort_workOrder (s : State) (a : Authority) (x : Port) (i : WorkOrderNo) : (s.setPort a x).workOrder i = s.workOrder i := rfl
@[simp] theorem State.setPort_permit (s : State) (a : Authority) (x : Port) (i : PermitNo) : (s.setPort a x).permit i = s.permit i := rfl
@[simp] theorem State.setPort_door (s : State) (a : Authority) (x : Port) (i : DoorId) : (s.setPort a x).door i = s.door i := rfl
@[simp] theorem State.setPort_slot (s : State) (a : Authority) (x : Port) (i : SlotNo) : (s.setPort a x).slot i = s.slot i := rfl
@[simp] theorem State.setPort_lane (s : State) (a : Authority) (x : Port) (i : LaneNo) : (s.setPort a x).lane i = s.lane i := rfl

/-! ### The records after an update of a plain field -/

@[simp] theorem State.cache_update_block (s : State) (v : List CacheEntry) (i : BlockNo) :
    State.block { s with cache := v } i = s.block i := rfl
@[simp] theorem State.cache_update_space (s : State) (v : List CacheEntry) (i : SpaceNo) :
    State.space { s with cache := v } i = s.space i := rfl
@[simp] theorem State.cache_update_site (s : State) (v : List CacheEntry) (i : SiteNo) :
    State.site { s with cache := v } i = s.site i := rfl
@[simp] theorem State.cache_update_record (s : State) (v : List CacheEntry) (i : RecordNo) :
    State.record { s with cache := v } i = s.record i := rfl
@[simp] theorem State.cache_update_workOrder (s : State) (v : List CacheEntry) (i : WorkOrderNo) :
    State.workOrder { s with cache := v } i = s.workOrder i := rfl
@[simp] theorem State.cache_update_permit (s : State) (v : List CacheEntry) (i : PermitNo) :
    State.permit { s with cache := v } i = s.permit i := rfl
@[simp] theorem State.cache_update_door (s : State) (v : List CacheEntry) (i : DoorId) :
    State.door { s with cache := v } i = s.door i := rfl
@[simp] theorem State.cache_update_slot (s : State) (v : List CacheEntry) (i : SlotNo) :
    State.slot { s with cache := v } i = s.slot i := rfl
@[simp] theorem State.cache_update_lane (s : State) (v : List CacheEntry) (i : LaneNo) :
    State.lane { s with cache := v } i = s.lane i := rfl
@[simp] theorem State.cache_update_port (s : State) (v : List CacheEntry) (i : Authority) :
    State.port { s with cache := v } i = s.port i := rfl

@[simp] theorem State.clock_update_block (s : State) (v : Option ClockTime) (i : BlockNo) :
    State.block { s with clock := v } i = s.block i := rfl
@[simp] theorem State.clock_update_space (s : State) (v : Option ClockTime) (i : SpaceNo) :
    State.space { s with clock := v } i = s.space i := rfl
@[simp] theorem State.clock_update_site (s : State) (v : Option ClockTime) (i : SiteNo) :
    State.site { s with clock := v } i = s.site i := rfl
@[simp] theorem State.clock_update_record (s : State) (v : Option ClockTime) (i : RecordNo) :
    State.record { s with clock := v } i = s.record i := rfl
@[simp] theorem State.clock_update_workOrder (s : State) (v : Option ClockTime) (i : WorkOrderNo) :
    State.workOrder { s with clock := v } i = s.workOrder i := rfl
@[simp] theorem State.clock_update_permit (s : State) (v : Option ClockTime) (i : PermitNo) :
    State.permit { s with clock := v } i = s.permit i := rfl
@[simp] theorem State.clock_update_door (s : State) (v : Option ClockTime) (i : DoorId) :
    State.door { s with clock := v } i = s.door i := rfl
@[simp] theorem State.clock_update_slot (s : State) (v : Option ClockTime) (i : SlotNo) :
    State.slot { s with clock := v } i = s.slot i := rfl
@[simp] theorem State.clock_update_lane (s : State) (v : Option ClockTime) (i : LaneNo) :
    State.lane { s with clock := v } i = s.lane i := rfl
@[simp] theorem State.clock_update_port (s : State) (v : Option ClockTime) (i : Authority) :
    State.port { s with clock := v } i = s.port i := rfl

@[simp] theorem State.count_update_block (s : State) (v : Nat) (i : BlockNo) :
    State.block { s with count := v } i = s.block i := rfl
@[simp] theorem State.count_update_space (s : State) (v : Nat) (i : SpaceNo) :
    State.space { s with count := v } i = s.space i := rfl
@[simp] theorem State.count_update_site (s : State) (v : Nat) (i : SiteNo) :
    State.site { s with count := v } i = s.site i := rfl
@[simp] theorem State.count_update_record (s : State) (v : Nat) (i : RecordNo) :
    State.record { s with count := v } i = s.record i := rfl
@[simp] theorem State.count_update_workOrder (s : State) (v : Nat) (i : WorkOrderNo) :
    State.workOrder { s with count := v } i = s.workOrder i := rfl
@[simp] theorem State.count_update_permit (s : State) (v : Nat) (i : PermitNo) :
    State.permit { s with count := v } i = s.permit i := rfl
@[simp] theorem State.count_update_door (s : State) (v : Nat) (i : DoorId) :
    State.door { s with count := v } i = s.door i := rfl
@[simp] theorem State.count_update_slot (s : State) (v : Nat) (i : SlotNo) :
    State.slot { s with count := v } i = s.slot i := rfl
@[simp] theorem State.count_update_lane (s : State) (v : Nat) (i : LaneNo) :
    State.lane { s with count := v } i = s.lane i := rfl
@[simp] theorem State.count_update_port (s : State) (v : Nat) (i : Authority) :
    State.port { s with count := v } i = s.port i := rfl

@[simp] theorem State.posture_update_block (s : State) (v : Posture) (i : BlockNo) :
    State.block { s with posture := v } i = s.block i := rfl
@[simp] theorem State.posture_update_space (s : State) (v : Posture) (i : SpaceNo) :
    State.space { s with posture := v } i = s.space i := rfl
@[simp] theorem State.posture_update_site (s : State) (v : Posture) (i : SiteNo) :
    State.site { s with posture := v } i = s.site i := rfl
@[simp] theorem State.posture_update_record (s : State) (v : Posture) (i : RecordNo) :
    State.record { s with posture := v } i = s.record i := rfl
@[simp] theorem State.posture_update_workOrder (s : State) (v : Posture) (i : WorkOrderNo) :
    State.workOrder { s with posture := v } i = s.workOrder i := rfl
@[simp] theorem State.posture_update_permit (s : State) (v : Posture) (i : PermitNo) :
    State.permit { s with posture := v } i = s.permit i := rfl
@[simp] theorem State.posture_update_door (s : State) (v : Posture) (i : DoorId) :
    State.door { s with posture := v } i = s.door i := rfl
@[simp] theorem State.posture_update_slot (s : State) (v : Posture) (i : SlotNo) :
    State.slot { s with posture := v } i = s.slot i := rfl
@[simp] theorem State.posture_update_lane (s : State) (v : Posture) (i : LaneNo) :
    State.lane { s with posture := v } i = s.lane i := rfl
@[simp] theorem State.posture_update_port (s : State) (v : Posture) (i : Authority) :
    State.port { s with posture := v } i = s.port i := rfl

@[simp] theorem State.timings_update_block (s : State) (v : Timings) (i : BlockNo) :
    State.block { s with timings := v } i = s.block i := rfl
@[simp] theorem State.timings_update_space (s : State) (v : Timings) (i : SpaceNo) :
    State.space { s with timings := v } i = s.space i := rfl
@[simp] theorem State.timings_update_site (s : State) (v : Timings) (i : SiteNo) :
    State.site { s with timings := v } i = s.site i := rfl
@[simp] theorem State.timings_update_record (s : State) (v : Timings) (i : RecordNo) :
    State.record { s with timings := v } i = s.record i := rfl
@[simp] theorem State.timings_update_workOrder (s : State) (v : Timings) (i : WorkOrderNo) :
    State.workOrder { s with timings := v } i = s.workOrder i := rfl
@[simp] theorem State.timings_update_permit (s : State) (v : Timings) (i : PermitNo) :
    State.permit { s with timings := v } i = s.permit i := rfl
@[simp] theorem State.timings_update_door (s : State) (v : Timings) (i : DoorId) :
    State.door { s with timings := v } i = s.door i := rfl
@[simp] theorem State.timings_update_slot (s : State) (v : Timings) (i : SlotNo) :
    State.slot { s with timings := v } i = s.slot i := rfl
@[simp] theorem State.timings_update_lane (s : State) (v : Timings) (i : LaneNo) :
    State.lane { s with timings := v } i = s.lane i := rfl
@[simp] theorem State.timings_update_port (s : State) (v : Timings) (i : Authority) :
    State.port { s with timings := v } i = s.port i := rfl

@[simp] theorem State.meetings_update_block (s : State) (v : List Meetings) (i : BlockNo) :
    State.block { s with meetings := v } i = s.block i := rfl
@[simp] theorem State.meetings_update_space (s : State) (v : List Meetings) (i : SpaceNo) :
    State.space { s with meetings := v } i = s.space i := rfl
@[simp] theorem State.meetings_update_site (s : State) (v : List Meetings) (i : SiteNo) :
    State.site { s with meetings := v } i = s.site i := rfl
@[simp] theorem State.meetings_update_record (s : State) (v : List Meetings) (i : RecordNo) :
    State.record { s with meetings := v } i = s.record i := rfl
@[simp] theorem State.meetings_update_workOrder (s : State) (v : List Meetings) (i : WorkOrderNo) :
    State.workOrder { s with meetings := v } i = s.workOrder i := rfl
@[simp] theorem State.meetings_update_permit (s : State) (v : List Meetings) (i : PermitNo) :
    State.permit { s with meetings := v } i = s.permit i := rfl
@[simp] theorem State.meetings_update_door (s : State) (v : List Meetings) (i : DoorId) :
    State.door { s with meetings := v } i = s.door i := rfl
@[simp] theorem State.meetings_update_slot (s : State) (v : List Meetings) (i : SlotNo) :
    State.slot { s with meetings := v } i = s.slot i := rfl
@[simp] theorem State.meetings_update_lane (s : State) (v : List Meetings) (i : LaneNo) :
    State.lane { s with meetings := v } i = s.lane i := rfl
@[simp] theorem State.meetings_update_port (s : State) (v : List Meetings) (i : Authority) :
    State.port { s with meetings := v } i = s.port i := rfl

@[simp] theorem State.waiting_update_block (s : State) (v : List Waiting) (i : BlockNo) :
    State.block { s with waiting := v } i = s.block i := rfl
@[simp] theorem State.waiting_update_space (s : State) (v : List Waiting) (i : SpaceNo) :
    State.space { s with waiting := v } i = s.space i := rfl
@[simp] theorem State.waiting_update_site (s : State) (v : List Waiting) (i : SiteNo) :
    State.site { s with waiting := v } i = s.site i := rfl
@[simp] theorem State.waiting_update_record (s : State) (v : List Waiting) (i : RecordNo) :
    State.record { s with waiting := v } i = s.record i := rfl
@[simp] theorem State.waiting_update_workOrder (s : State) (v : List Waiting) (i : WorkOrderNo) :
    State.workOrder { s with waiting := v } i = s.workOrder i := rfl
@[simp] theorem State.waiting_update_permit (s : State) (v : List Waiting) (i : PermitNo) :
    State.permit { s with waiting := v } i = s.permit i := rfl
@[simp] theorem State.waiting_update_door (s : State) (v : List Waiting) (i : DoorId) :
    State.door { s with waiting := v } i = s.door i := rfl
@[simp] theorem State.waiting_update_slot (s : State) (v : List Waiting) (i : SlotNo) :
    State.slot { s with waiting := v } i = s.slot i := rfl
@[simp] theorem State.waiting_update_lane (s : State) (v : List Waiting) (i : LaneNo) :
    State.lane { s with waiting := v } i = s.lane i := rfl
@[simp] theorem State.waiting_update_port (s : State) (v : List Waiting) (i : Authority) :
    State.port { s with waiting := v } i = s.port i := rfl

@[simp] theorem State.pending_update_block (s : State) (v : List Instr) (i : BlockNo) :
    State.block { s with pending := v } i = s.block i := rfl
@[simp] theorem State.pending_update_space (s : State) (v : List Instr) (i : SpaceNo) :
    State.space { s with pending := v } i = s.space i := rfl
@[simp] theorem State.pending_update_site (s : State) (v : List Instr) (i : SiteNo) :
    State.site { s with pending := v } i = s.site i := rfl
@[simp] theorem State.pending_update_record (s : State) (v : List Instr) (i : RecordNo) :
    State.record { s with pending := v } i = s.record i := rfl
@[simp] theorem State.pending_update_workOrder (s : State) (v : List Instr) (i : WorkOrderNo) :
    State.workOrder { s with pending := v } i = s.workOrder i := rfl
@[simp] theorem State.pending_update_permit (s : State) (v : List Instr) (i : PermitNo) :
    State.permit { s with pending := v } i = s.permit i := rfl
@[simp] theorem State.pending_update_door (s : State) (v : List Instr) (i : DoorId) :
    State.door { s with pending := v } i = s.door i := rfl
@[simp] theorem State.pending_update_slot (s : State) (v : List Instr) (i : SlotNo) :
    State.slot { s with pending := v } i = s.slot i := rfl
@[simp] theorem State.pending_update_lane (s : State) (v : List Instr) (i : LaneNo) :
    State.lane { s with pending := v } i = s.lane i := rfl
@[simp] theorem State.pending_update_port (s : State) (v : List Instr) (i : Authority) :
    State.port { s with pending := v } i = s.port i := rfl

/-! ### What a write leaves to be read -/

@[simp] theorem vector_get_set_self {α : Type} {n : Nat} (v : Vector α n) (i : Fin n) (x : α) :
    (v.set i x).get i = x := by
  simp [Vector.get_eq_getElem]

theorem vector_get_set {α : Type} {n : Nat} (v : Vector α n) (i j : Fin n) (x : α) :
    (v.set i x).get j = if j = i then x else v.get j := by
  simp only [Vector.get_eq_getElem, Vector.getElem_set, Fin.ext_iff, eq_comm]

theorem doorIndex_inj {d e : DoorId} : doorIndex d = doorIndex e ↔ d = e := by
  obtain ⟨dl, da⟩ := d
  obtain ⟨el, ea⟩ := e
  simp only [doorIndex, DoorId.mk.injEq, Fin.ext_iff]
  omega

@[simp] theorem State.setBlock_block_self (s : State) (b : BlockNo) (x : Block) : (s.setBlock b x).block b = x := vector_get_set_self ..
theorem State.setBlock_block (s : State) (b : BlockNo) (x : Block) (i : BlockNo) :
    (s.setBlock b x).block i = if i = b then x else s.block i := vector_get_set ..

@[simp] theorem State.setSpace_space_self (s : State) (n : SpaceNo) (x : SpaceRecord) : (s.setSpace n x).space n = x := vector_get_set_self ..
theorem State.setSpace_space (s : State) (n : SpaceNo) (x : SpaceRecord) (i : SpaceNo) :
    (s.setSpace n x).space i = if i = n then x else s.space i := vector_get_set ..

@[simp] theorem State.setSite_site_self (s : State) (n : SiteNo) (x : SiteRecord) : (s.setSite n x).site n = x := vector_get_set_self ..
theorem State.setSite_site (s : State) (n : SiteNo) (x : SiteRecord) (i : SiteNo) :
    (s.setSite n x).site i = if i = n then x else s.site i := vector_get_set ..

@[simp] theorem State.setRecord_record_self (s : State) (n : RecordNo) (x : Option OccupancyRecord) : (s.setRecord n x).record n = x := vector_get_set_self ..
theorem State.setRecord_record (s : State) (n : RecordNo) (x : Option OccupancyRecord) (i : RecordNo) :
    (s.setRecord n x).record i = if i = n then x else s.record i := vector_get_set ..

@[simp] theorem State.setWorkOrder_workOrder_self (s : State) (n : WorkOrderNo) (x : Option WorkOrder) : (s.setWorkOrder n x).workOrder n = x := vector_get_set_self ..
theorem State.setWorkOrder_workOrder (s : State) (n : WorkOrderNo) (x : Option WorkOrder) (i : WorkOrderNo) :
    (s.setWorkOrder n x).workOrder i = if i = n then x else s.workOrder i := vector_get_set ..

@[simp] theorem State.setPermit_permit_self (s : State) (n : PermitNo) (x : Option Permit) : (s.setPermit n x).permit n = x := vector_get_set_self ..
theorem State.setPermit_permit (s : State) (n : PermitNo) (x : Option Permit) (i : PermitNo) :
    (s.setPermit n x).permit i = if i = n then x else s.permit i := vector_get_set ..

@[simp] theorem State.setSlot_slot_self (s : State) (k : SlotNo) (x : Option Slot) : (s.setSlot k x).slot k = x := vector_get_set_self ..
theorem State.setSlot_slot (s : State) (k : SlotNo) (x : Option Slot) (i : SlotNo) :
    (s.setSlot k x).slot i = if i = k then x else s.slot i := vector_get_set ..

@[simp] theorem State.setLane_lane_self (s : State) (l : LaneNo) (x : Lane) : (s.setLane l x).lane l = x := vector_get_set_self ..
theorem State.setLane_lane (s : State) (l : LaneNo) (x : Lane) (i : LaneNo) :
    (s.setLane l x).lane i = if i = l then x else s.lane i := vector_get_set ..

@[simp] theorem State.setDoor_door_self (s : State) (d : DoorId) (x : Door) : (s.setDoor d x).door d = x :=
  vector_get_set_self ..
theorem State.setDoor_door (s : State) (d : DoorId) (x : Door) (i : DoorId) :
    (s.setDoor d x).door i = if i = d then x else s.door i := by
  simp only [State.setDoor, State.door, vector_get_set, doorIndex_inj]

@[simp] theorem State.setPort_port_self (s : State) (a : Authority) (x : Port) : (s.setPort a x).port a = x := by
  cases a <;> rfl
theorem State.setPort_port (s : State) (a : Authority) (x : Port) (i : Authority) :
    (s.setPort a x).port i = if i = a then x else s.port i := by
  cases a <;> cases i <;> rfl

/-- Two writes of one port leave the second. -/
@[simp] theorem State.setPort_setPort (s : State) (a : Authority) (x y : Port) :
    (s.setPort a x).setPort a y = s.setPort a y := by
  cases a <;> rfl

/-- Writes of two ports commute. -/
theorem State.setPort_comm (s : State) {a b : Authority} (h : a ≠ b) (x y : Port) :
    (s.setPort a x).setPort b y = (s.setPort b y).setPort a x := by
  cases a <;> cases b <;> first | exact absurd rfl h | rfl

/-- Writing a port as it stands changes nothing. -/
@[simp] theorem State.setPort_port_eq (s : State) (a : Authority) : s.setPort a (s.port a) = s := by
  cases a <;> rfl

end Sys2Proof.Machine
end

