-- ==== Sys2Proof/Laws/Frames.lean ====
section
/-! SUPPORT. What each shared operation may change (Safety.lean: `State.changesOnly`). Each lemma extends a chain: when
nothing but the listed parts has changed so far, and the operation's parts are among them, the same holds after the
operation. -/

namespace Sys2Proof.Machine

variable {fs gs : List Field} {s t u : State}

/-- Nothing changes from a state to itself. -/
theorem State.changesOnly_refl (fs : List Field) (s : State) : s.changesOnly fs s := by
  intro f _
  cases f <;> rfl

/-- Two chains of changes make one. -/
theorem State.changesOnly.trans (h : s.changesOnly fs t) (h' : t.changesOnly fs u) : s.changesOnly fs u := by
  intro f hf
  have h1 := h f hf
  have h2 := h' f hf
  cases f <;> exact h2.trans h1

/-- A change within fewer parts is one within more. -/
theorem State.changesOnly.mono (h : s.changesOnly fs t) (hsub : ∀ f ∈ fs, f ∈ gs) : s.changesOnly gs t :=
  fun f hf => h f fun hfs => hf (hsub f hfs)

/-- A fold changes no more than each of its rounds. -/
theorem State.changesOnly.foldl {α : Type} {f : State → α → State} {l : List α} (h : s.changesOnly fs t)
    (hf : ∀ (u : State) (a : α), a ∈ l → u.changesOnly fs (f u a)) : s.changesOnly fs (l.foldl f t) := by
  induction l generalizing t with
  | nil => exact h
  | cons a l ih => exact ih (h.trans (hf t a (by simp))) fun u b hb => hf u b (by simp [hb])

/-! ### Updates of one part -/

theorem State.changesOnly.setBlock {b : BlockNo} {x : Block} (h : s.changesOnly fs t) (hf : Field.blocks ∈ fs) :
    s.changesOnly fs (t.setBlock b x) := by
  intro g hg
  have hg' := h g hg
  cases g <;> first | exact absurd hf hg | exact hg'

theorem State.changesOnly.setSpace {n : SpaceNo} {x : SpaceRecord} (h : s.changesOnly fs t) (hf : Field.spaces ∈ fs) :
    s.changesOnly fs (t.setSpace n x) := by
  intro g hg
  have hg' := h g hg
  cases g <;> first | exact absurd hf hg | exact hg'

theorem State.changesOnly.setSite {n : SiteNo} {x : SiteRecord} (h : s.changesOnly fs t) (hf : Field.sites ∈ fs) :
    s.changesOnly fs (t.setSite n x) := by
  intro g hg
  have hg' := h g hg
  cases g <;> first | exact absurd hf hg | exact hg'

theorem State.changesOnly.setRecord {n : RecordNo} {x : Option OccupancyRecord} (h : s.changesOnly fs t) (hf : Field.occupancy ∈ fs) :
    s.changesOnly fs (t.setRecord n x) := by
  intro g hg
  have hg' := h g hg
  cases g <;> first | exact absurd hf hg | exact hg'

theorem State.changesOnly.setWorkOrder {n : WorkOrderNo} {x : Option WorkOrder} (h : s.changesOnly fs t) (hf : Field.workOrders ∈ fs) :
    s.changesOnly fs (t.setWorkOrder n x) := by
  intro g hg
  have hg' := h g hg
  cases g <;> first | exact absurd hf hg | exact hg'

theorem State.changesOnly.setPermit {n : PermitNo} {x : Option Permit} (h : s.changesOnly fs t) (hf : Field.permits ∈ fs) :
    s.changesOnly fs (t.setPermit n x) := by
  intro g hg
  have hg' := h g hg
  cases g <;> first | exact absurd hf hg | exact hg'

theorem State.changesOnly.setDoor {d : DoorId} {x : Door} (h : s.changesOnly fs t) (hf : Field.doors ∈ fs) :
    s.changesOnly fs (t.setDoor d x) := by
  intro g hg
  have hg' := h g hg
  cases g <;> first | exact absurd hf hg | exact hg'

theorem State.changesOnly.setSlot {k : SlotNo} {x : Option Slot} (h : s.changesOnly fs t) (hf : Field.slots ∈ fs) :
    s.changesOnly fs (t.setSlot k x) := by
  intro g hg
  have hg' := h g hg
  cases g <;> first | exact absurd hf hg | exact hg'

theorem State.changesOnly.setLane {l : LaneNo} {x : Lane} (h : s.changesOnly fs t) (hf : Field.lanes ∈ fs) :
    s.changesOnly fs (t.setLane l x) := by
  intro g hg
  have hg' := h g hg
  cases g <;> first | exact absurd hf hg | exact hg'

theorem State.changesOnly.setPort {a : Authority} {x : Port} (h : s.changesOnly fs t) (hf : Field.ports ∈ fs) :
    s.changesOnly fs (t.setPort a x) := by
  intro g hg
  have hg' := h g hg
  cases g <;> first | exact absurd hf hg | exact hg'

theorem State.changesOnly.cache_update {v : List CacheEntry} (h : s.changesOnly fs t) (hf : Field.cache ∈ fs) :
    s.changesOnly fs { t with cache := v } := by
  intro g hg
  have hg' := h g hg
  cases g <;> first | exact absurd hf hg | exact hg'

theorem State.changesOnly.clock_update {v : Option ClockTime} (h : s.changesOnly fs t) (hf : Field.clock ∈ fs) :
    s.changesOnly fs { t with clock := v } := by
  intro g hg
  have hg' := h g hg
  cases g <;> first | exact absurd hf hg | exact hg'

theorem State.changesOnly.count_update {v : Nat} (h : s.changesOnly fs t) (hf : Field.count ∈ fs) :
    s.changesOnly fs { t with count := v } := by
  intro g hg
  have hg' := h g hg
  cases g <;> first | exact absurd hf hg | exact hg'

theorem State.changesOnly.posture_update {v : Posture} (h : s.changesOnly fs t) (hf : Field.posture ∈ fs) :
    s.changesOnly fs { t with posture := v } := by
  intro g hg
  have hg' := h g hg
  cases g <;> first | exact absurd hf hg | exact hg'

theorem State.changesOnly.timings_update {v : Timings} (h : s.changesOnly fs t) (hf : Field.timings ∈ fs) :
    s.changesOnly fs { t with timings := v } := by
  intro g hg
  have hg' := h g hg
  cases g <;> first | exact absurd hf hg | exact hg'

theorem State.changesOnly.slots_update {v : Vector (Option Slot) 4} (h : s.changesOnly fs t) (hf : Field.slots ∈ fs) :
    s.changesOnly fs { t with slots := v } := by
  intro g hg
  have hg' := h g hg
  cases g <;> first | exact absurd hf hg | exact hg'

theorem State.changesOnly.blocks_update {v : Vector Block 512} (h : s.changesOnly fs t) (hf : Field.blocks ∈ fs) :
    s.changesOnly fs { t with blocks := v } := by
  intro g hg
  have hg' := h g hg
  cases g <;> first | exact absurd hf hg | exact hg'

theorem State.changesOnly.meetings_update {v : List Meetings} (h : s.changesOnly fs t)
    (hf : Field.meetings ∈ fs) : s.changesOnly fs { t with meetings := v } := by
  intro g hg
  have hg' := h g hg
  cases g <;> first | exact absurd hf hg | exact hg'

theorem State.changesOnly.waiting_update {v : List Waiting} (h : s.changesOnly fs t) (hf : Field.waiting ∈ fs) :
    s.changesOnly fs { t with waiting := v } := by
  intro g hg
  have hg' := h g hg
  cases g <;> first | exact absurd hf hg | exact hg'

/-! ### Shared operations -/

theorem State.changesOnly.notify {a : Authority} {n : Notice} (h : s.changesOnly fs t) (hf : Field.ports ∈ fs) :
    s.changesOnly fs (t.notify a n) := by
  exact h.setPort hf

theorem State.changesOnly.notifyBoth {a : Authority} {n : Notice} (h : s.changesOnly fs t) (hf : Field.ports ∈ fs) :
    s.changesOnly fs (t.notifyBoth a n) := by
  unfold State.notifyBoth
  dsimp only
  split
  · exact h.notify hf
  · exact (h.notify hf).notify hf

theorem State.changesOnly.reserveReply {p : Authority} (h : s.changesOnly fs t) (hf : Field.ports ∈ fs) :
    s.changesOnly fs (t.reserveReply p) := by
  exact h.setPort hf

theorem State.changesOnly.makeReply {p : Authority} {b : Bool} {r : Reply} (h : s.changesOnly fs t) (hf : Field.ports ∈ fs) :
    s.changesOnly fs (t.makeReply p b r) := by
  exact h.setPort hf

theorem State.changesOnly.addVerdict {d : DoorId} {v : Verdict} (h : s.changesOnly fs t) (hf : Field.doors ∈ fs) :
    s.changesOnly fs (t.addVerdict d v) := by
  exact h.setDoor hf

theorem State.changesOnly.notifyDenied {d : DoorId} {c : Credential} {code : DenyCode} (h : s.changesOnly fs t) (hf : Field.ports ∈ fs) :
    s.changesOnly fs (t.notifyDenied d c code) := by
  unfold State.notifyDenied
  split
  · exact h.notify hf
  · split
    · exact h.notify hf
    · exact h.notifyBoth hf

theorem State.changesOnly.denyPresentation {d : DoorId} {c : Credential} {code : DenyCode} (h : s.changesOnly fs t) (hf : ∀ f ∈ ([.doors, .ports] : List Field), f ∈ fs) :
    s.changesOnly fs (t.denyPresentation d c code) := by
  exact (h.addVerdict (hf _ (by simp))).notifyDenied (hf _ (by simp))

theorem State.changesOnly.endAdmission {d : DoorId} (h : s.changesOnly fs t) (hf : Field.doors ∈ fs) :
    s.changesOnly fs (t.endAdmission d) := by
  exact h.setDoor hf

theorem State.changesOnly.removeOpen {d : DoorId} (h : s.changesOnly fs t) (hf : Field.doors ∈ fs) :
    s.changesOnly fs (t.removeOpen d) := by
  exact h.setDoor hf

theorem State.changesOnly.evaluateOver {k : RecordNo} (h : s.changesOnly fs t) (hf : ∀ f ∈ ([.occupancy, .ports] : List Field), f ∈ fs) :
    s.changesOnly fs (t.evaluateOver k) := by
  unfold State.evaluateOver
  split
  · exact h
  · dsimp only
    split
    · split
      · exact h
      · exact (h.setRecord (hf _ (by simp))).notify (hf _ (by simp))
    · exact h.setRecord (hf _ (by simp))

theorem State.changesOnly.evaluateWhere {p : Designator → Bool} (h : s.changesOnly fs t) (hf : ∀ f ∈ ([.occupancy, .ports] : List Field), f ∈ fs) :
    s.changesOnly fs (t.evaluateWhere p) := by
  exact h.foldl fun u k _ => (changesOnly_refl fs u).evaluateOver hf

theorem State.changesOnly.evaluateRoom {r : Designator} (h : s.changesOnly fs t) (hf : ∀ f ∈ ([.occupancy, .ports] : List Field), f ∈ fs) :
    s.changesOnly fs (t.evaluateRoom r) := by
  unfold State.evaluateRoom
  split
  · exact h
  · exact h.evaluateOver hf

theorem State.changesOnly.applySwitch {n : SpaceNo} {c : SwitchCause} {k : Nat} (h : s.changesOnly fs t) (hf : ∀ f ∈ ([.spaces, .ports] : List Field), f ∈ fs) :
    s.changesOnly fs (t.applySwitch n c k) := by
  unfold State.applySwitch
  dsimp only
  split
  · exact h
  · exact (h.setSpace (hf _ (by simp))).notify (hf _ (by simp))

theorem State.changesOnly.raiseDrain {n : SpaceNo} (h : s.changesOnly fs t) (hf : Field.spaces ∈ fs) :
    s.changesOnly fs (t.raiseDrain n) := by
  exact h.setSpace hf

theorem State.changesOnly.lowerDrain {f : Option SpaceNo} {n : SpaceNo} (h : s.changesOnly fs t) (hf : ∀ f ∈ ([.spaces, .ports] : List Field), f ∈ fs) :
    s.changesOnly fs (t.lowerDrain f n) := by
  unfold State.lowerDrain
  dsimp only
  split
  · exact (h.setSpace (hf _ (by simp))).applySwitch hf
  · exact h.setSpace (hf _ (by simp))

theorem State.changesOnly.endPairing {k : SlotNo} {d : DoorId} {f : Option SpaceNo} (h : s.changesOnly fs t) (hf : ∀ f ∈ ([.spaces, .doors, .slots, .ports] : List Field), f ∈ fs) :
    s.changesOnly fs (t.endPairing k d f) := by
  have h1 := (h.setSlot (k := k) (x := none) (hf _ (by simp))).endAdmission (d := d) (hf _ (by simp))
  unfold State.endPairing
  dsimp only
  split
  · exact h1
  · exact h1.foldl fun u n _ => (changesOnly_refl fs u).lowerDrain fun f hf' => hf f (by revert hf'; cases f <;> simp)

theorem State.changesOnly.denyPairing {k : SlotNo} {c : DenyCode} {f : Option SpaceNo} {v : Bool} (h : s.changesOnly fs t) (hf : ∀ f ∈ ([.spaces, .doors, .slots, .ports] : List Field), f ∈ fs) :
    s.changesOnly fs (t.denyPairing k c f v) := by
  unfold State.denyPairing
  split
  · exact h
  · dsimp only
    refine State.changesOnly.foldl ?_ fun u n _ => (changesOnly_refl fs u).notifyDenied (hf _ (by simp))
    split
    · exact (h.endPairing hf).addVerdict (hf _ (by simp))
    · exact h.endPairing hf

theorem State.changesOnly.cancelPairing {v : Bool} {d : DoorId} (h : s.changesOnly fs t) (hf : ∀ f ∈ ([.spaces, .doors, .slots, .ports] : List Field), f ∈ fs) :
    s.changesOnly fs (State.cancelPairing t v d) := by
  unfold State.cancelPairing
  split
  · exact h.denyPairing hf
  · exact h

theorem State.changesOnly.abandonHolding {n : PermitNo} (h : s.changesOnly fs t) (hf : ∀ f ∈ ([.spaces, .doors, .slots, .ports] : List Field), f ∈ fs) :
    s.changesOnly fs (t.abandonHolding n) := by
  unfold State.abandonHolding
  split
  · exact h
  · exact h.denyPairing hf

theorem State.changesOnly.freePermit {n : PermitNo} {c : ReleaseCause} (h : s.changesOnly fs t) (hf : ∀ f ∈ ([.permits, .ports] : List Field), f ∈ fs) :
    s.changesOnly fs (t.freePermit n c) := by
  unfold State.freePermit
  split
  · exact h
  · exact (h.setPermit (hf _ (by simp))).notify (hf _ (by simp))

theorem State.changesOnly.freeWorkOrderIfDone {w : WorkOrderNo} (h : s.changesOnly fs t) (hf : ∀ f ∈ ([.workOrders, .permits, .ports] : List Field), f ∈ fs) :
    s.changesOnly fs (t.freeWorkOrderIfDone w) := by
  have hp : ∀ f ∈ ([.permits, .ports] : List Field), f ∈ fs := fun f hf' => hf f (by revert hf'; cases f <;> simp)
  unfold State.freeWorkOrderIfDone
  split
  · exact h
  · split
    · split
      · exact h
      · exact (h.foldl fun u n _ => (changesOnly_refl fs u).freePermit hp).setWorkOrder (hf _ (by simp))
    · exact h

theorem State.changesOnly.changeParty {w : WorkOrderNo} {f : Nat → Nat} (h : s.changesOnly fs t) (hf : Field.workOrders ∈ fs) :
    s.changesOnly fs (t.changeParty w f) := by
  unfold State.changeParty
  split
  · exact h
  · exact h.setWorkOrder hf

theorem State.changesOnly.leaveRoom {r : Designator} {n : PermitNo} {k : Nat} (h : s.changesOnly fs t) (hf : Field.occupancy ∈ fs) :
    s.changesOnly fs (t.leaveRoom r n k) := by
  unfold State.leaveRoom
  split
  · exact h
  · split
    · exact h
    · exact h.setRecord hf

theorem State.changesOnly.leave {n : PermitNo} {p : Permit} {r : Designator} {c : ReleaseCause} (h : s.changesOnly fs t) (hf : ∀ f ∈ ([.occupancy, .workOrders, .permits, .ports] : List Field), f ∈ fs) :
    s.changesOnly fs (t.leave n p r c) := by
  have h1 := (h.leaveRoom (r := r) (n := n) (k := p.role.weight) (hf _ (by simp))).changeParty (w := p.workOrder)
    (f := (· - p.role.weight)) (hf _ (by simp))
  unfold State.leave
  dsimp only
  refine State.changesOnly.freeWorkOrderIfDone ?_ fun f hf' => hf f (by revert hf'; cases f <;> simp)
  split
  · exact h1.freePermit fun f hf' => hf f (by revert hf'; cases f <;> simp)
  · exact h1.setPermit (hf _ (by simp))

theorem State.changesOnly.releasePermit {b : Bool} {n : PermitNo} (h : s.changesOnly fs t) (hf : ∀ f ∈ ([.occupancy, .workOrders, .permits, .ports] : List Field), f ∈ fs) :
    s.changesOnly fs (State.releasePermit b t n) := by
  unfold State.releasePermit
  split
  · split
    · split
      · exact (h.leave hf).evaluateRoom fun f hf' => hf f (by revert hf'; cases f <;> simp)
      · exact h.leave hf
    · exact h
  · exact h

theorem State.changesOnly.exitPermit {n : PermitNo} (h : s.changesOnly fs t) (hf : ∀ f ∈ ([.occupancy, .workOrders, .permits, .ports] : List Field), f ∈ fs) :
    s.changesOnly fs (t.exitPermit n) := by
  unfold State.exitPermit
  split
  · split
    · exact (h.leave hf).evaluateRoom fun f hf' => hf f (by revert hf'; cases f <;> simp)
    · exact h
  · exact h

theorem State.changesOnly.makePending {r : Designator} {d : DoorId} {b : Bool} {n : PermitNo} (h : s.changesOnly fs t) (hf : ∀ f ∈ ([.workOrders, .permits] : List Field), f ∈ fs) :
    s.changesOnly fs (t.makePending r d b n) := by
  unfold State.makePending
  split
  · exact h
  · exact (h.setPermit (hf _ (by simp))).changeParty (hf _ (by simp))

theorem State.changesOnly.reserve {r : Designator} {g c : Nat} {d : DoorId} {b : Bool} {ns : List PermitNo} (h : s.changesOnly fs t) (hf : ∀ f ∈ ([.occupancy, .workOrders, .permits, .ports] : List Field), f ∈ fs) :
    s.changesOnly fs (t.reserve r g c d b ns) := by
  unfold State.reserve
  split
  · exact h
  · dsimp only
    refine State.changesOnly.foldl ?_ fun u n _ => (changesOnly_refl fs u).makePending fun f hf' =>
      hf f (by revert hf'; cases f <;> simp)
    exact (h.setRecord (hf _ (by simp))).evaluateOver fun f hf' => hf f (by revert hf'; cases f <;> simp)

theorem State.changesOnly.openEnter {d : DoorId} {r : Designator} {g c : Nat} {b : Bool} {l : List HeldPermit} (h : s.changesOnly fs t) (hf : ∀ f ∈ ([.occupancy, .workOrders, .permits, .doors, .ports] : List Field), f ∈ fs) :
    s.changesOnly fs (t.openEnter d r g c b l) := by
  unfold State.openEnter
  dsimp only
  refine State.changesOnly.addVerdict (State.changesOnly.setDoor (h.reserve fun f hf' => hf f ?_) ?_) ?_
  · revert hf'; cases f <;> simp
  · exact hf _ (by simp)
  · exact hf _ (by simp)

theorem State.changesOnly.moveInside {r : Designator} {n : PermitNo} (h : s.changesOnly fs t) (hf : Field.occupancy ∈ fs) :
    s.changesOnly fs (t.moveInside r n) := by
  unfold State.moveInside
  split
  · exact h
  · split
    · exact h
    · exact h.setRecord hf

theorem State.changesOnly.enterPermit {d : DoorId} {x : HeldPermit} (h : s.changesOnly fs t) (hf : ∀ f ∈ ([.occupancy, .permits, .ports] : List Field), f ∈ fs) :
    s.changesOnly fs (t.enterPermit d x) := by
  unfold State.enterPermit
  split
  · exact h
  · split
    · dsimp only
      refine State.changesOnly.notifyBoth ?_ (hf _ (by simp))
      split
      · exact ((h.moveInside (hf _ (by simp))).setPermit (hf _ (by simp))).notifyBoth (hf _ (by simp))
      · exact (h.moveInside (hf _ (by simp))).setPermit (hf _ (by simp))
    · exact h

theorem State.changesOnly.endPassage {d : DoorId} (h : s.changesOnly fs t) (hf : Field.doors ∈ fs) :
    s.changesOnly fs (t.endPassage d) := by
  unfold State.endPassage
  split
  · exact h.endAdmission hf
  · exact h

theorem State.changesOnly.releaseAll {b : Bool} {ns : List PermitNo} (h : s.changesOnly fs t) (hf : ∀ f ∈ ([.occupancy, .workOrders, .permits, .ports] : List Field), f ∈ fs) :
    s.changesOnly fs (t.releaseAll b ns) :=
  h.foldl fun u _ _ => (changesOnly_refl fs u).releasePermit hf

theorem State.changesOnly.closePassages {b : Bool} {ds : List DoorId} (h : s.changesOnly fs t) (hf : ∀ f ∈ ([.occupancy, .workOrders, .permits, .doors, .ports] : List Field), f ∈ fs) :
    s.changesOnly fs (t.closePassages b ds) :=
  (h.releaseAll fun f hf' => hf f (by revert hf'; cases f <;> simp)).foldl fun u _ _ =>
    (changesOnly_refl fs u).endPassage (hf _ (by simp))

theorem State.changesOnly.withdrawEntries {d : DoorId} (h : s.changesOnly fs t) (hf : Field.doors ∈ fs) :
    s.changesOnly fs (t.withdrawEntries d) := by
  exact h.setDoor hf

theorem State.changesOnly.endEntry {d : DoorId} (h : s.changesOnly fs t) (hf : Field.doors ∈ fs) :
    s.changesOnly fs (t.endEntry d) := by
  unfold State.endEntry
  split
  · exact h.endAdmission hf
  · exact h

theorem State.changesOnly.endForLockdown {e : LockdownEnding} (h : s.changesOnly fs t)
    (hf : ∀ f ∈ ([.spaces, .occupancy, .workOrders, .permits, .doors, .slots, .ports] : List Field), f ∈ fs) :
    s.changesOnly fs (t.endForLockdown e) := by
  unfold State.endForLockdown
  split
  · split
    · exact h.denyPairing fun f hf' => hf f (by revert hf'; cases f <;> simp)
    · exact h
  · exact h.releasePermit fun f hf' => hf f (by revert hf'; cases f <;> simp)

theorem State.changesOnly.lockDoors (h : s.changesOnly fs t)
    (hf : ∀ f ∈ ([.spaces, .occupancy, .workOrders, .permits, .doors, .slots, .ports] : List Field), f ∈ fs) :
    s.changesOnly fs t.lockDoors := by
  unfold State.lockDoors
  dsimp only
  refine State.changesOnly.foldl (State.changesOnly.foldl (State.changesOnly.foldl h ?_) ?_) ?_
  · exact fun u _ _ => (changesOnly_refl fs u).withdrawEntries (hf _ (by simp))
  · exact fun u _ _ => (changesOnly_refl fs u).endForLockdown hf
  · exact fun u _ _ => (changesOnly_refl fs u).endEntry (hf _ (by simp))

/-- What a lane sends next is on the lane alone. -/
theorem State.changesOnly.sendNext {l : LaneNo} (h : s.changesOnly fs t) (hf : Field.lanes ∈ fs) :
    s.changesOnly fs (t.sendNext l) := by
  unfold State.sendNext
  dsimp only
  split <;> exact h.setLane hf

theorem State.changesOnly.withdrawFrame {l : LaneNo} (h : s.changesOnly fs t) (hf : Field.lanes ∈ fs) :
    s.changesOnly fs (t.withdrawFrame l) := by
  unfold State.withdrawFrame
  split
  · exact h.sendNext hf
  · exact h

/-- A change of the posture changes the doors and the lanes only at a change to Lockdown, and the flags (R87). -/
theorem State.changesOnly.changePosture {p : Posture} (h : s.changesOnly fs t) (hf : ∀ f ∈ ([.posture, .spaces,
    .occupancy, .workOrders, .permits, .doors, .slots, .lanes, .ports] : List Field), f ∈ fs) :
    s.changesOnly fs (t.changePosture p) := by
  have h1 := h.posture_update (v := p) (hf _ (by simp))
  unfold State.changePosture
  dsimp only
  refine State.changesOnly.evaluateWhere ?_ fun f hf' => hf f (by revert hf'; cases f <;> simp)
  split
  · exact (h1.lockDoors fun f hf' => hf f (by revert hf'; cases f <;> simp)).foldl fun u l _ =>
      (changesOnly_refl fs u).withdrawFrame (hf _ (by simp))
  · exact h1

theorem State.changesOnly.closePermit {c : ClosingCause} {n : PermitNo} (h : s.changesOnly fs t) (hf : ∀ f ∈ ([.spaces, .permits, .doors, .slots, .ports] : List Field), f ∈ fs) :
    s.changesOnly fs (State.closePermit c t n) := by
  unfold State.closePermit
  split
  · exact h
  · split
    · exact h.setPermit (hf _ (by simp))
    · exact (h.abandonHolding fun f hf' => hf f (by revert hf'; cases f <;> simp)).freePermit fun f hf' =>
        hf f (by revert hf'; cases f <;> simp)

theorem State.changesOnly.closeWorkOrder {w : WorkOrderNo} {c : ClosingCause} (h : s.changesOnly fs t) (hf : ∀ f ∈ ([.spaces, .workOrders, .permits, .doors, .slots, .ports] : List Field), f ∈ fs) :
    s.changesOnly fs (t.closeWorkOrder w c) := by
  have h1 : s.changesOnly fs ((t.permitsOf w).foldl (State.closePermit c) t) :=
    h.foldl fun u n _ => (changesOnly_refl fs u).closePermit fun f hf' => hf f (by revert hf'; cases f <;> simp)
  unfold State.closeWorkOrder
  dsimp only
  split
  · exact h1
  · exact (h1.setWorkOrder (hf _ (by simp))).freeWorkOrderIfDone fun f hf' =>
      hf f (by revert hf'; cases f <;> simp)

/-- A command that its port takes changes what its body changes, and the port. -/
theorem State.changesOnly.carryOut {p : Authority} {code : Byte} {body : State → State × Answer}
    (h : s.changesOnly fs t) (hf : Field.ports ∈ fs)
    (hb : ∀ u : State, s.changesOnly fs u → s.changesOnly fs (body u).1) :
    s.changesOnly fs (Machine.carryOut p code body t) :=
  (hb _ (h.reserveReply hf)).makeReply hf

/-- PURGE changes nothing but the cache (R71). -/
theorem State.changesOnly.purge {p : Authority} {a : PurgeArgs} (h : s.changesOnly fs t) (hf : Field.cache ∈ fs) :
    s.changesOnly fs (Machine.purge p a t).1 := by
  unfold Machine.purge
  split
  · exact h
  · split
    · exact h
    · exact h.cache_update hf

theorem State.changesOnly.writeBlock {p : Authority} {a : WriteBlockArgs} (h : s.changesOnly fs t)
    (hf : Field.blocks ∈ fs) : s.changesOnly fs (Machine.writeBlock p a t).1 := by
  unfold Machine.writeBlock
  split
  · split
    · split
      · exact h.setBlock hf
      · exact h
    · exact h.setBlock hf
  · exact h

theorem State.changesOnly.freeBlocks {p : Authority} {a : FreeBlocksArgs} (h : s.changesOnly fs t)
    (hf : Field.blocks ∈ fs) : s.changesOnly fs (Machine.freeBlocks p a t).1 := by
  unfold Machine.freeBlocks
  dsimp only
  split
  · exact h
  · split
    · exact h
    · split
      · exact h
      · exact h.blocks_update hf

theorem State.changesOnly.cleared (h : s.changesOnly fs t) (hw : t.waiting = [] ∨ Field.waiting ∈ fs)
    (hf : ∀ f ∈ ([.blocks, .spaces, .cache, .sites, .occupancy, .workOrders, .permits, .doors, .slots, .ports] :
      List Field), f ∈ fs) : s.changesOnly fs t.cleared := by
  intro g hg
  have hg' := h g hg
  cases g <;> first
    | exact hg'
    | exact hw.elim (fun hw => Eq.trans hw.symm (show t.waiting = s.waiting from hg')) fun hw => absurd hw hg
    | exact absurd (hf _ (by simp)) hg

theorem State.changesOnly.estateClear {p : Authority} {a : NoArgs} (h : s.changesOnly fs t)
    (hw : t.waiting = [] ∨ Field.waiting ∈ fs) (hf : ∀ f ∈ ([.blocks, .spaces, .cache, .sites, .occupancy, .workOrders,
      .permits, .doors, .slots, .ports] : List Field), f ∈ fs) : s.changesOnly fs (Machine.estateClear p a t).1 := by
  unfold Machine.estateClear
  split
  · exact h
  · split
    · exact h
    · exact h.cleared hw hf

/-! ### What decisions do once their requests are answered -/

theorem State.changesOnly.applySelection {now : Reading} {n : WorkOrderNo} {w : WorkOrder} {c : Candidate} {b : Bool}
    (h : s.changesOnly fs t) (hf : ∀ f ∈ ([.workOrders, .ports] : List Field), f ∈ fs) :
    s.changesOnly fs (t.applySelection now n w c b) := by
  unfold State.applySelection
  dsimp only
  refine State.changesOnly.notify ?_ (hf _ (by simp))
  split
  · exact (h.setWorkOrder (hf _ (by simp))).notify (hf _ (by simp))
  · exact h.setWorkOrder (hf _ (by simp))

theorem State.changesOnly.lapse {n : WorkOrderNo} {w : WorkOrder} {f : SelectionFailure}
    (h : s.changesOnly fs t) (hf : ∀ f ∈ ([.workOrders, .ports] : List Field), f ∈ fs) :
    s.changesOnly fs (t.lapse n w f) := (h.setWorkOrder (hf _ (by simp))).notify (hf _ (by simp))

theorem State.changesOnly.applyResult {now : Reading} {n : WorkOrderNo} {w : WorkOrder} {r : SelectionResult}
    (h : s.changesOnly fs t) (hf : ∀ f ∈ ([.workOrders, .ports] : List Field), f ∈ fs) :
    s.changesOnly fs (t.applyResult now n w r) := by
  unfold State.applyResult
  split
  · exact h.applySelection hf
  · split
    · exact h.lapse hf
    · exact h
  · exact h

/-- The parts that an Enter presentation may change once its rights are judged. -/
def admissionFields : List Field := [.spaces, .occupancy, .workOrders, .permits, .doors, .slots, .ports]

theorem State.changesOnly.enterPairing {k : Nat} {d : DoorId} {c : Credential} {n : PermitNo} {v : DecisionValues}
    (h : s.changesOnly fs t) (hf : ∀ f ∈ admissionFields, f ∈ fs) : s.changesOnly fs (t.enterPairing k d c n v) := by
  simp only [admissionFields, List.forall_mem_cons] at hf
  unfold State.enterPairing
  split
  · exact h.denyPresentation (by simp [hf])
  · exact ((h.setSlot hf.2.2.2.2.2.1).setDoor hf.2.2.2.2.1).foldl fun u m _ =>
      (changesOnly_refl fs u).raiseDrain hf.1

theorem State.changesOnly.endContractor {e : ContractorEntry} {rights : Resolution (GrantSummary × OverlaySummary)}
    (h : s.changesOnly fs t) (hf : ∀ f ∈ admissionFields, f ∈ fs) : s.changesOnly fs (t.endContractor e rights) := by
  have hf' := hf
  simp only [admissionFields, List.forall_mem_cons] at hf
  unfold State.endContractor
  split
  · exact h
  · exact h.denyPresentation (by simp [hf])
  · unfold State.enterWithRights
    dsimp only
    split
    · split
      · exact h.denyPresentation (by simp [hf])
      · exact h.openEnter (by simp [hf])
    · exact h.enterPairing hf'

theorem State.changesOnly.endEscort {e : EscortEntry} {rights : Resolution (GrantSummary × OverlaySummary)}
    (h : s.changesOnly fs t) (hf : ∀ f ∈ admissionFields, f ∈ fs) : s.changesOnly fs (t.endEscort e rights) := by
  simp only [admissionFields, List.forall_mem_cons] at hf
  unfold State.endEscort
  split
  · exact h
  · exact h.denyPresentation (by simp [hf])
  · dsimp only
    split
    · unfold State.completePairing
      split
      · exact (h.setSlot hf.2.2.2.2.2.1).denyPairing (by simp [hf])
      · exact (h.endPairing (by simp [hf])).openEnter (by simp [hf])
    · exact h.setSlot hf.2.2.2.2.2.1

end Sys2Proof.Machine
end

