-- ==== Sys2Proof/Laws/Meetings.lean ====
section
/-! SUPPORT. What a row does while decisions wait for their requests, and when it is taken there. -/

namespace Sys2Proof.Machine

variable {s t : State} {x : Decision} {n : SpaceNo} {r : Designator} {own : List Party} {y : Progress} {i : Instr}

theorem stateAfter_eq {o : Host.Outcome State Fault Refusal} : stateAfter o = some t ↔ o = .next t := by
  cases o <;> simp [stateAfter]

/-- A row that makes no request does while a decision waits what it does in every other step. -/
theorem exec_of_rowEffect (hr : makesRequests i = false) (h : rowEffect i s = some t) : exec i s = .next t := by
  cases i <;> first
    | exact stateAfter_eq.1 h
    | exact Bool.noConfusion hr
    | exact nomatch h

/-- A row is taken while decisions wait, or nothing is. Taken, it does what it always does, at ports that take it, and
either discards every decision, or leaves each as it is, is no command or event for its work order, and begins none about
the same (R38, R77, R134, R169). -/
theorem Progress.take_cases (own : List Party) (n : SpaceNo) (r : Designator) (y : Progress) (i : Instr) :
    y.take own n r i = y ∨ ∃ t, rowEffect i y.state = some t ∧ y.cleared = false ∧
      (∀ x ∈ own ++ y.state.parties, x.decision.leavesFree y.state i = true) ∧
      ((y.state.clearedBy i = true ∧ y.take own n r i =
          ⟨y.state.waiting.foldl State.discard t, y.purged || y.state.purgedBy n r i, true⟩) ∨
       (y.state.clearedBy i = false ∧
          (∀ x ∈ own ++ y.state.parties, x.decision.keeps x.room y.state t = true ∧
            x.decision.sparedBy y.state i = true ∧
            ∀ z ∈ t.parties.drop y.state.waiting.length, x.decision.apart z.decision = true) ∧
          y.take own n r i = ⟨t, y.purged || y.state.purgedBy n r i, false⟩)) := by
  unfold Progress.take
  dsimp only
  by_cases hc : (!y.cleared && (own ++ y.state.parties).all fun x => x.decision.leavesFree y.state i) = true
  · rw [if_pos hc]
    rw [Bool.and_eq_true, Bool.not_eq_true', List.all_eq_true] at hc
    cases hr : rowEffect i y.state with
    | none => exact .inl rfl
    | some t =>
      dsimp only
      cases hd : y.state.clearedBy i with
      | true => exact .inr ⟨t, rfl, hc.1, hc.2, .inl ⟨rfl, rfl⟩⟩
      | false =>
        rw [if_neg (by simp)]
        by_cases hk : ((own ++ y.state.parties).all fun x => x.decision.keeps x.room y.state t &&
            x.decision.sparedBy y.state i &&
            (t.parties.drop y.state.waiting.length).all fun z => x.decision.apart z.decision) = true
        · rw [if_pos hk]
          simp only [List.all_eq_true, Bool.and_eq_true, and_assoc] at hk
          exact .inr ⟨t, rfl, hc.1, hc.2, .inr ⟨rfl, hk, rfl⟩⟩
        · rw [if_neg hk]
          exact .inl rfl
  · rw [if_neg hc]
    exact .inl rfl

/-- With no row to be taken nothing is. -/
@[simp] theorem State.beginRequest_none (s : State) (own : List Party) (n : SpaceNo) (r : Designator) :
    s.beginRequest own n r .none = ⟨s, false, false⟩ := rfl

@[simp] theorem Progress.meet_none (y : Progress) (own : List Party) (n : SpaceNo) (r : Designator) :
    y.meet own n r .none = (fun _ => y.state, y) := by
  simp only [Progress.meet, Meetings.none, List.foldl_nil]
  congr 1
  funext k
  cases k <;> rfl

/-- What it is for a row to leave a decision as it is. -/
theorem Decision.keeps_iff : x.keeps r s t = true ↔
    t.posture = s.posture ∧ t.site r.site = s.site r.site ∧
    (∀ d, x.door = some d → s.sameDoor t d = true) ∧
    (∀ q, x.room = some q → t.numberedRecordOf q = s.numberedRecordOf q) ∧
    (∀ m ∈ x.permits, t.permit m = s.permit m) ∧ ∀ w ∈ x.workOrders, t.workOrder w = s.workOrder w := by
  simp [Decision.keeps, Option.all_eq_true, and_assoc]

/-- What it is for two decisions to be about different things. -/
theorem Decision.apart_iff {z : Decision} : x.apart z = true ↔
    (∀ d, x.door = some d → z.door ≠ some d) ∧ (∀ q, x.room = some q → z.room ≠ some q) ∧
    (∀ m ∈ x.permits, m ∉ z.permits) ∧ ∀ w ∈ x.orders, w ∉ z.orders := by
  have hopt : ∀ {α : Type} [DecidableEq α] (a b : Option α),
      (a.isNone || decide (a ≠ b)) = true ↔ ∀ v, a = some v → b ≠ some v := by
    intro α _ a b
    cases a with
    | none => simp
    | some v => simpa using ne_comm
  simp only [Decision.apart, Bool.and_eq_true, hopt]
  simp [and_assoc]

/-- A row that has a port take a SET CLOCK: Security's, in range (R76). -/
theorem State.clockSetBy_setClock {p : Authority} {a : SetClockArgs} : s.clockSetBy (.setClock p (.fields a)) = true ↔
    p = .sec ∧ a.minute.toNat ≤ 1439 ∧ a.second.toNat ≤ 59 := by
  by_cases hp : p = .sec
  · by_cases hr : 1440 ≤ a.minute.toNat ∨ 60 ≤ a.second.toNat
    · simp only [State.clockSetBy, State.commandTaken, setClockOf, hp, hr, Except.toBool, ne_eq, not_true, ↓reduceIte,
        true_and, Bool.false_eq_true, false_iff]
      omega
    · simp only [State.clockSetBy, State.commandTaken, setClockOf, hp, hr, Except.toBool, ne_eq, not_true, ↓reduceIte,
        true_and, true_iff]
      omega
  · simp [State.clockSetBy, State.commandTaken, setClockOf, hp, Except.toBool]

/-- SECOND_TICK enters a minute at the last second of any but the last one of day 65535 (R75). -/
theorem State.minuteBy_iff : s.minuteBy i = true ↔
    i = .secondTick ∧ ∃ c, s.clock = some c ∧ 59 ≤ c.second ∧ (c.minute < 1439 ∨ c.day < 65535) := by
  cases i <;> simp only [State.minuteBy, reduceCtorEq, false_and, true_and, Bool.false_eq_true]
  cases hc : s.clock with
  | none => simp [advance]
  | some c =>
    simp only [advance, Option.some.injEq, exists_eq_left']
    split_ifs <;> simp <;> omega

/-- The work orders that a row is for: the one it names, and those of the permits that it reports. -/
theorem State.mem_ordersOf {w : WorkOrderNo} : w ∈ s.ordersOf i ↔
    s.orderNamedBy i = some w ∨ ∃ m ∈ s.permitsReported i, ∃ p, s.permit m = some p ∧ p.workOrder = w := by
  simp [State.ordersOf, List.mem_filterMap]

/-- What it is for a row to be no command and no event for a work order of a decision, or of a turn still to come in the
same row (R77, R112, section 7.3). -/
theorem Decision.sparedBy_iff : x.sparedBy s i = true ↔
    (s.clockSetBy i = true → ∀ w ∈ x.workOrders, w = 0) ∧
    (x.door = none →
      (s.minuteBy i = true → x.later = [] ∧ ∀ w ∈ x.workOrders, ∀ v, s.workOrder w = some v → v.state ≠ .active) ∧
      ∀ w ∈ x.orders, w ∉ s.ordersOf i) := by
  cases hd : x.door <;> cases hc : s.clockSetBy i <;> cases hm : s.minuteBy i <;>
    simp [Decision.sparedBy, Decision.sparedByMinute, hd, hc, hm, Option.all_eq_true, and_assoc]

end Sys2Proof.Machine
end

