-- ==== Sys2Proof/Laws/Ports.lean ====
section
/-! SUPPORT. The ports: what queuing a notice, choosing the next frame and taking a command do (R169, R174, R176). -/

namespace Sys2Proof.Machine

/-! ### A notice joins a queue -/

theorem dropOldestRoutine_length : ∀ q : List Notice, q.all Notice.isSafety = false →
    (dropOldestRoutine q).length + 1 = q.length
  | [], h => by simp at h
  | n :: q, h => by
    unfold dropOldestRoutine
    split
    · next hs =>
      have := dropOldestRoutine_length q (by simpa [hs] using h)
      simp only [List.length_cons]
      omega
    · rfl

theorem dropOldestRoutine_routine : ∀ q : List Notice, q.all Notice.isSafety = false →
    (dropOldestRoutine q).countP (fun n => !n.isSafety) + 1 = q.countP fun n => !n.isSafety
  | [], h => by simp at h
  | n :: q, h => by
    unfold dropOldestRoutine
    split
    · next hs =>
      have := dropOldestRoutine_routine q (by simpa [hs] using h)
      simpa [List.countP_cons, hs] using this
    · next hs => simp [hs]

/-- A notice that joins a queue changes the queue and the dropped flag alone. -/
@[simp] theorem Port.join_receiver (q : Port) (n : Notice) : (q.join n).receiver = q.receiver := by
  unfold Port.join
  split_ifs <;> rfl
@[simp] theorem Port.join_buffer (q : Port) (n : Notice) : (q.join n).buffer = q.buffer := by
  unfold Port.join
  split_ifs <;> rfl
@[simp] theorem Port.join_reply (q : Port) (n : Notice) : (q.join n).reply = q.reply := by
  unfold Port.join
  split_ifs <;> rfl
@[simp] theorem Port.join_transmitter (q : Port) (n : Notice) : (q.join n).transmitter = q.transmitter := by
  unfold Port.join
  split_ifs <;> rfl
@[simp] theorem Port.join_ready (q : Port) (n : Notice) : (q.join n).ready = q.ready := by
  unfold Port.join
  split_ifs <;> rfl

@[simp] theorem Port.join_levels (q : Port) (n : Notice) : (q.join n).levels = q.levels := by
  unfold Port.join
  split_ifs <;> rfl

/-- The bounds of R174 stand after a notice joins. -/
theorem Port.join_bounds (q : Port) (n : Notice) (h : q.queue.length ≤ 32 ∧ q.routineHeld ≤ 30) :
    (q.join n).queue.length ≤ 32 ∧ (q.join n).routineHeld ≤ 30 := by
  unfold Port.join
  obtain ⟨h1, h2⟩ := h
  by_cases hs : n.isSafety = true
  · simp only [hs, if_true]
    split_ifs with h3 h4
    · refine ⟨by simp; omega, ?_⟩
      simpa [Port.routineHeld, List.countP_append, hs] using h2
    · exact ⟨h1, h2⟩
    · have h4' : q.queue.all Notice.isSafety = false := by simpa using h4
      have hl := dropOldestRoutine_length q.queue h4'
      have hr := dropOldestRoutine_routine q.queue h4'
      simp only [Port.routineHeld, List.length_append, List.length_singleton, List.countP_append, List.countP_cons,
        List.countP_nil, hs, Bool.not_true] at h2 ⊢
      constructor
      · omega
      · simp
        omega
  · simp only [hs, Bool.false_eq_true, if_false]
    split_ifs with h3
    · have hle := List.countP_le_length (p := fun n : Notice => !n.isSafety) (l := q.queue)
      simp only [Port.routineHeld, List.length_append, List.length_singleton, List.countP_append, List.countP_cons,
        List.countP_nil, hs, Bool.not_false, if_true] at h2 ⊢
      exact ⟨by omega, by omega⟩
    · exact ⟨h1, h2⟩

/-! ### The transmitter's choice -/

/-- A transmitter at work chooses nothing. -/
theorem Port.choose_of_busy {q : Port} {b : List Byte} (h : q.transmitter = some b) : q.choose = q := by
  unfold Port.choose
  rw [h]

/-- An idle transmitter begins a waiting reply before any notice (R176). -/
theorem Port.choose_reply {q : Port} {r : Reply} (h : q.transmitter = none) (hr : q.reply = some r) :
    q.choose = { q with reply := none, transmitter := some r.frame } := by
  unfold Port.choose
  rw [h, hr]

/-- An idle transmitter with no reply waiting and its ready line asserted begins the oldest notice, which carries
the dropped mark and clears it (R174, R176). -/
theorem Port.choose_notice {q : Port} {n : Notice} {rest : List Notice} (h : q.transmitter = none)
    (hr : q.reply = none) (hready : q.ready = true) (hq : q.queue = n :: rest) :
    q.choose = { q with queue := rest, dropped := false, transmitter := some (n.frame q.dropped) } := by
  unfold Port.choose
  rw [h, hr, hready, hq]

/-- An idle transmitter with nothing it may send chooses nothing. -/
theorem Port.choose_nothing {q : Port} (hr : q.reply = none) (h : q.ready = false ∨ q.queue = []) : q.choose = q := by
  unfold Port.choose
  split
  · rfl
  · rw [hr]
    obtain h | h := h <;> rw [h]
    cases q.ready <;> rfl

theorem Port.choose_bounds (q : Port) (h : q.queue.length ≤ 32 ∧ q.routineHeld ≤ 30) :
    q.choose.queue.length ≤ 32 ∧ q.choose.routineHeld ≤ 30 := by
  unfold Port.choose
  split
  · exact h
  · split
    · exact h
    · split
      · next n rest _ hq =>
        obtain ⟨h1, h2⟩ := h
        simp only [Port.routineHeld, hq, List.length_cons, List.countP_cons] at h1 h2 ⊢
        exact ⟨by omega, by omega⟩
      · exact h

/-- The choice leaves the receiver, the buffer and the ready line. -/
@[simp] theorem Port.choose_receiver (q : Port) : q.choose.receiver = q.receiver := by
  unfold Port.choose
  repeat' split
  all_goals rfl
@[simp] theorem Port.choose_buffer (q : Port) : q.choose.buffer = q.buffer := by
  unfold Port.choose
  repeat' split
  all_goals rfl
@[simp] theorem Port.choose_levels (q : Port) : q.choose.levels = q.levels := by
  unfold Port.choose
  repeat' split
  all_goals rfl
@[simp] theorem Port.choose_ready (q : Port) : q.choose.ready = q.ready := by
  unfold Port.choose
  repeat' split
  all_goals rfl

/-! ### Sampling the ready line -/

/-- A transmitter at work samples nothing. -/
theorem Port.sample_of_busy {q : Port} {b : List Byte} (h : q.transmitter = some b) : q.sample = q := by
  unfold Port.sample
  rw [h]

/-- With no level left to come the ready line stays as it was. -/
theorem Port.sample_of_nil {q : Port} (h : q.levels = []) : q.sample = q := by
  unfold Port.sample
  rw [h]
  cases q.transmitter <;> rfl

/-- An idle transmitter samples the next level (R176). -/
theorem Port.sample_of_idle {q : Port} {level : Bool} {rest : List Bool} (h : q.transmitter = none)
    (hl : q.levels = level :: rest) : q.sample = { q with ready := level, levels := rest } := by
  unfold Port.sample
  rw [h, hl]

/-- Sampling changes the ready line's level alone, and takes it off the input. -/
@[simp] theorem Port.sample_receiver (q : Port) : q.sample.receiver = q.receiver := by
  unfold Port.sample
  split <;> rfl
@[simp] theorem Port.sample_buffer (q : Port) : q.sample.buffer = q.buffer := by
  unfold Port.sample
  split <;> rfl
@[simp] theorem Port.sample_reply (q : Port) : q.sample.reply = q.reply := by
  unfold Port.sample
  split <;> rfl
@[simp] theorem Port.sample_transmitter (q : Port) : q.sample.transmitter = q.transmitter := by
  unfold Port.sample
  split <;> rfl
@[simp] theorem Port.sample_queue (q : Port) : q.sample.queue = q.queue := by
  unfold Port.sample
  split <;> rfl
@[simp] theorem Port.sample_dropped (q : Port) : q.sample.dropped = q.dropped := by
  unfold Port.sample
  split <;> rfl

/-! ### Queuing a notice -/

/-- Queuing a notice changes the port named alone. -/
theorem State.notify_port (s : State) (a b : Authority) (n : Notice) :
    (s.notify a n).port b = if b = a then ((s.port a).join n).sample.choose else s.port b := by
  rw [State.notify, State.setPort_port]

/-- A port whose transmitter is at work only adds the notice to its queue. -/
theorem State.notify_of_busy {s : State} {a : Authority} {b : List Byte} (h : (s.port a).transmitter = some b)
    (n : Notice) : s.notify a n = s.setPort a ((s.port a).join n) := by
  have hj : ((s.port a).join n).transmitter = some b := by rw [Port.join_transmitter, h]
  rw [State.notify, Port.sample_of_busy hj, Port.choose_of_busy hj]

/-! ### Taking a command (R169) -/

variable {p : Authority} {code : Byte} {payload : List Byte} {s : State}

/-- A command that its port takes is carried out whole. -/
theorem takeCommand_of_takes {body : State → State × Answer} (h : s.takes p code payload) :
    takeCommand p code payload body s = carryOut p code body s := by
  obtain ⟨hb, hr⟩ := h
  simp [takeCommand, hb, hr]

/-- A frame that reaches a port with a reply waiting is held in the buffer, if that is empty or holds this frame. -/
theorem takeCommand_held {body : State → State × Answer} {r : Reply}
    (hb : (s.port p).buffer = none ∨ (s.port p).buffer = some ⟨code, payload⟩) (hr : (s.port p).reply = some r) :
    takeCommand p code payload body s = s.setPort p { s.port p with buffer := some ⟨code, payload⟩ } := by
  simp [takeCommand, hb, hr]

/-- A frame that reaches a port whose buffer holds another frame is lost, and nothing changes. -/
theorem takeCommand_lost {body : State → State × Answer} {f : CommandFrame} (hf : (s.port p).buffer = some f)
    (hne : f ≠ ⟨code, payload⟩) : takeCommand p code payload body s = s := by
  simp [takeCommand, hf, hne]

/-- A taken command whose payload ends where its layout ends is its body's effect. -/
theorem runCommand_fields {α : Type} {a : α} {encode : α → List Byte} {body : α → State → State × Answer}
    (h : s.takes p code (encode a)) :
    runCommand p code (.fields a) encode body s = .next (carryOut p code (body a) s) := by
  have hj : judgePayload (.fields a) body = body a := rfl
  simp [runCommand, takeCommand_of_takes h, hj]

/-- A taken command whose payload does not end where its layout ends is refused BAD_ARGUMENT. -/
theorem runCommand_malformed {α : Type} {bytes : List Byte} {encode : α → List Byte}
    {body : α → State → State × Answer} (h : s.takes p code bytes) :
    runCommand p code (.malformed bytes) encode body s =
      .next (carryOut p code (fun s1 => (s1, .refused .badArgument [])) s) := by
  have hj : judgePayload (.malformed bytes) body = fun s1 => (s1, .refused .badArgument []) := rfl
  simp [runCommand, takeCommand_of_takes h, hj]

/-- While a command is carried out its port's transmitter is at work. -/
theorem State.reserveReply_transmitter (s : State) (p : Authority) :
    ((s.reserveReply p).port p).transmitter ≠ none := by
  simp [State.reserveReply]

/-- Making the reply completes the taking of a command with nothing else changed. -/
theorem State.makeReply_reserveReply (s : State) (a : Answer) :
    (s.reserveReply p).makeReply p (s.port p).transmitter.isNone ⟨code, a⟩ = s.answered p code a := by
  cases ht : (s.port p).transmitter with
  | none => simp [State.reserveReply, State.makeReply, State.answered, Port.answered, ht]
  | some b => simp [State.reserveReply, State.makeReply, State.answered, Port.answered, ht]

/-- A command that does its work without touching its port: the work, and its answer at the port. -/
theorem carryOut_of_frame {body : State → State × Answer} {t : State} {a : Answer}
    (hp : t.port p = s.port p)
    (hb : body (s.reserveReply p) = (t.reserveReply p, a)) : carryOut p code body s = t.answered p code a := by
  unfold carryOut
  simp only [hb, ← hp]
  exact State.makeReply_reserveReply t a

/-- A command that changes nothing but its reply. -/
theorem carryOut_read {body : State → State × Answer} {a : Answer}
    (hb : body (s.reserveReply p) = (s.reserveReply p, a)) : carryOut p code body s = s.answered p code a :=
  carryOut_of_frame rfl hb

/-- A notice queued while a command is carried out is queued behind the command's reply. -/
theorem State.makeReply_notify (h : (s.port p).transmitter ≠ none) (b : Bool) (r : Reply) (a : Authority)
    (n : Notice) : (s.notify a n).makeReply p b r = (s.makeReply p b r).notify a n := by
  obtain ⟨f, hf⟩ := Option.ne_none_iff_exists'.1 h
  by_cases hap : a = p
  · subst hap
    have hm : ((s.makeReply a b r).port a).transmitter = some (if b then r.frame else f) := by
      cases b <;> simp [State.makeReply, hf]
    rw [State.notify_of_busy hf, State.notify_of_busy hm]
    simp only [State.makeReply, State.setPort_port_self, State.setPort_setPort]
    unfold Port.join
    congr 1
    cases b <;> split_ifs <;> rfl
  · have hpa : p ≠ a := Ne.symm hap
    simp only [State.makeReply, State.notify, State.setPort_port, hap, hpa, if_false]
    exact State.setPort_comm _ hap _ _

end Sys2Proof.Machine
end

