-- ==== Sys2Proof/Laws/Waiting.lean ====
section
/-! SUPPORT. The decisions that wait for the resolver (R38): what each may still change, how many requests it may still
make, and that none waits when the row in hand is done. -/

namespace Sys2Proof.Machine

variable {fs : List Field} {s t : State} {e : Errand} {rights : Resolution (GrantSummary × OverlaySummary)}

/-- What nothing outside the list may change is as it was. -/
theorem State.changesOnly.same_waiting (h : s.changesOnly fs t) (hf : Field.waiting ∉ fs) : t.waiting = s.waiting :=
  h .waiting hf

theorem State.changesOnly.same_meetings (h : s.changesOnly fs t) (hf : Field.meetings ∉ fs) :
    t.meetings = s.meetings := h .meetings hf

/-- With nothing waiting before and after, the line has not changed. -/
theorem State.changesOnly.of_waiting (h : s.changesOnly (.waiting :: fs) t) (hw : t.waiting = s.waiting) :
    s.changesOnly fs t := by
  intro f hf
  cases f <;> first
    | exact hw
    | exact h _ (by simpa using hf)

/-! ### Selections that wait -/

/-- An option to be tested comes from those at hand, and fewer are left behind it. -/
theorem nextOption_left {now : Reading} {w : WorkOrder} {index : Nat} {l left : List WorkOption}
    {tested tested' : List (Resolution Candidate)} {k : Nat} {o : WorkOption} {c : ClockTime} {home : Designator}
    (h : nextOption now w index l tested = (tested', some (k, o, left, c, home))) : left.length < l.length := by
  induction l generalizing index tested with
  | nil => simp [nextOption] at h
  | cons a l ih =>
    unfold nextOption at h
    split at h
    · exact Nat.lt_succ_of_lt (ih h)
    · simp only [Prod.mk.injEq, Option.some.injEq] at h
      obtain ⟨-, -, -, rfl, -⟩ := h
      simp

theorem State.changesOnly.endSelection {run : SelectionRun} {now : Reading} {n : WorkOrderNo} {w : WorkOrder}
    {tested : List (Resolution Candidate)} (h : s.changesOnly fs t)
    (hf : ∀ f ∈ ([.workOrders, .ports] : List Field), f ∈ fs) :
    s.changesOnly fs (t.endSelection run now n w tested) := by
  unfold State.endSelection
  dsimp only
  split
  · exact (h.applyResult hf).makeReply (hf _ (by simp))
  · exact h.applyResult hf
  · exact h.applyResult hf
  · exact h.applyResult hf

/-- A selection that goes on either ends, or makes one more request with fewer options left behind it. -/
theorem State.selectFrom_cases (s : State) (run : SelectionRun) (now : Reading) (n : WorkOrderNo) (w : WorkOrder)
    (index : Nat) (left : List WorkOption) (tested : List (Resolution Candidate)) :
    (∃ u, s.selectFrom run now n w index left tested = (u, true) ∧ s.changesOnly [.workOrders, .ports] u) ∨
    ∃ e : SelectionEntry, s.selectFrom run now n w index left tested = (s.wait (.selection e) .grant, false) ∧
      e.run = run ∧ e.left.length < left.length := by
  unfold State.selectFrom
  split
  · rename_i h
    exact .inr ⟨_, rfl, rfl, nextOption_left h⟩
  · exact .inl ⟨_, rfl, (changesOnly_refl _ s).endSelection (by simp)⟩

/-- A work order's turn writes nothing but the work order. -/
theorem State.turnOf_changes {b : Bool} {n : WorkOrderNo} {w : WorkOrder} (h : s.turnOf b n = some (t, w)) :
    s.changesOnly [.workOrders] t := by
  unfold State.turnOf at h
  split at h
  · dsimp only at h
    split at h
    · simp only [Option.some.injEq, Prod.mk.injEq] at h
      exact h.1 ▸ (changesOnly_refl _ s).setWorkOrder (by simp)
    · split at h
      · simp only [Option.some.injEq, Prod.mk.injEq] at h
        exact h.1 ▸ changesOnly_refl _ s
      · simp at h
  · simp at h

/-- The most requests that a decision which begins makes. -/
def Errand.work (e : Errand) : Nat := (Waiting.mk e .grant).work

/-- The turns that are taken up to the first request either make none, or leave one selection waiting, for which there
are requests enough. -/
theorem State.takeTurns_cases (b : Bool) {run : List WorkOrderNo → SelectionRun}
    (hrun : ∀ rest, (run rest).later = rest) (now : Reading) (l : List WorkOrderNo) (s : State) :
    s.changesOnly [.waiting, .workOrders, .ports] (s.takeTurns b run now l) ∧
    ((s.takeTurns b run now l).waiting = s.waiting ∨
      ∃ e : SelectionEntry, (s.takeTurns b run now l).waiting = s.waiting ++ [⟨.selection e, .grant⟩] ∧
        (Errand.selection e).work ≤ 14 * l.length) := by
  induction l generalizing s with
  | nil => exact ⟨changesOnly_refl _ s, .inl rfl⟩
  | cons n rest ih =>
    unfold State.takeTurns
    cases ht : s.turnOf b n with
    | none =>
      obtain ⟨h1, h2⟩ := ih s
      refine ⟨h1, h2.imp_right fun ⟨e, he, hw⟩ => ⟨e, he, hw.trans ?_⟩⟩
      simp
    | some p =>
      obtain ⟨s1, w⟩ := p
      have hs1 := State.turnOf_changes ht
      dsimp only
      unfold State.beginSelection
      rcases s1.selectFrom_cases (run rest) now n w 1 (w.options.take 7) [] with
        ⟨u, hu, hc⟩ | ⟨e, hu, he, hl⟩
      · rw [hu]
        obtain ⟨h1, h2⟩ := ih u
        have hsu : s.changesOnly [.waiting, .workOrders, .ports] u :=
          (hs1.mono (by simp)).trans (hc.mono (by simp))
        have hwu : u.waiting = s.waiting :=
          (hc.same_waiting (by simp)).trans (hs1.same_waiting (by simp))
        refine ⟨hsu.trans h1, ?_⟩
        rw [hwu] at h2
        refine h2.imp_right fun ⟨e, he, hw⟩ => ⟨e, he, hw.trans ?_⟩
        simp
      · rw [hu]
        refine ⟨(hs1.mono (by simp)).waiting_update (by simp), .inr ⟨e, ?_, ?_⟩⟩
        · show s1.waiting ++ _ = _
          rw [hs1.same_waiting (by simp)]
        · simp only [Errand.work, Waiting.work, Errand.more, he, hrun, List.length_cons]
          have h7 : (w.options.take 7).length ≤ 7 := by simp
          omega

/-- How the line grows where a run of selections goes on. -/
theorem State.goOn_cases (s : State) (now : Reading) (run : SelectionRun) :
    s.changesOnly [.waiting, .workOrders, .ports] (s.goOn now run) ∧
    ((s.goOn now run).waiting = s.waiting ∨
      ∃ e : SelectionEntry, (s.goOn now run).waiting = s.waiting ++ [⟨.selection e, .grant⟩] ∧
        (Errand.selection e).work ≤ 14 * run.later.length) := by
  cases run with
  | activate p b => exact ⟨changesOnly_refl _ s, .inl rfl⟩
  | deadline => exact ⟨changesOnly_refl _ s, .inl rfl⟩
  | minute rest => exact s.takeTurns_cases false (fun _ => rfl) now rest
  | clockSet b a rest =>
    obtain ⟨h1, h2⟩ := s.takeTurns_cases true (run := .clockSet b a) (fun _ => rfl) now rest
    unfold State.goOn
    dsimp only
    split
    · rename_i hl
      refine ⟨h1.makeReply (by simp), .inl ?_⟩
      rcases h2 with h2 | ⟨e, he, -⟩
      · exact h2
      · simp [he] at hl
    · exact ⟨h1, h2⟩

/-! ### A waiting decision goes on -/

/-- The parts that a waiting decision may still change beside the line. -/
def Errand.fields : Errand → List Field
  | .contractor _ | .escort _ => admissionFields
  | .selection _ => [.workOrders, .ports]

/-- What a waiting decision does from the judgement of its rights on: it changes its own parts, and makes at most one
more request, with fewer requests to come than before. -/
theorem State.resume_cases (s : State) (rights : Resolution (GrantSummary × OverlaySummary)) (e : Errand) :
    s.changesOnly (.waiting :: e.fields) (s.resume rights e) ∧
    ((s.resume rights e).waiting = s.waiting ∨
      ∃ e', (s.resume rights e).waiting = s.waiting ++ [⟨e', .grant⟩] ∧ e'.fields = e.fields ∧ e'.work ≤ e.more) := by
  cases e with
  | contractor e =>
    have h := (changesOnly_refl admissionFields s).endContractor (e := e) (rights := rights) fun _ h => h
    exact ⟨h.mono fun f hf => List.mem_cons_of_mem _ hf, .inl (h.same_waiting (by simp [admissionFields]))⟩
  | escort e =>
    have h := (changesOnly_refl admissionFields s).endEscort (e := e) (rights := rights) fun _ h => h
    exact ⟨h.mono fun f hf => List.mem_cons_of_mem _ hf, .inl (h.same_waiting (by simp [admissionFields]))⟩
  | selection e =>
    unfold State.resume
    dsimp only
    rcases s.selectFrom_cases e.run e.now e.number e.workOrder (e.index + 1) e.left
        (e.tested ++ [s.optionResult e.index e.option e.home e.time rights]) with ⟨u, hu, hc⟩ | ⟨e', hu, he, hl⟩
    · rw [hu]
      obtain ⟨h1, h2⟩ := u.goOn_cases e.now e.run
      rw [hc.same_waiting (by simp)] at h2
      refine ⟨(hc.mono (by simp [Errand.fields])).trans h1, h2.imp_right fun ⟨e', he, hw⟩ => ⟨_, he, rfl, ?_⟩⟩
      simp only [Errand.more]
      omega
    · rw [hu]
      refine ⟨(changesOnly_refl _ s).waiting_update (by simp), .inr ⟨_, rfl, rfl, ?_⟩⟩
      simp only [Errand.work, Waiting.work, Errand.more, he]
      omega

/-- A waiting decision that is discarded leaves at most its reply (R38, R169). -/
theorem State.discard_changes (s : State) (w : Waiting) : s.changesOnly [.ports] (s.discard w) := by
  unfold State.discard
  repeat' split
  all_goals first
    | exact changesOnly_refl _ s
    | exact (changesOnly_refl _ s).makeReply (by simp)

@[simp] theorem State.discard_waiting (s : State) (w : Waiting) : (s.discard w).waiting = s.waiting :=
  (s.discard_changes w).same_waiting (by simp)

@[simp] theorem State.discard_meetings (s : State) (w : Waiting) : (s.discard w).meetings = s.meetings :=
  (s.discard_changes w).same_meetings (by simp)

/-! ### A request that nothing meets -/

variable {own kept : List Party} {n : SpaceNo} {r : Designator}

/-- Handing over the outcome changes nothing. -/
@[simp] theorem Progress.handOver_state {α : Type} (y : Progress) (o : Except DenyCode α) :
    (y.handOver o).1 = y.state := by
  unfold Progress.handOver
  split <;> rfl

/-- A request is discarded where an ESTATE CLEAR met it, and nowhere else (R38). -/
@[simp] theorem Progress.handOver_discarded {α : Type} (y : Progress) (o : Except DenyCode α) :
    (y.handOver o).2 = .discarded ↔ y.cleared = true := by
  unfold Progress.handOver
  cases y.cleared <;> cases o <;> simp

@[simp] theorem Progress.touch_cleared (y : Progress) (e : CacheEntry) : (y.touch e).cleared = y.cleared := rfl

@[simp] theorem Progress.fill_cleared (y : Progress) (e : CacheEntry) : (y.fill e).cleared = y.cleared := by
  unfold Progress.fill
  split <;> rfl

theorem State.changesOnly.touch {y : Progress} {e : CacheEntry} (h : s.changesOnly fs y.state)
    (hf : Field.cache ∈ fs) : s.changesOnly fs (y.touch e).state := h.cache_update hf

theorem State.changesOnly.fill {y : Progress} {e : CacheEntry} (h : s.changesOnly fs y.state) (hf : Field.cache ∈ fs) :
    s.changesOnly fs (y.fill e).state := by
  unfold Progress.fill
  split
  · exact h
  · exact h.cache_update hf

/-- A request that nothing meets touches the cache alone, and is not discarded. -/
theorem serveGrant_none (own : List Party) (n : SpaceNo) (r : Designator) (s : State) :
    s.changesOnly [.cache] (serveGrant own n r .none s).1 ∧ (serveGrant own n r .none s).2 ≠ .discarded := by
  have h := State.changesOnly_refl [.cache] s
  unfold serveGrant
  simp only [State.beginRequest_none, Progress.meet_none]
  split
  · simpa using h
  · split
    · simpa using State.changesOnly.touch (y := ⟨s, false, false⟩) h (by simp)
    · split
      · simpa using h
      · simpa using State.changesOnly.fill (y := ⟨s, false, false⟩) h (by simp)

theorem serveOverlay_none (own : List Party) (r : Designator) (s : State) :
    s.changesOnly [.cache] (serveOverlay own r .none s).1 ∧ (serveOverlay own r .none s).2 ≠ .discarded := by
  have h := State.changesOnly_refl [.cache] s
  unfold serveOverlay
  simp only [State.beginRequest_none, Progress.meet_none]
  split
  · simpa using h
  · split
    · simpa using State.changesOnly.touch (y := ⟨s, false, false⟩) h (by simp)
    · split
      · simpa using h
      · simpa using State.changesOnly.fill (y := ⟨s, false, false⟩) h (by simp)

/-! ### The line is served to its end -/

/-- A decision that nothing else keeps from its end goes on. -/
@[simp] theorem State.conclude_nil (s : State) (e : Errand) (rights : Resolution (GrantSummary × OverlaySummary)) :
    s.conclude [] e rights = s.resume rights e := rfl

/-- A decision that goes on leaves fewer requests to come. -/
theorem State.work_resume (s : State) (rights : Resolution (GrantSummary × OverlaySummary)) (e : Errand) :
    (s.resume rights e).work ≤ s.work + e.more := by
  obtain ⟨-, h | ⟨e', h, -, hw⟩⟩ := s.resume_cases rights e
  · simp only [State.work, h]
    omega
  · simp only [State.work, h, List.map_append, List.sum_append, List.map_cons, List.map_nil, List.sum_cons, List.sum_nil]
    simp only [Errand.work] at hw
    omega

/-- One round of a line that nothing meets leaves fewer requests to come. -/
theorem State.work_serveFront {own : List Party} (h : s.waiting ≠ []) :
    (s.serveFront own [] .none).1.work < s.work := by
  obtain ⟨⟨e, asks⟩, rest, hs⟩ := List.exists_cons_of_ne_nil h
  have hw : s.work = (Waiting.mk e asks).work + (({ s with waiting := rest } : State)).work := by
    simp [State.work, hs]
  have hsame : ∀ {u : State}, ({ s with waiting := rest } : State).changesOnly [.cache] u →
      u.work = ({ s with waiting := rest } : State).work := fun hu => by
    simp only [State.work, hu.same_waiting (by simp)]
  unfold State.serveFront
  rw [hs, hw]
  simp only [State.conclude_nil]
  cases asks with
  | grant =>
    dsimp only
    have hg := serveGrant_none (e.party :: own) e.space e.party.room { s with waiting := rest }
    rcases hq : serveGrant (e.party :: own) e.space e.party.room .none { s with waiting := rest } with ⟨u, g | c | _⟩
    · rw [hq] at hg
      have := hsame hg.1
      simp only [State.work, State.wait, List.map_append, List.sum_append, List.map_cons, List.map_nil, List.sum_cons,
        List.sum_nil, Waiting.work] at this ⊢
      omega
    · rw [hq] at hg
      have hu := hsame hg.1
      have hr := u.work_resume (.error c) e
      simp only [Waiting.work] at hu ⊢
      omega
    · rw [hq] at hg
      exact absurd rfl hg.2
  | overlay g =>
    dsimp only
    have hg := serveOverlay_none (e.party :: own) e.party.room { s with waiting := rest }
    rcases hq : serveOverlay (e.party :: own) e.party.room .none { s with waiting := rest } with ⟨u, o | c | _⟩
    · rw [hq] at hg
      have hu := hsame hg.1
      have hr := u.work_resume (e.judge u g o) e
      simp only [Waiting.work] at hu ⊢
      omega
    · rw [hq] at hg
      have hu := hsame hg.1
      have hr := u.work_resume (.error c) e
      simp only [Waiting.work] at hu ⊢
      omega
    · rw [hq] at hg
      exact absurd rfl hg.2
  | turn rights =>
    have := ({ s with waiting := rest } : State).work_resume rights e
    simp only [Waiting.work]
    omega

/-- A line that nothing meets is served to its end. -/
theorem State.serveRest_waiting (p : Option Authority) {k : Nat} (h : s.work ≤ k) : (s.serveRest p k).waiting = [] := by
  induction k generalizing s with
  | zero =>
    show s.waiting = []
    cases hw : s.waiting with
    | nil => rfl
    | cons w rest =>
      simp only [State.work, hw, List.map_cons, List.sum_cons, Waiting.work] at h
      split at h <;> omega
  | succ k ih =>
    unfold State.serveRest
    split
    · assumption
    · rename_i hw
      exact ih (by have := State.work_serveFront (own := s.carrier p) hw; omega)

/-- With nothing waiting there is nothing to settle. -/
@[simp] theorem State.settle_of_nil (p : Option Authority) (h : s.waiting = []) : s.settle p = s := if_pos h

/-- When the row in hand is done no request waits (R38). -/
@[simp] theorem State.settle_waiting (p : Option Authority) (s : State) : (s.settle p).waiting = [] := by
  unfold State.settle
  split
  · assumption
  · exact State.serveRest_waiting p (Nat.le_refl _)

end Sys2Proof.Machine
end

