-- ==== Sys2Proof/Laws/Requests.lean ====
section
/-! SUPPORT. What resolution requests may change, with the rows that meet them and the decisions that wait (R26, R38, R46,
R72). Each lemma extends a chain: what has changed so far lies within the parts listed, and so does what is still to
come. And what no request changes for a decision that waits. -/

namespace Sys2Proof.Machine

variable {fs : List Field} {s t : State} {i : Instr} {own kept : List Party} {n : SpaceNo} {r : Designator}
  {y : Progress} {x : Decision}

/-! ### What is still to come -/

/-- The decisions that wait change nothing but these parts. -/
def State.lineWithin (s : State) (fs : List Field) : Prop := ∀ w ∈ s.waiting, ∀ f ∈ w.errand.fields, f ∈ fs

/-- A row changes nothing but these parts while decisions wait, nor does the decision that it begins; and it takes
nothing from what is to meet requests. -/
def rowWithin (fs : List Field) (i : Instr) : Prop :=
  ∀ u v : State, u.lineWithin fs → rowEffect i u = some v →
    u.changesOnly fs v ∧ v.meetings = u.meetings ∧ v.lineWithin fs

/-- The rows that are to meet requests change nothing but these parts. -/
def State.meetsWithin (s : State) (fs : List Field) : Prop := ∀ m ∈ s.meetings, ∀ i ∈ m.rows, rowWithin fs i

/-- From `s` to `t` nothing has changed but these parts, and nothing else will by what waits and what is to meet
requests. -/
structure Within (fs : List Field) (s t : State) : Prop where
  changes : s.changesOnly fs t
  line : t.lineWithin fs
  meets : t.meetsWithin fs

/-- With nothing waiting and nothing to meet, a chain begins. -/
theorem Within.refl (hw : s.waiting = []) (hm : s.meetings = []) : Within fs s s :=
  ⟨State.changesOnly_refl fs s, by simp [State.lineWithin, hw], by simp [State.meetsWithin, hm]⟩

/-- A change that leaves the line and what is to meet requests. -/
theorem Within.of_changes {u : State} {gs : List Field} (h : Within fs s t) (hc : t.changesOnly gs u)
    (hgs : ∀ f ∈ gs, f ∈ fs) (hw : Field.waiting ∉ gs) (hm : Field.meetings ∉ gs) : Within fs s u :=
  ⟨h.changes.trans (hc.mono hgs), by simpa [State.lineWithin, hc.same_waiting hw] using h.line,
    by simpa [State.meetsWithin, hc.same_meetings hm] using h.meets⟩

/-- The line may be cut. -/
theorem Within.sub_waiting {v : List Waiting} (h : Within fs s t) (hf : Field.waiting ∈ fs)
    (hv : ∀ w ∈ v, w ∈ t.waiting) : Within fs s { t with waiting := v } :=
  ⟨h.changes.waiting_update hf, fun w hw => h.line w (hv w hw), h.meets⟩

/-- What is to meet requests may be cut. -/
theorem Within.sub_meetings {v : List Meetings} (h : Within fs s t) (hf : Field.meetings ∈ fs)
    (hv : ∀ m ∈ v, m ∈ t.meetings) : Within fs s { t with meetings := v } :=
  ⟨h.changes.meetings_update hf, h.line, fun m hm => h.meets m (hv m hm)⟩

theorem Within.wait {e : Errand} {asks : WaitingFor} (h : Within fs s t) (hf : Field.waiting ∈ fs)
    (he : ∀ f ∈ e.fields, f ∈ fs) : Within fs s (t.wait e asks) := by
  refine ⟨h.changes.waiting_update hf, fun w hw => ?_, h.meets⟩
  rcases List.mem_append.1 hw with hw | hw
  · exact h.line w hw
  · rw [List.mem_singleton] at hw
    subst hw
    exact he

theorem Within.resume {e : Errand} {rights : Resolution (GrantSummary × OverlaySummary)} (h : Within fs s t)
    (hf : Field.waiting ∈ fs) (he : ∀ f ∈ e.fields, f ∈ fs) : Within fs s (t.resume rights e) := by
  obtain ⟨hc, hw⟩ := t.resume_cases rights e
  have hm : (t.resume rights e).meetings = t.meetings :=
    hc.same_meetings (by cases e <;> simp [Errand.fields, admissionFields])
  refine ⟨h.changes.trans (hc.mono fun f hf' => ?_), ?_, by simpa [State.meetsWithin, hm] using h.meets⟩
  · rcases List.mem_cons.1 hf' with rfl | hf'
    · exact hf
    · exact he f hf'
  · rcases hw with hw | ⟨e', hw, hfe, -⟩
    · simpa [State.lineWithin, hw] using h.line
    · intro w hw'
      rw [hw] at hw'
      rcases List.mem_append.1 hw' with hw' | hw'
      · exact h.line w hw'
      · rw [List.mem_singleton] at hw'
        subst hw'
        exact hfe ▸ he

theorem Within.discard {w : Waiting} (h : Within fs s t) (hf : Field.ports ∈ fs) : Within fs s (t.discard w) :=
  h.of_changes (t.discard_changes w) (by simpa using hf) (by simp) (by simp)

theorem Within.foldl {α : Type} {f : State → α → State} {l : List α} (h : Within fs s t)
    (hf : ∀ (u : State) (a : α), a ∈ l → Within fs s u → Within fs s (f u a)) : Within fs s (l.foldl f t) := by
  induction l generalizing t with
  | nil => exact h
  | cons a l ih => exact ih (hf t a (by simp) h) fun u b hb => hf u b (by simp [hb])

/-! ### One request -/

theorem Within.take (h : Within fs s y.state) (hp : Field.ports ∈ fs) (hi : rowWithin fs i) :
    Within fs s (y.take own n r i).state := by
  rcases y.take_cases own n r i with hy | ⟨t, ht, -, -, ⟨-, hy⟩ | ⟨-, -, hy⟩⟩
  · rw [hy]
    exact h
  all_goals
    obtain ⟨hc, hm, hl⟩ := hi _ _ h.line ht
    have ht' : Within fs s t := ⟨h.changes.trans hc, hl, by simpa [State.meetsWithin, hm] using h.meets⟩
    rw [hy]
  · exact ht'.foldl fun u w _ hu => hu.discard hp
  · exact ht'

theorem Within.takeAll {l : List Instr} (h : Within fs s y.state) (hp : Field.ports ∈ fs)
    (hl : ∀ i ∈ l, rowWithin fs i) : Within fs s (l.foldl (Progress.take own n r) y).state := by
  induction l generalizing y with
  | nil => exact h
  | cons i l ih => exact ih (h.take hp (hl i (by simp))) fun j hj => hl j (by simp [hj])

variable {met : Meetings}

theorem Within.beginRequest (h : Within fs s t) (hp : Field.ports ∈ fs) (hm : ∀ i ∈ met.rows, rowWithin fs i) :
    Within fs s (t.beginRequest own n r met).state :=
  Within.takeAll (y := ⟨t, false, false⟩) h hp fun i hi => hm i (by simp [Meetings.rows, hi])

theorem Within.meet (h : Within fs s y.state) (hp : Field.ports ∈ fs) (hm : ∀ i ∈ met.rows, rowWithin fs i) :
    Within fs s (y.meet own n r met).2.state :=
  (((h.takeAll hp fun i hi => hm i (by simp [Meetings.rows, hi])).takeAll hp
    fun i hi => hm i (by simp [Meetings.rows, hi])).takeAll hp
    fun i hi => hm i (by simp [Meetings.rows, hi])).takeAll hp fun i hi => hm i (by simp [Meetings.rows, hi])

theorem Within.touch {e : CacheEntry} (h : Within fs s y.state) (hf : Field.cache ∈ fs) :
    Within fs s (y.touch e).state := ⟨h.changes.touch hf, h.line, h.meets⟩

theorem Within.fill {e : CacheEntry} (h : Within fs s y.state) (hf : Field.cache ∈ fs) :
    Within fs s (y.fill e).state := by
  unfold Progress.fill
  split
  · exact h
  · exact ⟨h.changes.cache_update hf, h.line, h.meets⟩

/-- The parts that requests change themselves, with the line, what is to meet them, and the ports of the replies that a
clear leaves to be made. -/
def requestFields : List Field := [.cache, .ports, .waiting, .meetings]

/-- A grant request changes nothing but the cache, and what meets it (R26, R38, R46, R72). -/
theorem Within.serveGrant (h : Within fs s t) (hf : ∀ f ∈ requestFields, f ∈ fs)
    (hm : ∀ i ∈ met.rows, rowWithin fs i) : Within fs s (Machine.serveGrant own n r met t).1 := by
  simp only [requestFields, List.forall_mem_cons] at hf
  have hb := h.beginRequest (own := own) (n := n) (r := r) hf.2.1 hm
  have hy := hb.meet (own := own) (n := n) (r := r) hf.2.1 hm
  unfold Machine.serveGrant
  dsimp only
  split
  · simpa using hy
  · split
    · simpa using (hb.touch hf.1).meet hf.2.1 hm
    · split
      · simpa using hy
      · simpa using hy.fill hf.1

/-- An overlay request changes nothing but the cache, and what meets it (R26, R38, R46, R72). -/
theorem Within.serveOverlay (h : Within fs s t) (hf : ∀ f ∈ requestFields, f ∈ fs)
    (hm : ∀ i ∈ met.rows, rowWithin fs i) : Within fs s (Machine.serveOverlay own r met t).1 := by
  simp only [requestFields, List.forall_mem_cons] at hf
  have hb := h.beginRequest (own := own) (n := 0) (r := r) hf.2.1 hm
  have hy := hb.meet (own := own) (n := 0) (r := r) hf.2.1 hm
  unfold Machine.serveOverlay
  dsimp only
  split
  · simpa using hy
  · split
    · simpa using (hb.touch hf.1).meet hf.2.1 hm
    · split
      · simpa using hy
      · simpa using hy.fill hf.1

/-! ### The line -/

theorem Within.conclude {e : Errand} {rights : Resolution (GrantSummary × OverlaySummary)} (h : Within fs s t)
    (hf : Field.waiting ∈ fs) (he : ∀ f ∈ e.fields, f ∈ fs) : Within fs s (t.conclude kept e rights) := by
  unfold State.conclude
  dsimp only
  split
  · exact h.resume hf he
  · exact h.wait hf he

theorem Within.serveFront (h : Within fs s t) (hf : ∀ f ∈ requestFields, f ∈ fs)
    (hm : ∀ i ∈ met.rows, rowWithin fs i) : Within fs s (t.serveFront own kept met).1 := by
  have hf' := hf
  simp only [requestFields, List.forall_mem_cons] at hf'
  unfold State.serveFront
  split
  · exact h
  · rename_i w rest hw
    have he := h.line w (by simp [hw])
    have h0 : Within fs s { t with waiting := rest } := h.sub_waiting hf'.2.2.1 fun v hv => by simp [hw, hv]
    dsimp only
    split
    · have hg := h0.serveGrant (own := w.errand.party :: own) (n := w.errand.space) (r := w.errand.party.room) hf hm
      rcases hq : Machine.serveGrant (w.errand.party :: own) w.errand.space w.errand.party.room met
        { t with waiting := rest } with ⟨u, g | c | _⟩ <;> rw [hq] at hg
      · exact hg.wait hf'.2.2.1 he
      · exact hg.conclude hf'.2.2.1 he
      · exact hg.discard hf'.2.1
    · have hg := h0.serveOverlay (own := w.errand.party :: own) (r := w.errand.party.room) hf hm
      rcases hq : Machine.serveOverlay (w.errand.party :: own) w.errand.party.room met
        { t with waiting := rest } with ⟨u, o | c | _⟩ <;> rw [hq] at hg
      · exact hg.conclude hf'.2.2.1 he
      · exact hg.conclude hf'.2.2.1 he
      · exact hg.discard hf'.2.1
    · exact h0.conclude hf'.2.2.1 he

/-- The rows of what meets the next request are among those to meet. -/
theorem Within.meeting (h : Within fs s t) : ∀ i ∈ t.meeting.rows, rowWithin fs i := by
  unfold State.meeting
  cases hm : t.meetings with
  | nil => simp [Meetings.rows, Meetings.none]
  | cons m rest => exact h.meets m (by simp [hm])

theorem Within.served (h : Within fs s t) (hf : Field.meetings ∈ fs) : Within fs s t.served :=
  h.sub_meetings hf fun _ hm => List.mem_of_mem_tail hm

theorem Within.serveAhead {k : Nat} (h : Within fs s t) (hf : ∀ f ∈ requestFields, f ∈ fs) :
    Within fs s (t.serveAhead own k).1 := by
  have hf' := hf
  simp only [requestFields, List.forall_mem_cons] at hf'
  induction k generalizing t with
  | zero => exact h
  | succ k ih =>
    unfold State.serveAhead
    have h1 : Within fs s
        (if t.frontAsks then t.served.serveFront own own t.meeting else t.serveFront own own .none).1 := by
      split
      · exact (h.served hf'.2.2.2.1).serveFront hf h.meeting
      · exact h.serveFront hf (by simp [Meetings.rows, Meetings.none])
    split <;> rename_i hq <;> rw [hq] at h1
    · exact h1
    · exact ih h1

/-! ### The requests of the row in hand -/

theorem Within.resolveGrant (h : Within fs s t) (hf : ∀ f ∈ requestFields, f ∈ fs) :
    Within fs s (Machine.resolveGrant x n r t).1 := by
  have h1 := h.serveAhead (own := [⟨x, r⟩]) (k := t.waiting.length) hf
  unfold Machine.resolveGrant
  split <;> rename_i hq <;> rw [hq] at h1
  · exact h1
  · exact (h1.served (hf _ (by simp [requestFields]))).serveGrant hf h1.meeting

theorem Within.resolveOverlay (h : Within fs s t) (hf : ∀ f ∈ requestFields, f ∈ fs) :
    Within fs s (Machine.resolveOverlay x r t).1 := by
  have h1 := h.serveAhead (own := [⟨x, r⟩]) (k := t.waiting.length) hf
  unfold Machine.resolveOverlay
  split <;> rename_i hq <;> rw [hq] at h1
  · exact h1
  · exact (h1.served (hf _ (by simp [requestFields]))).serveOverlay hf h1.meeting

/-- The checks of the rights to a room change nothing but by their requests. -/
theorem Within.checkRights {w : WorkOrder} {ow : Option Window} {m : Nat} (h : Within fs s t)
    (hf : ∀ f ∈ requestFields, f ∈ fs) : Within fs s (Machine.checkRights x n r w ow m t).1 := by
  have h1 := h.resolveGrant (x := x) (n := n) (r := r) hf
  have h2 := h1.resolveOverlay (x := x) (r := r) hf
  unfold Machine.checkRights
  rcases hg : Machine.resolveGrant x n r t with ⟨t1, g | c | _⟩ <;> rw [hg] at h1 h2
  · rcases ho : Machine.resolveOverlay x r t1 with ⟨t2, ov | c | _⟩ <;> rw [ho] at h2 <;> simpa [ho] using h2
  all_goals exact h1

/-- The test of an option changes nothing but by its requests (R105). -/
theorem Within.testOption {now : Reading} {w : WorkOrder} {k : Nat} {o : WorkOption} (h : Within fs s t)
    (hf : ∀ f ∈ requestFields, f ∈ fs) : Within fs s (Machine.testOption x now w k o t).1 := by
  unfold Machine.testOption
  split
  · exact h
  · exact h.checkRights hf

theorem Within.testOptions {now : Reading} {w : WorkOrder} {k : Nat} {l : List WorkOption} (h : Within fs s t)
    (hf : ∀ f ∈ requestFields, f ∈ fs) : Within fs s (Machine.testOptions x now w k l t).1 := by
  induction l generalizing t k with
  | nil => exact h
  | cons o l ih =>
    have h1 := h.testOption (x := x) (now := now) (w := w) (k := k) (o := o) hf
    unfold Machine.testOptions
    rcases hc : Machine.testOption x now w k o t with ⟨t1, c | c | _⟩ <;> simp only [hc] at h1 ⊢
    · exact ih h1
    · exact ih h1
    · exact h1

/-- A selection changes nothing but by its requests (R105). -/
theorem Within.runSelection {now : Reading} {w : WorkOrder} (h : Within fs s t)
    (hf : ∀ f ∈ requestFields, f ∈ fs) : Within fs s (Machine.runSelection x now w t).1 := h.testOptions hf

/-! ### The requests that still wait -/

theorem Within.endTurns (h : Within fs s t) (hf : Field.waiting ∈ fs) : Within fs s t.endTurns := by
  unfold State.endTurns
  refine (h.sub_waiting (v := []) hf (by simp)).foldl fun u w hw hu => ?_
  have he := h.line w hw
  split
  · exact hu.resume hf he
  · exact hu.wait hf he
  · exact hu.wait hf he

theorem Within.serveMet {p : Option Authority} {l : List Meetings} (h : Within fs s t)
    (hf : ∀ f ∈ requestFields, f ∈ fs) (hl : ∀ m ∈ l, m ∈ t.meetings) : Within fs s (t.serveMet p l) := by
  have hf' := hf
  simp only [requestFields, List.forall_mem_cons] at hf'
  have key : ∀ (l : List Meetings) (u : State), Within fs s u →
      (∀ m ∈ l, ∀ i ∈ m.rows, rowWithin fs i) → Within fs s (u.serveMet p l) := by
    intro l
    induction l with
    | nil => exact fun u hu _ => hu
    | cons m rest ih =>
      intro u hu hr
      unfold State.serveMet
      split
      · exact hu
      · refine ih _ (Within.serveFront ?_ hf (hr m (by simp))) fun m' hm' => hr m' (by simp [hm'])
        exact ⟨hu.changes.meetings_update hf'.2.2.2.1, hu.line, fun m' hm' => hr m' (by simp_all)⟩
  exact key l t h fun m hm => h.meets m (hl m hm)

theorem Within.serveRest {p : Option Authority} {k : Nat} (h : Within fs s t) (hf : ∀ f ∈ requestFields, f ∈ fs) :
    Within fs s (t.serveRest p k) := by
  induction k generalizing t with
  | zero => exact h
  | succ k ih =>
    unfold State.serveRest
    split
    · exact h
    · exact ih (h.serveFront hf (by simp [Meetings.rows, Meetings.none]))

/-- The requests that still wait change nothing but these parts. -/
theorem Within.settle {p : Option Authority} (h : Within fs s t) (hf : ∀ f ∈ requestFields, f ∈ fs) :
    Within fs s (t.settle p) := by
  unfold State.settle
  split
  · exact h
  · exact ((h.endTurns (hf _ (by simp [requestFields]))).serveMet hf fun _ hm => hm).serveRest hf

/-! ### What no request changes for a decision that waits -/

variable {q : Designator}

/-- Two states agree on what the allowances of a room are made of beside its grant: the posture and its site's record
(R90). -/
def State.sameAllowances (q : Designator) (s t : State) : Prop :=
  t.posture = s.posture ∧ t.site q.site = s.site q.site

theorem State.sameAllowances_of_keeps (h : x.keeps q s t = true) : s.sameAllowances q t :=
  ⟨(Decision.keeps_iff.1 h).1, (Decision.keeps_iff.1 h).2.1⟩

theorem State.sameAllowances.trans {u : State} (h : s.sameAllowances q t) (h' : t.sameAllowances q u) :
    s.sameAllowances q u := ⟨h'.1.trans h.1, h'.2.trans h.2⟩

theorem Progress.take_sameAllowances (ho : ⟨x, q⟩ ∈ own) (h : y.cleared = false → s.sameAllowances q y.state) :
    (y.take own n r i).cleared = false → s.sameAllowances q (y.take own n r i).state := by
  rcases y.take_cases own n r i with hy | ⟨t, -, hc, -, ⟨-, hy⟩ | ⟨-, hk, hy⟩⟩ <;> rw [hy]
  · exact h
  · exact fun h => nomatch h
  · exact fun _ => (h hc).trans (State.sameAllowances_of_keeps (hk _ (List.mem_append_left _ ho)).1)

theorem Progress.takeAll_sameAllowances {l : List Instr} (ho : ⟨x, q⟩ ∈ own)
    (h : y.cleared = false → s.sameAllowances q y.state) :
    (l.foldl (Progress.take own n r) y).cleared = false →
      s.sameAllowances q (l.foldl (Progress.take own n r) y).state := by
  induction l generalizing y with
  | nil => exact h
  | cons i l ih => exact ih (Progress.take_sameAllowances ho h)

theorem Progress.meet_sameAllowances (ho : ⟨x, q⟩ ∈ own) (h : y.cleared = false → s.sameAllowances q y.state) :
    (y.meet own n r met).2.cleared = false → s.sameAllowances q (y.meet own n r met).2.state :=
  Progress.takeAll_sameAllowances ho (Progress.takeAll_sameAllowances ho (Progress.takeAll_sameAllowances ho
    (Progress.takeAll_sameAllowances ho h)))

theorem Progress.fill_sameAllowances {e : CacheEntry} (h : y.cleared = false → s.sameAllowances q y.state) :
    (y.fill e).cleared = false → s.sameAllowances q (y.fill e).state := by
  unfold Progress.fill
  split
  · exact h
  · exact h

theorem Progress.handOver_sameAllowances {α : Type} {outcome : Except DenyCode α}
    (h : y.cleared = false → s.sameAllowances q y.state) :
    (y.handOver outcome).2 ≠ .discarded → s.sameAllowances q (y.handOver outcome).1 := by
  unfold Progress.handOver
  cases hc : y.cleared
  · exact fun _ => h hc
  · simp

theorem serveGrant_sameAllowances (ho : ⟨x, q⟩ ∈ own) :
    (serveGrant own n r met s).2 ≠ .discarded → s.sameAllowances q (serveGrant own n r met s).1 := by
  have hb : (s.beginRequest own n r met).cleared = false → s.sameAllowances q (s.beginRequest own n r met).state :=
    Progress.takeAll_sameAllowances (y := ⟨s, false, false⟩) ho fun _ => ⟨rfl, rfl⟩
  unfold serveGrant
  dsimp only
  split
  · exact Progress.handOver_sameAllowances (Progress.meet_sameAllowances ho hb)
  · split
    · exact Progress.handOver_sameAllowances (Progress.meet_sameAllowances ho hb)
    · split
      · exact Progress.handOver_sameAllowances (Progress.meet_sameAllowances ho hb)
      · exact Progress.handOver_sameAllowances (Progress.fill_sameAllowances (Progress.meet_sameAllowances ho hb))

theorem serveOverlay_sameAllowances (ho : ⟨x, q⟩ ∈ own) :
    (serveOverlay own r met s).2 ≠ .discarded → s.sameAllowances q (serveOverlay own r met s).1 := by
  have hb : (s.beginRequest own 0 r met).cleared = false → s.sameAllowances q (s.beginRequest own 0 r met).state :=
    Progress.takeAll_sameAllowances (y := ⟨s, false, false⟩) ho fun _ => ⟨rfl, rfl⟩
  unfold serveOverlay
  dsimp only
  split
  · exact Progress.handOver_sameAllowances (Progress.meet_sameAllowances ho hb)
  · split
    · exact Progress.handOver_sameAllowances (Progress.meet_sameAllowances ho hb)
    · split
      · exact Progress.handOver_sameAllowances (Progress.meet_sameAllowances ho hb)
      · exact Progress.handOver_sameAllowances (Progress.fill_sameAllowances (Progress.meet_sameAllowances ho hb))

theorem State.conclude_sameAllowances {e : Errand} {rights : Resolution (GrantSummary × OverlaySummary)}
    (ho : ⟨x, q⟩ ∈ own) : s.sameAllowances q (s.conclude own e rights) := by
  unfold State.conclude
  dsimp only
  split
  · rename_i h
    exact State.sameAllowances_of_keeps (List.all_eq_true.1 h _ ho)
  · exact ⟨rfl, rfl⟩

theorem State.serveFront_sameAllowances (ho : ⟨x, q⟩ ∈ own) :
    (s.serveFront own own met).2 = false → s.sameAllowances q (s.serveFront own own met).1 := by
  unfold State.serveFront
  split
  · exact fun _ => ⟨rfl, rfl⟩
  · rename_i w rest hw
    dsimp only
    split
    · have h := serveGrant_sameAllowances (s := { s with waiting := rest }) (n := w.errand.space)
        (r := w.errand.party.room) (met := met) (List.mem_cons_of_mem w.errand.party ho)
      rcases hg : serveGrant (w.errand.party :: own) w.errand.space w.errand.party.room met { s with waiting := rest }
        with ⟨u, g | c | _⟩ <;> rw [hg] at h
      · exact fun _ => h (by simp)
      · exact fun _ => State.sameAllowances.trans (h (by simp)) (State.conclude_sameAllowances ho)
      · exact fun h => nomatch h
    · have h := serveOverlay_sameAllowances (s := { s with waiting := rest })
        (r := w.errand.party.room) (met := met) (List.mem_cons_of_mem w.errand.party ho)
      rcases hg : serveOverlay (w.errand.party :: own) w.errand.party.room met { s with waiting := rest }
        with ⟨u, g | c | _⟩ <;> rw [hg] at h
      · exact fun _ => State.sameAllowances.trans (h (by simp)) (State.conclude_sameAllowances ho)
      · exact fun _ => State.sameAllowances.trans (h (by simp)) (State.conclude_sameAllowances ho)
      · exact fun h => nomatch h
    · exact fun _ => State.conclude_sameAllowances (s := { s with waiting := rest }) ho

theorem State.serveAhead_sameAllowances {k : Nat} (ho : ⟨x, q⟩ ∈ own) :
    (s.serveAhead own k).2 = false → s.sameAllowances q (s.serveAhead own k).1 := by
  induction k generalizing s with
  | zero => exact fun _ => ⟨rfl, rfl⟩
  | succ k ih =>
    unfold State.serveAhead
    have h1 : let f := if s.frontAsks then s.served.serveFront own own s.meeting else s.serveFront own own .none
        f.2 = false → s.sameAllowances q f.1 := by
      dsimp only
      split
      · exact State.serveFront_sameAllowances (s := s.served) ho
      · exact State.serveFront_sameAllowances ho
    split <;> rename_i hq <;> rw [hq] at h1
    · exact fun h => nomatch h
    · exact fun h => State.sameAllowances.trans (h1 rfl) (ih h)

theorem resolveGrant_sameAllowances (x : Decision) (n : SpaceNo) (r : Designator) (s : State) :
    (resolveGrant x n r s).2 ≠ .discarded → s.sameAllowances r (resolveGrant x n r s).1 := by
  have h := State.serveAhead_sameAllowances (s := s) (own := [⟨x, r⟩]) (k := s.waiting.length)
    (List.mem_singleton_self _)
  unfold resolveGrant
  split <;> rename_i hq <;> rw [hq] at h
  · exact fun h => absurd rfl h
  · exact fun h' => (h rfl).trans (serveGrant_sameAllowances (s := State.served _) (List.mem_singleton_self _) h')

theorem resolveOverlay_sameAllowances (x : Decision) (r : Designator) (s : State) :
    (resolveOverlay x r s).2 ≠ .discarded → s.sameAllowances r (resolveOverlay x r s).1 := by
  have h := State.serveAhead_sameAllowances (s := s) (own := [⟨x, r⟩]) (k := s.waiting.length)
    (List.mem_singleton_self _)
  unfold resolveOverlay
  split <;> rename_i hq <;> rw [hq] at h
  · exact fun h => absurd rfl h
  · exact fun h' => (h rfl).trans (serveOverlay_sameAllowances (s := State.served _) (List.mem_singleton_self _) h')

/-- The checks of the rights to a room, not discarded, leave the posture and the room's site as they were: so an option's
cap is made of them as its selection reads them (R78, R106). -/
theorem checkRights_sameAllowances (x : Decision) (n : SpaceNo) (r : Designator) (w : WorkOrder) (ow : Option Window)
    (m : Nat) (s : State) (h : (checkRights x n r w ow m s).2 ≠ .discarded) :
    s.sameAllowances r (checkRights x n r w ow m s).1 := by
  have h1 := resolveGrant_sameAllowances x n r s
  unfold checkRights at h ⊢
  rcases hg : resolveGrant x n r s with ⟨s1, g | c | _⟩ <;> simp only [hg] at h h1 ⊢
  · have h2 := resolveOverlay_sameAllowances x r s1
    rcases ho : resolveOverlay x r s1 with ⟨s2, o | c | _⟩ <;> simp only [ho] at h h2 ⊢
    · exact (h1 (by simp)).trans (h2 (by simp))
    · exact (h1 (by simp)).trans (h2 (by simp))
    · exact absurd rfl h
  · exact h1 (by simp)
  · exact absurd rfl h

end Sys2Proof.Machine
end

