-- ==== Sys2Proof/Laws/Reset.lean ====
section
/-! SUPPORT. What each table and port holds right after power-on, one lemma for each. -/

namespace Sys2Proof.Machine

theorem vector_get_replicate {α : Type} {n : Nat} (x : α) (i : Fin n) : (Vector.replicate n x).get i = x := by
  simp [Vector.get_eq_getElem]

@[simp] theorem reset_waiting : State.reset.waiting = [] := rfl
@[simp] theorem reset_block (b : BlockNo) : State.reset.block b = Block.free := vector_get_replicate ..
@[simp] theorem reset_site (n : SiteNo) : State.reset.site n = ⟨0, 0⟩ := vector_get_replicate ..
@[simp] theorem reset_record (k : RecordNo) : State.reset.record k = none := vector_get_replicate ..
@[simp] theorem reset_permit (n : PermitNo) : State.reset.permit n = none := vector_get_replicate ..
@[simp] theorem reset_door (d : DoorId) : State.reset.door d = Door.initial := vector_get_replicate ..
@[simp] theorem reset_slot (k : SlotNo) : State.reset.slot k = none := vector_get_replicate ..
@[simp] theorem reset_lane (l : LaneNo) : State.reset.lane l = Lane.initial := vector_get_replicate ..
@[simp] theorem reset_port (a : Authority) : State.reset.port a = Port.initial := by cases a <;> rfl

/-- Spaces 0 and 1 are Security's and every other space is out of use. -/
theorem reset_space (n : SpaceNo) :
    State.reset.space n = if n = 1 then .security false else if n = 0 then .security true else .unused := by
  have h0 := vector_get_set (Vector.replicate 64 SpaceRecord.unused) 0 n (.security true)
  have h1 := vector_get_set ((Vector.replicate 64 SpaceRecord.unused).set (0 : Fin 64) (.security true)) 1 n
    (.security false)
  rw [h0, vector_get_replicate] at h1
  exact h1

/-- Work order 0 is the escort roster and every other work order is unused. -/
theorem reset_workOrder (n : WorkOrderNo) :
    State.reset.workOrder n = if n = 0 then some .escortRoster else none := by
  have h0 := vector_get_set (Vector.replicate 64 (none : Option WorkOrder)) 0 n (some .escortRoster)
  rw [vector_get_replicate] at h0
  exact h0

end Sys2Proof.Machine
end

