-- ==== Sys2Proof/Laws/Tables.lean ====
section
/-! SUPPORT. What the searches over a table answer: the lowest record with a property, the records with a property,
and the doors. -/

namespace Sys2Proof.Machine

variable {α : Type} {n : Nat}

/-- The numbered list of a table gives each record under its number. -/
theorem numbered_eq (v : Vector α n) : numbered v = (List.finRange n).map fun i => (i, v.get i) := by
  apply List.ext_getElem
  · simp [numbered]
  · intro i h1 h2
    simp [numbered, Vector.get_eq_getElem]

/-- A record stands in the numbered list under its own number. -/
@[simp] theorem mem_numbered {v : Vector α n} {i : Fin n} {x : α} : (i, x) ∈ numbered v ↔ v.get i = x := by
  simp [numbered_eq]

/-- The numbers that satisfy a test, as a filter of the numbers. -/
theorem numbersWhere_eq (p : α → Bool) (v : Vector α n) :
    numbersWhere p v = (List.finRange n).filter fun i => p (v.get i) := by
  simp [numbersWhere, numbered_eq, List.filter_map, Function.comp_def]

@[simp] theorem mem_numbersWhere {p : α → Bool} {v : Vector α n} {i : Fin n} :
    i ∈ numbersWhere p v ↔ p (v.get i) = true := by
  simp [numbersWhere_eq]

theorem nodup_numbersWhere (p : α → Bool) (v : Vector α n) : (numbersWhere p v).Nodup := by
  rw [numbersWhere_eq]
  exact (List.nodup_finRange n).filter _

/-- The lowest number from `k` up, as a search among the numbers. -/
theorem lowestFrom_eq (k : Nat) (p : α → Bool) (v : Vector α n) :
    lowestFrom k p v = (List.finRange n).find? fun i => decide (k ≤ i.val) && p (v.get i) := by
  simp [lowestFrom, numbered_eq, List.find?_map, Function.comp_def]

/-- The lowest number, as a search among the numbers. -/
theorem lowest_eq (p : α → Bool) (v : Vector α n) :
    lowest p v = (List.finRange n).find? fun i => p (v.get i) := by
  simp [lowest, numbered_eq, List.find?_map, Function.comp_def]

/-- A search among the numbers answers the least number that passes. -/
theorem find_finRange_eq_some {p : Fin n → Bool} {i : Fin n} :
    (List.finRange n).find? p = some i ↔ p i = true ∧ ∀ j < i, p j = false := by
  rw [List.find?_eq_some_iff_getElem]
  constructor
  · rintro ⟨h, k, hk, hki, hlt⟩
    refine ⟨h, fun j hj => ?_⟩
    have hik : k = i.val := by simpa [Fin.ext_iff] using hki
    have := hlt j.val (by omega)
    simpa using this
  · rintro ⟨h, hlt⟩
    refine ⟨h, i.val, by simp, by simp, fun j hj => ?_⟩
    simpa using hlt ⟨j, by omega⟩ (by simpa [Fin.lt_def] using hj)

/-- The lowest number passes the test, and no lower number does. -/
theorem lowest_eq_some {p : α → Bool} {v : Vector α n} {i : Fin n} :
    lowest p v = some i ↔ p (v.get i) = true ∧ ∀ j < i, p (v.get j) = false := by
  rw [lowest_eq, find_finRange_eq_some]

/-- There is no lowest number when no record passes the test. -/
theorem lowest_eq_none {p : α → Bool} {v : Vector α n} :
    lowest p v = none ↔ ∀ i, p (v.get i) = false := by
  simp [lowest_eq]

/-- The lowest number from `k` up passes the test, and no lower one from `k` up does. -/
theorem lowestFrom_eq_some {k : Nat} {p : α → Bool} {v : Vector α n} {i : Fin n} :
    lowestFrom k p v = some i ↔
      k ≤ i.val ∧ p (v.get i) = true ∧ ∀ j < i, k ≤ j.val → p (v.get j) = false := by
  rw [lowestFrom_eq, find_finRange_eq_some]
  simp [and_assoc]

theorem lowestFrom_eq_none {k : Nat} {p : α → Bool} {v : Vector α n} :
    lowestFrom k p v = none ↔ ∀ i : Fin n, k ≤ i.val → p (v.get i) = false := by
  simp [lowestFrom_eq]

/-- How many records satisfy a test. -/
theorem countWhere_eq (p : α → Bool) (v : Vector α n) : countWhere p v = (numbersWhere p v).length := by
  have h : v.toList = (numbered v).map Prod.snd := by
    rw [numbered, List.map_snd_zip]
    simp
  rw [countWhere, h, List.countP_map, numbersWhere, List.length_map, ← List.countP_eq_length_filter]
  rfl

/-! ### Order by number (R175) -/

theorem byNumber_perm {α : Type} (key : α → Nat) (l : List α) : (byNumber key l).Perm l :=
  List.perm_insertionSort _ l

@[simp] theorem mem_byNumber {α : Type} {key : α → Nat} {l : List α} {a : α} : a ∈ byNumber key l ↔ a ∈ l :=
  (byNumber_perm key l).mem_iff

@[simp] theorem nodup_byNumber {α : Type} {key : α → Nat} {l : List α} : (byNumber key l).Nodup ↔ l.Nodup :=
  (byNumber_perm key l).nodup_iff

@[simp] theorem State.mem_byHeldPermit {s : State} {ds : List DoorId} {d : DoorId} :
    d ∈ s.byHeldPermit ds ↔ d ∈ ds := mem_byNumber

@[simp] theorem State.nodup_byHeldPermit {s : State} {ds : List DoorId} : (s.byHeldPermit ds).Nodup ↔ ds.Nodup :=
  nodup_byNumber

@[simp] theorem State.mem_byContractor {s : State} {ks : List SlotNo} {k : SlotNo} :
    k ∈ s.byContractor ks ↔ k ∈ ks := mem_byNumber

@[simp] theorem State.nodup_byContractor {s : State} {ks : List SlotNo} : (s.byContractor ks).Nodup ↔ ks.Nodup :=
  nodup_byNumber

/-! ### Doors -/

@[simp] theorem doorOfIndex_doorIndex (d : DoorId) : doorOfIndex (doorIndex d) = d := by
  obtain ⟨l, a⟩ := d
  simp only [doorOfIndex, doorIndex, DoorId.mk.injEq, Fin.ext_iff]
  omega

@[simp] theorem doorIndex_doorOfIndex (i : Fin 64) : doorIndex (doorOfIndex i) = i := by
  simp only [doorOfIndex, doorIndex, Fin.ext_iff]
  omega

@[simp] theorem mem_allDoors (d : DoorId) : d ∈ allDoors :=
  List.mem_map.2 ⟨doorIndex d, List.mem_finRange _, doorOfIndex_doorIndex d⟩

theorem nodup_allDoors : allDoors.Nodup :=
  (List.nodup_finRange 64).map fun i j h => by
    have := congrArg doorIndex h
    simpa using this

@[simp] theorem mem_laneDoors {l : LaneNo} {d : DoorId} : d ∈ laneDoors l ↔ d.lane = l := by
  obtain ⟨dl, a⟩ := d
  simp only [laneDoors, List.mem_map, List.mem_finRange, true_and, DoorId.mk.injEq]
  exact ⟨fun ⟨_, h, _⟩ => h.symm, fun h => ⟨a, h.symm, rfl⟩⟩

/-! ### Records found by what they hold -/

/-- The permit of a credential is in use and bound to it, and is the lowest that is. -/
theorem State.permitOf_eq_some {s : State} {c : Credential} {n : PermitNo} :
    s.permitOf c = some n ↔ (∃ p, s.permit n = some p ∧ p.credential = c) ∧
      ∀ m < n, ∀ q, s.permit m = some q → q.credential ≠ c := by
  simp only [State.permitOf, lowest_eq_some]
  constructor
  · rintro ⟨h, hlt⟩
    refine ⟨?_, fun m hm q hq => ?_⟩
    · cases hp : s.permits.get n with
      | none => simp [hp] at h
      | some p => exact ⟨p, hp, by simpa [hp] using h⟩
    · have := hlt m hm
      simpa [show s.permits.get m = some q from hq] using this
  · rintro ⟨⟨p, hp, hc⟩, hlt⟩
    refine ⟨by simp [show s.permits.get n = some p from hp, hc], fun m hm => ?_⟩
    cases hq : s.permits.get m with
    | none => rfl
    | some q => simpa using hlt m hm q hq

/-- No permit in use is bound to the credential. -/
theorem State.permitOf_eq_none {s : State} {c : Credential} :
    s.permitOf c = none ↔ ∀ n p, s.permit n = some p → p.credential ≠ c := by
  simp only [State.permitOf, lowest_eq_none]
  refine forall_congr' fun n => ?_
  cases hp : s.permits.get n with
  | none => simp [State.permit, hp]
  | some p => simp [State.permit, hp]

/-- The record of a room is in use and names it, and is the lowest that does. -/
theorem State.recordOf_eq_some {s : State} {r : Designator} {k : RecordNo} :
    s.recordOf r = some k ↔ (∃ o, s.record k = some o ∧ o.room = r) ∧
      ∀ j < k, ∀ o, s.record j = some o → o.room ≠ r := by
  simp only [State.recordOf, lowest_eq_some]
  constructor
  · rintro ⟨h, hlt⟩
    refine ⟨?_, fun m hm q hq => ?_⟩
    · cases hp : s.occupancy.get k with
      | none => simp [hp] at h
      | some p => exact ⟨p, hp, by simpa [hp] using h⟩
    · have := hlt m hm
      simpa [show s.occupancy.get m = some q from hq] using this
  · rintro ⟨⟨p, hp, hc⟩, hlt⟩
    refine ⟨by simp [show s.occupancy.get k = some p from hp, hc], fun m hm => ?_⟩
    cases hq : s.occupancy.get m with
    | none => rfl
    | some q => simpa using hlt m hm q hq

/-- The slot of a door is in use and serves it, and is the lowest that does. -/
theorem State.slotOf_eq_some {s : State} {d : DoorId} {k : SlotNo} :
    s.slotOf d = some k ↔ (∃ x, s.slot k = some x ∧ x.door = d) ∧
      ∀ j < k, ∀ x, s.slot j = some x → x.door ≠ d := by
  simp only [State.slotOf, lowest_eq_some]
  constructor
  · rintro ⟨h, hlt⟩
    refine ⟨?_, fun m hm q hq => ?_⟩
    · cases hp : s.slots.get k with
      | none => simp [hp] at h
      | some p => exact ⟨p, hp, by simpa [hp] using h⟩
    · have := hlt m hm
      simpa [show s.slots.get m = some q from hq] using this
  · rintro ⟨⟨p, hp, hc⟩, hlt⟩
    refine ⟨by simp [show s.slots.get k = some p from hp, hc], fun m hm => ?_⟩
    cases hq : s.slots.get m with
    | none => rfl
    | some q => simpa using hlt m hm q hq

end Sys2Proof.Machine
end

