-- ==== Sys2Proof/Tests/Station.lean ====
section
/-! SUPPORT. One small estate for the tests: room 12.3.17 with door 0:00, a Facilities work order 1 in space 2 with a
technician, permit 0, and an escort, permit 1. Its parameters say where the admission at the door stands. -/

namespace Sys2Proof.Tests

open Sys2Proof.Machine

/-- The room of the test estate. -/
def home : Designator := ⟨12, 3, 17⟩

/-- The door of the test estate, 0:00. -/
def gate : DoorId := ⟨0, 0⟩

/-- The door record of the test estate, with the admission in progress. -/
def gateWith (a : Admission) : Door := ⟨some ⟨home, .outer⟩, .ready, 0, a, [], false⟩

/-- Work order 1 of the test estate. -/
def job (party : Nat) : WorkOrder where
  issuer := .fac
  state := .active
  options := [⟨2, none, 20⟩]
  home := some home
  requiredMinimum := 0
  renewal := 30
  preference := .longer
  refuseOnShortfall := false
  days := some (400, 402)
  endorsedByFacilities := false
  endorsedByLandlord := false
  selected := some 1
  capInForce := 20
  shortfall := false
  deadline := some 86400
  party := party

/-- A grant summary for zone 12.3, remote, with G 6 and ceiling 10. -/
def zoneGrant (category : Nat) : GrantSummary := ⟨⟨12, 3, none⟩, category, .bank, 6, 10, true, false, [], false⟩

/-- An overlay summary for zone 12.3 of no items. -/
def zoneOverlay : OverlaySummary := ⟨⟨12, 3, none⟩, []⟩

/-- The cache of the test estate: what spaces 2, 1 and 0 say of zone 12.3. -/
def estateCache (category : Nat) : List CacheEntry :=
  [⟨2, 0, .grant (zoneGrant category)⟩, ⟨1, 0, .grant (zoneGrant 0)⟩, ⟨0, 0, .overlay zoneOverlay⟩]

/-- The drain counts of the test estate: one admission is counted while a slot is in use. -/
def drainOf (x : Option Slot) : Nat := if x.isSome then 1 else 0

/-- The permits of the test estate. -/
def technician (p : PermitState) : Permit := ⟨20, 1, .technician, false, p⟩
/-- The escort of the test estate. -/
def escort (p : PermitState) : Permit := ⟨3, 0, .escort, false, p⟩

/-- The load a permit of the test estate counts in its work order. -/
def counted (p : PermitState) (weight : Nat) : Nat := if p.counted then weight else 0

/-- The tables of the test estate. -/
def estateTables (a : Admission) (x : Option Slot) (p0 p1 : PermitState) (o : Option OccupancyRecord) : State :=
  (((((((((((State.reset.setBlock 0 ⟨some (.fac, .estate), Vector.replicate 64 0⟩).setSpace 0
    ⟨some ⟨.sec, .estate, none, 1, true⟩, none, 0, drainOf x⟩).setSpace 1
    ⟨some ⟨.sec, .estate, none, 1, false⟩, none, 0, drainOf x⟩).setSpace 2
    ⟨some ⟨.fac, .estate, some 0, 1, false⟩, none, 0, drainOf x⟩).setWorkOrder 0
    (some { WorkOrder.escortRoster with party := counted p1 1 })).setWorkOrder 1
    (some (job (counted p0 2)))).setPermit 0 (some (technician p0))).setPermit 1 (some (escort p1))).setDoor gate
    (gateWith a)).setSlot 0 x).setRecord 0 o).setLane 0 ⟨0, false, .polling, []⟩

/-- The test estate: its tables at day 400, minute 600, count 1000, in Normal. -/
def estate (category : Nat) (a : Admission) (x : Option Slot) (p0 p1 : PermitState) (o : Option OccupancyRecord) :
    State :=
  { estateTables a x p0 p1 o with
    clock := some ⟨400, 600, 0⟩, count := 1000, posture := .normal, cache := estateCache category }

section
variable (category : Nat) (a : Admission) (x : Option Slot) (p0 p1 : PermitState) (o : Option OccupancyRecord)

@[simp] theorem estate_clock : (estate category a x p0 p1 o).clock = some ⟨400, 600, 0⟩ := rfl
@[simp] theorem estate_count : (estate category a x p0 p1 o).count = 1000 := rfl
@[simp] theorem estate_posture : (estate category a x p0 p1 o).posture = .normal := rfl
@[simp] theorem estate_cache : (estate category a x p0 p1 o).cache = estateCache category := rfl
@[simp] theorem estate_timings : (estate category a x p0 p1 o).timings = ⟨20, 10, 60⟩ := rfl
@[simp] theorem estate_pending : (estate category a x p0 p1 o).pending = [] := rfl
@[simp] theorem estate_waiting : (estate category a x p0 p1 o).waiting = [] := rfl
@[simp] theorem estate_meetings : (estate category a x p0 p1 o).meetings = [] := rfl

@[simp] theorem estate_port (q : Authority) : (estate category a x p0 p1 o).port q = Port.initial := by
  show (estateTables a x p0 p1 o).port q = _
  simp [estateTables]

@[simp] theorem estate_site (n : SiteNo) : (estate category a x p0 p1 o).site n = ⟨0, 0⟩ := by
  show (estateTables a x p0 p1 o).site n = _
  simp [estateTables]

@[simp] theorem estate_block (b : BlockNo) : (estate category a x p0 p1 o).block b =
    if b = 0 then ⟨some (.fac, .estate), Vector.replicate 64 0⟩ else Block.free := by
  show (estateTables a x p0 p1 o).block b = _
  simp [estateTables, State.setBlock_block]

@[simp] theorem estate_space (n : SpaceNo) : (estate category a x p0 p1 o).space n =
    if n = 2 then ⟨some ⟨.fac, .estate, some 0, 1, false⟩, none, 0, drainOf x⟩
    else if n = 1 then ⟨some ⟨.sec, .estate, none, 1, false⟩, none, 0, drainOf x⟩
    else if n = 0 then ⟨some ⟨.sec, .estate, none, 1, true⟩, none, 0, drainOf x⟩ else SpaceRecord.unused := by
  show (estateTables a x p0 p1 o).space n = _
  simp only [estateTables, State.setLane_space, State.setRecord_space, State.setSlot_space, State.setDoor_space,
    State.setPermit_space, State.setWorkOrder_space, State.setSpace_space, State.setBlock_space, reset_space]
  split_ifs <;> rfl

@[simp] theorem estate_workOrder (n : WorkOrderNo) : (estate category a x p0 p1 o).workOrder n =
    if n = 1 then some (job (counted p0 2))
    else if n = 0 then some { WorkOrder.escortRoster with party := counted p1 1 } else none := by
  show (estateTables a x p0 p1 o).workOrder n = _
  simp only [estateTables, State.setLane_workOrder, State.setRecord_workOrder, State.setSlot_workOrder,
    State.setDoor_workOrder, State.setPermit_workOrder, State.setWorkOrder_workOrder, State.setSpace_workOrder,
    State.setBlock_workOrder, reset_workOrder]
  split_ifs <;> rfl

@[simp] theorem estate_permit (n : PermitNo) : (estate category a x p0 p1 o).permit n =
    if n = 1 then some (escort p1) else if n = 0 then some (technician p0) else none := by
  show (estateTables a x p0 p1 o).permit n = _
  simp [estateTables, State.setPermit_permit]

@[simp] theorem estate_door (d : DoorId) : (estate category a x p0 p1 o).door d =
    if d = gate then gateWith a else Door.initial := by
  show (estateTables a x p0 p1 o).door d = _
  simp [estateTables, State.setDoor_door]

@[simp] theorem estate_slot (k : SlotNo) : (estate category a x p0 p1 o).slot k = if k = 0 then x else none := by
  show (estateTables a x p0 p1 o).slot k = _
  simp [estateTables, State.setSlot_slot]

@[simp] theorem estate_record (k : RecordNo) : (estate category a x p0 p1 o).record k =
    if k = 0 then o else none := by
  show (estateTables a x p0 p1 o).record k = _
  simp [estateTables, State.setRecord_record]

@[simp] theorem estate_lane (l : LaneNo) : (estate category a x p0 p1 o).lane l =
    if l = 0 then ⟨0, false, .polling, []⟩ else Lane.initial := by
  show (estateTables a x p0 p1 o).lane l = _
  simp [estateTables, State.setLane_lane]

theorem estate_credentialsDistinct : (estate category a x p0 p1 o).credentialsDistinct := by
  intro m n p q hm hn h
  simp only [estate_permit] at hm hn
  split_ifs at hm hn <;> simp_all [technician, escort]
  all_goals (subst hm; subst hn; simp at h)

theorem estate_recordsSound (h : ∀ r, o = some r → r.inside ≠ [] ∨ r.pending ≠ []) :
    (estate category a x p0 p1 o).recordsSound := by
  refine ⟨fun j k r r' hj hk _ => ?_, fun k r hk => ?_⟩
  · simp only [estate_record] at hj hk
    split_ifs at hj hk with h1 h2
    exact h1.trans h2.symm
  · simp only [estate_record] at hk
    split_ifs at hk
    exact h r hk

/-- A slot of the test estate that agrees with its door and permits. -/
structure FitsGate (a : Admission) (x : Slot) : Prop where
  door : x.door = gate
  contractor : x.contractor = 0
  escort : x.escort = none ∨ x.escort = some ⟨1, 3, []⟩
  admission : ∃ v, v.space = 2 ∧ ((x.expects ≠ .consent ∧ a = .pairing 0 v) ∨
    (x.expects = .consent ∧ a = .awaitingConsent 0 v))

theorem estate_slotsCounted_none (n : SpaceNo) : (estate category a none p0 p1 o).slotsCounted n = [] := by
  rw [State.slotsCounted, List.eq_nil_iff_forall_not_mem]
  intro k hk
  rw [mem_numbersWhere] at hk
  have h : (estate category a none p0 p1 o).slot k = none := by simp
  rw [State.slot] at h
  simp [h] at hk

theorem estate_pairingsSound_none (ha : a.contractorSpace = none) :
    (estate category a none p0 p1 o).pairingsSound := by
  refine ⟨fun k x h => by simp at h, fun j k x y h => by simp at h, fun d h => ?_, fun n => ?_⟩
  · simp only [estate_door] at h
    split_ifs at h
    · exact absurd ha h
    · exact absurd rfl h
  · rw [estate_slotsCounted_none]
    simp only [estate_space]
    split_ifs <;> rfl

end

section
variable {category : Nat} {a : Admission} {x : Slot}

theorem FitsGate.space (h : FitsGate a x) : a.contractorSpace = some 2 := by
  obtain ⟨v, hv, ⟨_, rfl⟩ | ⟨_, rfl⟩⟩ := h.admission <;> simp [Admission.contractorSpace, hv]

theorem estate_slotsCounted (h : FitsGate a x) (n : SpaceNo) :
    (estate category a (some x) .idle .idle none).slotsCounted n = if n.val ≤ 2 then [0] else [] := by
  rw [State.slotsCounted, numbersWhere_eq]
  refine (List.filter_congr (q := fun k : SlotNo => decide (k = 0) && decide (n.val ≤ 2)) fun k _ => ?_).trans ?_
  · have hs : (estate category a (some x) .idle .idle none).slots.get k = if k = 0 then some x else none :=
      estate_slot ..
    rw [hs]
    by_cases hk : k = 0
    · subst hk
      have : n.val ≤ 2 ↔ n = 2 ∨ n = 1 ∨ n = 0 := by
        simp only [Fin.ext_iff, Fin.val_zero, Fin.val_one, Fin.val_two]
        omega
      simp [h.door, gateWith, h.space, countedSpaces, this, List.contains_eq_mem]
    · simp [hk]
  · by_cases hn : n.val ≤ 2
    · simp only [hn, decide_true, Bool.and_true, ↓reduceIte]
      decide
    · simp only [hn, decide_false, Bool.and_false, ↓reduceIte]
      rfl

theorem estate_pairingsSound (h : FitsGate a x) :
    (estate category a (some x) .idle .idle none).pairingsSound := by
  obtain ⟨v, hv, ha⟩ := h.admission
  refine ⟨fun k y hk => ?_, fun j k y z hj hk _ => ?_, fun d hd => ?_, fun n => ?_⟩
  · simp only [estate_slot] at hk
    split_ifs at hk
    obtain rfl : x = y := by simpa using hk
    refine ⟨by simp [h.door, gateWith], ⟨v, technician .idle, job 0, ?_, by simp [h.contractor], by simp [technician],
      rfl, by simp [technician, counted, PermitState.counted], ⟨2, none, 20⟩, by simp [job], hv.symm⟩, ?_⟩
    · simpa [h.door, gateWith, h.contractor] using ha
    · intro e he
      rcases h.escort with h1 | h1
      · simp [h1] at he
      · obtain rfl : ⟨1, 3, []⟩ = e := by simpa [h1] using he
        exact ⟨escort .idle, by simp, rfl, rfl, rfl⟩
  · simp only [estate_slot] at hj hk
    split_ifs at hj hk with h1 h2
    exact h1.trans h2.symm
  · refine ⟨0, x, by simp, ?_⟩
    simp only [estate_door] at hd
    split_ifs at hd with h1
    · exact h.door.trans h1.symm
    · exact absurd rfl hd
  · rw [estate_slotsCounted h]
    simp only [estate_space]
    by_cases h2 : n.val ≤ 2
    · have : n = 2 ∨ n = 1 ∨ n = 0 := by
        simp only [Fin.ext_iff, Fin.val_zero, Fin.val_one, Fin.val_two]
        omega
      rcases this with rfl | rfl | rfl <;> rfl
    · have h3 : n ≠ 2 := by rintro rfl; simp at h2
      have h4 : n ≠ 1 := by rintro rfl; simp at h2
      have h5 : n ≠ 0 := by rintro rfl; simp at h2
      simp [h2, h3, h4, h5, SpaceRecord.unused]

end

section
variable {category : Nat} {a : Admission} {x : Option Slot}

theorem estate_numbersWhere_idle {f : Option Permit → Bool} (h0 : f none = false)
    (h1 : ∀ p : Permit, p.state = .idle → f (some p) = false) :
    numbersWhere f (estate category a x .idle .idle none).permits = [] := by
  rw [List.eq_nil_iff_forall_not_mem]
  intro n hn
  rw [mem_numbersWhere] at hn
  have h : (estate category a x .idle .idle none).permits.get n = _ := estate_permit category a x .idle .idle none n
  rw [h] at hn
  split_ifs at hn
  · simp [h1 (escort .idle) rfl] at hn
  · simp [h1 (technician .idle) rfl] at hn
  · simp [h0] at hn

/-- The books of the test estate balance if its pairings, its records and its loads are sound. -/
theorem estate_booksBalance_of {p0 p1 : PermitState} {o : Option OccupancyRecord}
    (hp : (estate category a x p0 p1 o).pairingsSound) (hr : (estate category a x p0 p1 o).recordsSound)
    (hl : (estate category a x p0 p1 o).loadsSound) : (estate category a x p0 p1 o).booksBalance := by
  refine ⟨⟨by simp [SpaceRecord.inUse], by simp [SpaceRecord.inUse], fun n d hd => ?_, fun n w hw => ?_⟩,
    ⟨counted p1 1, by simp⟩, fun n w hw hn => ?_, fun n p hn => ?_, hp, hr, hl⟩
  · simp only [estate_space, SpaceRecord.describes] at hd
    split_ifs at hd <;> simp [SpaceRecord.unused] at hd <;> subst_vars <;> simp
  · simp only [estate_space] at hw
    split_ifs at hw
    simp [SpaceRecord.unused] at hw
  · simp only [estate_workOrder] at hw
    split_ifs at hw
    obtain rfl : job _ = w := by simpa using hw
    refine ⟨by simp [job], fun o ho => ?_⟩
    obtain rfl : o = ⟨2, none, 20⟩ := by simpa [job] using ho
    exact ⟨le_refl 2, by simp [SpaceRecord.owner, job]⟩
  · simp only [estate_permit] at hn
    split_ifs at hn with h1 h2
    · obtain rfl : escort p1 = p := by simpa using hn
      exact ⟨by simp [escort], by simp [escort], { WorkOrder.escortRoster with party := counted p1 1 }, by simp [escort],
        by simp [WorkOrder.isClosing, WorkOrder.escortRoster]⟩
    · obtain rfl : technician p0 = p := by simpa using hn
      exact ⟨by simp [technician], by simp [technician], job (counted p0 2), by simp [technician],
        by simp [WorkOrder.isClosing, job]⟩

/-- While both permits are Idle the books of the test estate balance, if its pairings are sound. -/
theorem estate_booksBalance (hp : (estate category a x .idle .idle none).pairingsSound) :
    (estate category a x .idle .idle none).booksBalance := by
  refine estate_booksBalance_of hp (estate_recordsSound (h := by simp) ..)
    ⟨fun k r hk => by simp at hk, fun n p room hn hr => ?_, fun w r hw => ?_⟩
  · simp only [estate_permit] at hn
    split_ifs at hn <;> simp at hn <;> subst_vars <;> simp [technician, escort, PermitState.room] at hr
  · rw [estate_numbersWhere_idle rfl fun p h => by simp [h, PermitState.counted]]
    simp only [estate_workOrder] at hw
    split_ifs at hw <;> simp at hw <;> subst_vars <;> simp [job, counted, PermitState.counted]

end

/-! ### Soundness under a change that it does not speak of -/

/-- A permit that no slot holds may be written anew. -/
theorem pairingsSound_setPermit {s : State} {n : PermitNo} (q : Option Permit) (h : s.pairingsSound)
    (hn : ∀ k x, s.slot k = some x → x.holds n = false) : (s.setPermit n q).pairingsSound := by
  refine ⟨fun k x hk => ?_, h.2.1, h.2.2.1, h.2.2.2⟩
  obtain ⟨h1, ⟨v, p, w, ha, hp, hr⟩, he⟩ := h.1 k x hk
  have hx := hn k x hk
  have hc : x.contractor ≠ n := by
    rintro rfl
    simp [Slot.holds] at hx
  refine ⟨h1, ⟨v, p, w, ha, by simpa [State.setPermit_permit, hc] using hp, hr⟩, fun e hxe => ?_⟩
  have hen : e.permit ≠ n := by
    rintro rfl
    simp [Slot.holds, hxe] at hx
  simpa [State.setPermit_permit, hen] using he e hxe

/-- A door that waits for nothing may be written anew as one that waits for nothing. -/
theorem booksBalance_setDoor {s : State} {d : DoorId} {x : Door} (h : s.booksBalance)
    (hd : (s.door d).admission.contractorSpace = none) (hx : x.admission.contractorSpace = none) :
    (s.setDoor d x).booksBalance := by
  obtain ⟨h1, h2, h3, h4, ⟨hs, hu, hw, hn⟩, h6, h7⟩ := h
  have hne : ∀ k y, s.slot k = some y → y.door ≠ d := by
    rintro k y hk rfl
    obtain ⟨_, ⟨v, p, w, ha, _⟩, _⟩ := hs k y hk
    obtain ⟨_, ha⟩ | ⟨_, ha⟩ := ha <;> simp [ha, Admission.contractorSpace] at hd
  refine ⟨h1, h2, h3, h4, ⟨fun k y hk => ?_, hu, fun e he => ?_, fun n => ?_⟩, h6, h7⟩
  · have := hs k y hk
    simpa [State.slotSound, State.setDoor_door, hne k y hk] using this
  · rw [State.setDoor_door] at he
    split_ifs at he
    · exact absurd hx he
    · exact hw e he
  · have hc : (s.setDoor d x).slotsCounted n = s.slotsCounted n := by
      rw [State.slotsCounted, State.slotsCounted, numbersWhere_eq, numbersWhere_eq]
      refine List.filter_congr fun k _ => ?_
      have hk : (s.setDoor d x).slots.get k = s.slot k := rfl
      have hk' : s.slots.get k = s.slot k := rfl
      rw [hk, hk']
      cases hy : s.slot k with
      | none => rfl
      | some y => simp [State.setDoor_door, hne k y hy]
    rw [hc]
    exact hn n

/-- A work order may be written anew with the same options. -/
theorem pairingsSound_setWorkOrder {s : State} {n : WorkOrderNo} {w w' : WorkOrder} (h : s.pairingsSound)
    (hw : s.workOrder n = some w) (ho : w'.options = w.options) : (s.setWorkOrder n (some w')).pairingsSound := by
  refine ⟨fun k x hk => ?_, h.2.1, h.2.2.1, h.2.2.2⟩
  obtain ⟨h1, ⟨v, p, r, ha, hp, hrole, hidle, hr, hv⟩, he⟩ := h.1 k x hk
  refine ⟨h1, ?_, he⟩
  by_cases hpn : p.workOrder = n
  · obtain rfl : w = r := by simpa [hpn, hw] using hr
    exact ⟨v, p, w', ha, hp, hrole, hidle, by simp [hpn], ho ▸ hv⟩
  · exact ⟨v, p, r, ha, hp, hrole, hidle, by simpa [State.setWorkOrder_workOrder, hpn] using hr, hv⟩

/-- A work order's cap in force is no matter of soundness. -/
theorem sound_setCap {s : State} {n : WorkOrderNo} {w : WorkOrder} (cap : Nat) (hw : s.workOrder n = some w)
    (h : s.workOrdersSound ∧ s.permitsSound ∧ s.pairingsSound) :
    let t := s.setWorkOrder n (some { w with capInForce := cap });
    t.workOrdersSound ∧ t.permitsSound ∧ t.pairingsSound := by
  refine ⟨fun v r hr hv => ?_, fun m p hp => ?_, pairingsSound_setWorkOrder h.2.2 hw rfl⟩
  · simp only [State.setWorkOrder_workOrder] at hr
    split_ifs at hr with hvn
    · obtain rfl := (by simpa using hr : _ = r)
      exact h.1 v w (hvn ▸ hw) hv
    · exact h.1 v r hr hv
  · obtain ⟨h1, h2, r, hr, hc⟩ := h.2.1 m p hp
    refine ⟨h1, h2, ?_⟩
    by_cases hpn : p.workOrder = n
    · obtain rfl : w = r := by simpa [hpn, hw] using hr
      exact ⟨{ w with capInForce := cap }, by simp [hpn], hc⟩
    · exact ⟨r, by simpa [State.setWorkOrder_workOrder, hpn] using hr, hc⟩

end Sys2Proof.Tests
end

