-- ==== Sys2Proof/Tests/Slice0.lean ====
section
/-! SUPPORT. The model's own tests: the well-formedness smoke, command frames written out from the tables of R168, and
single steps whose expected results are the worked examples of the manual or hand calculation from its rules. -/

-- One theorem after another: each evaluation by the kernel waits for the declarations before it.
set_option Elab.async false

namespace Sys2Proof.Tests

open Sys2Proof.Machine

/-- The state after one command or event; the tests' commands all answer a next state. -/
def after (c : Instr) (s : State) : State :=
  match exec c s with
  | .next t => t
  | .fault _ | .refused _ => s

/-! ### Ill-formed terms are refused (R166, R167, R168) -/

/-- A payload that its layout reads is not a malformed one. -/
theorem test_wellFormed_malformed_readable : WellFormed (.readBlock .sec (.malformed [0, 5])) = false := by decide
/-- A payload past 2046 bytes fits no frame. -/
theorem test_wellFormed_malformed_too_long :
    WellFormed (.readStatus .fac (.malformed (List.replicate 2047 0))) = false := by decide +kernel
/-- More than 255 options have no count byte. -/
theorem test_wellFormed_too_many_options : WellFormed (.createWorkOrder .fac (.fields
    ⟨List.replicate 256 ⟨2, none, 1⟩, ⟨0, 0, 0⟩, 0, 0, 0, 0, 0, 0⟩)) = false := by decide +kernel
/-- Code 31 names a command. -/
theorem test_wellFormed_known_code : WellFormed (.unknownCommand .lld 31 []) = false := by decide
/-- A payload past 2046 bytes fits no frame of an unknown code either. -/
theorem test_wellFormed_unknown_too_long :
    WellFormed (.unknownCommand .lld 32 (List.replicate 2047 0)) = false := by decide +kernel
/-- Lengths 2 and 2048 are good. -/
theorem test_wellFormed_good_length :
    WellFormed (.badLength .sec 2) = false ∧ WellFormed (.badLength .sec 2048) = false := by decide
/-- Credential 0 names no credential. -/
theorem test_wellFormed_credential_zero :
    WellFormed (.presentEnter gate 0) = false ∧ WellFormed (.presentExit gate 0) = false ∧
      WellFormed (.presentCheckin gate 0) = false := by decide
/-- The bounds themselves are well formed. -/
theorem test_wellFormed_bounds : WellFormed (.unknownCommand .sec 0 []) = true ∧
    WellFormed (.badLength .sec 1) = true ∧ WellFormed (.badLength .sec 2049) = true ∧
    WellFormed (.readBlock .sec (.malformed [0])) = true := by decide

/-! ### Command frames written out from R168 -/

/-- The opcode table gives no row any bits. -/
theorem test_decodeTableWord (nbits w : Nat) : decodeTableWord nbits w = none := rfl
theorem test_decode_freeBlocks : decodeCommand .fac 2 [0, 70, 0, 3] = .freeBlocks .fac (.fields ⟨70, 3⟩) := by decide
theorem test_decode_readBlock : decodeCommand .fac 3 [1, 255] = .readBlock .fac (.fields ⟨511⟩) := by decide
theorem test_decode_stageSpace : decodeCommand .sec 5 [1, 0, 0, 0, 255, 255, 16, 1] =
    .stageSpace .sec (.fields ⟨1, ⟨0, 0, 0, 65535, 16, 1⟩⟩) := by decide
theorem test_decode_setClock : decodeCommand .sec 10 [1, 144, 5, 110, 25] =
    .setClock .sec (.fields ⟨400, 1390, 25⟩) := by decide
/-- The two options of the manual's selection case (section 7.9). -/
theorem test_decode_createWorkOrder :
    decodeCommand .fac 15 [2, 5, 1, 5, 40, 2, 88, 8, 7, 0, 12, 12, 3, 17, 6, 30, 0, 0, 1, 144, 1, 146] =
      .createWorkOrder .fac (.fields ⟨[⟨5, some (1320, 600), 8⟩, ⟨7, none, 12⟩], ⟨12, 3, 17⟩, 6, 30, 0, 0, 400, 402⟩) := by
  decide
/-- Credential 7,301,442 is 006F6942 in four bytes. -/
theorem test_decode_issuePermit : decodeCommand .fac 20 [9, 0, 0x6f, 0x69, 0x42, 0] =
    .issuePermit .fac (.fields ⟨9, 7301442, 0⟩) := by decide
theorem test_decode_bindDoor : decodeCommand .sec 23 [1, 4, 1, 12, 3, 17, 0] =
    .bindDoor .sec (.fields ⟨⟨1, 4⟩, some (⟨12, 3, 17⟩, 0)⟩) := by decide
theorem test_decode_bindDoor_unbound : decodeCommand .sec 23 [1, 4, 0] =
    .bindDoor .sec (.fields ⟨⟨1, 4⟩, none⟩) := by decide
theorem test_decode_holdLane : decodeCommand .sec 26 [3] = .holdLane .sec (.fields ⟨3⟩) := by decide
theorem test_decode_readStatus : decodeCommand .lld 30 [] = .readStatus .lld (.fields {}) := by decide
/-- A payload with a byte too many is kept as it is. -/
theorem test_decode_too_long : decodeCommand .sec 26 [3, 0] = .holdLane .sec (.malformed [3, 0]) := by decide
/-- Code 32 names no command. -/
theorem test_decode_unknown : decodeCommand .sec 32 [7] = .unknownCommand .sec 32 [7] := by decide
/-- The check value of the CRC with this polynomial and start value over "123456789" is 29B1 (PRESUMED: the published
value for it, not the manual's). -/
theorem test_frameCheck : frameCheck [49, 50, 51, 52, 53, 54, 55, 56, 57] = 0x29B1 := by decide +kernel

/-- Members stand by number, and members of equal number keep their order (R175). -/
theorem test_byNumber : byNumber (fun x : Nat × Nat => x.1) [(3, 0), (1, 0), (3, 1), (2, 0)] =
    [(1, 0), (2, 0), (3, 0), (3, 1)] := by decide

/-! ### Windows and deadlines (section 5.5) -/

/-- The three windows of the example leave 530, 110 and 530 minutes at minute 1390. -/
theorem test_remaining : (Window.mk 1320 600).remaining 1390 = 530 ∧ (Window.mk 1380 120).remaining 1390 = 110 ∧
    effectiveRemaining [⟨1320, 600⟩, ⟨1380, 120⟩, ⟨1320, 600⟩] 1390 = 110 := by decide
/-- The stay deadline of the example. -/
theorem test_minuteDeadline : minuteDeadline 1000000 ⟨400, 1390, 25⟩ 110 = 1006575 := by decide
/-- A window that starts late in the day goes on past midnight, and ends. -/
theorem test_window_past_midnight : (Window.mk 1320 600).contains 479 = true ∧
    (Window.mk 1320 600).contains 480 = false ∧ (Window.mk 1320 600).contains 1319 = false := by decide
/-- Every case of R75: within a minute, a new minute, a day change, and the end of day 65535. -/
theorem test_advance : advance (some ⟨400, 1390, 58⟩) = .second ⟨400, 1390, 59⟩ ∧
    advance (some ⟨400, 1390, 59⟩) = .minute ⟨400, 1391, 0⟩ ∧ advance (some ⟨400, 1439, 59⟩) = .day ⟨401, 0, 0⟩ ∧
    advance (some ⟨65535, 1439, 59⟩) = .unset := by decide

/-! ### The walk of 12.3.17 (section 3.9) -/

/-- A block of eight zero entries but the one given. -/
def blockWith (p : Authority) (k : Kind) (position : Nat) (entry : Fin 8 → Byte) : Block :=
  ⟨some (p, k), Vector.ofFn fun i =>
    if i.val / 8 = position then entry ⟨i.val % 8, Nat.mod_lt _ (by decide)⟩ else 0⟩

/-- The blocks of the example, moved to the front of the memory: the estate table at 0/2, the zone table at
2/3, of which block 4 holds rooms 16..23, and the site table at 5/1. -/
def exampleTree : State :=
  ((((State.reset.setBlock 0 (blockWith .fac .estate 8 fun _ => 0)).setBlock 1
    (blockWith .fac .estate 4 ![0x84, 5, 40, 2, 88, 0, 5, 1])).setBlock 5
    (blockWith .fac .site 3 ![0x80, 0, 0, 0, 0, 0, 2, 3])).setBlock 4
    (blockWith .fac .zone 1 ![0x84, 5, 100, 0, 120, 0, 6, 10]))

/-- The estate descriptor of the example. -/
def exampleSpace (isPrivate : Bool) : Descriptor := ⟨.fac, .estate, some 0, 2, isPrivate⟩

/-- The tree of the example with its space in the directory, and what a request finds: the cache, and what meets it. -/
def exampleDevice (cache : List CacheEntry) (meetings : List Meetings) : State :=
  { exampleTree.setSpace 2 ⟨some (exampleSpace false), none, 0, 0⟩ with cache := cache, meetings := meetings }

/-- The grant summary of the example, with its two windows in the order of the walk. -/
theorem test_walk : grantWalk (fun _ => exampleTree) (exampleSpace false) ⟨12, 3, 17⟩ =
    .ok ⟨⟨12, 3, some 17⟩, 0, .bank, 6, 10, false, false, [⟨1320, 600⟩, ⟨1380, 120⟩], false⟩ := by decide +kernel
/-- Room 30 is not below 8 × 3, and zone 6's entry is not valid. -/
theorem test_walk_faults : grantWalk (fun _ => exampleTree) (exampleSpace false) ⟨12, 3, 30⟩ = .error .length ∧
    grantWalk (fun _ => exampleTree) (exampleSpace false) ⟨12, 6, 0⟩ = .error .notGranted := by decide +kernel
/-- After FREE BLOCKS of the zone table's last block, TABLE_FREE; after Landlord takes it, FOREIGN_TABLE. -/
theorem test_walk_table_free_then_foreign :
    grantWalk (fun _ => exampleTree.setBlock 4 Block.free) (exampleSpace false) ⟨12, 3, 17⟩ = .error .tableFree ∧
    grantWalk (fun _ => exampleTree.setBlock 4 (blockWith .lld .zone 1 ![0x80, 0, 0, 0, 0, 0, 2, 4])) (exampleSpace false)
      ⟨12, 3, 17⟩ = .error .foreignTable := by decide +kernel

/-! ### Single steps, each on the test estate or on the device right after power-on -/

/-- The test estate with nothing in progress. -/
def quiet (category : Nat) : State := estate category .idle none .idle .idle none

/-- The slot of the manual's sealed switchroom at count 2006 (section 10.9), at the test estate's gate. -/
def sealedSlot (timer : SlotTimer) : Slot := ⟨gate, 0, 2, .contractor, some ⟨1, 3, []⟩, timer⟩

/-- R170: every value is clamped, and the reply carries the old and the stored values. -/
theorem test_setTimings : (after (.setTimings .sec (.fields ⟨0, 255, 14⟩)) .reset).timings = ⟨5, 30, 15⟩ ∧
    ((after (.setTimings .sec (.fields ⟨0, 255, 14⟩)) .reset).port .sec).transmitter =
      some (portFrame 2 29 [0, 0, 20, 10, 60, 5, 30, 15]) := by decide +kernel
/-- Section 1.9, step 5: a block of another authority is refused NOT_OWNER with its number. -/
theorem test_writeBlock_not_owner :
    ((after (.writeBlock .lld (.fields ⟨0, 3, Vector.replicate 64 0⟩)) (quiet 0)).port .lld).transmitter =
      some (portFrame 2 1 [1, 4, 0, 0]) := by decide +kernel
/-- Section 1.9, step 7: a block of a top table is refused IN_USE with its number. -/
theorem test_freeBlocks_in_use :
    ((after (.freeBlocks .fac (.fields ⟨0, 1⟩)) (quiet 0)).port .fac).transmitter =
      some (portFrame 2 2 [1, 5, 0, 0]) := by decide +kernel
/-- R25: the lowest space out of use is taken and its generation advances. -/
theorem test_defineSpace :
    ((after (.defineSpace .fac (.fields ⟨0, 0, 0, 0, 1, 1⟩)) (quiet 0)).space 3).generation = 1 ∧
    ((after (.defineSpace .fac (.fields ⟨0, 0, 0, 0, 1, 1⟩)) (quiet 0)).space 3).owner = some .fac := by
  decide +kernel
/-- R28: with drain count 0 the switch is immediate; with 1 the deadline is 120 seconds on. -/
theorem test_stageSpace :
    ((after (.stageSpace .fac (.fields ⟨2, ⟨0, 0, 0, 0, 1, 1⟩⟩)) (quiet 0)).space 2).generation = 1 ∧
    ((after (.stageSpace .fac (.fields ⟨2, ⟨0, 0, 0, 0, 1, 1⟩⟩))
      (estate 3 (.pairing 0 ⟨2, 6, 10, 3, false, [], none, zoneOverlay, 3⟩) (some (sealedSlot (.running 1010)))
        .idle .idle none)).space 2).waiting.map StagedSwitch.deadline = some 1120 := by decide +kernel
/-- R76: the reply carries the clock before and the count, which stays. -/
theorem test_setClock :
    ((after (.setClock .sec (.fields ⟨401, 10, 0⟩)) (quiet 0)).port .sec).transmitter =
      some (portFrame 2 10 [0, 0, 0, 1, 144, 2, 88, 0, 0, 0, 3, 232]) ∧
    (after (.setClock .sec (.fields ⟨401, 10, 0⟩)) (quiet 0)).count = 1000 := by decide +kernel
/-- R75: a tick raises the count and the second. -/
theorem test_secondTick : (after .secondTick (quiet 0)).count = 1001 ∧
    (after .secondTick (quiet 0)).clock = some ⟨400, 600, 1⟩ := by decide +kernel
/-- R140: level 0 opens the door at once, and the record is taken with the weight of a technician. -/
theorem test_presentEnter_opens :
    (after (.presentEnter gate 20) (quiet 0)).permit 0 = some (technician (.pending home gate false)) ∧
    (after (.presentEnter gate 20) (quiet 0)).record 0 = some ⟨home, 2, [], [0], 6, 10, false⟩ := by decide +kernel
/-- R150: level 3 takes a slot of two rounds for the pairing window of 20 seconds. -/
theorem test_presentEnter_pairs :
    (after (.presentEnter gate 20) (quiet 3)).slot 0 = some ⟨gate, 0, 2, .escort, none, .running 1020⟩ ∧
    ((after (.presentEnter gate 20) (quiet 3)).space 1).drain = 1 := by decide +kernel
/-- R144: an Exit at a bound door is answered Open even for a credential bound to no permit. -/
theorem test_presentExit : ((after (.presentExit gate 99) (quiet 0)).door gate).outgoing =
    [⟨.opened .notRecorded, [99], true⟩] := by decide +kernel
/-- R123: a check-in of a permit that is not Inside is denied. -/
theorem test_presentCheckin : ((after (.presentCheckin gate 20) (quiet 0)).door gate).outgoing =
    [⟨.deny .notInside, [20], false⟩] := by decide +kernel
/-- R121, R124: at the passage the permit is Inside, with its check-in deadline 30 minutes on. -/
theorem test_passage : (after (.passage gate) (estate 0 (.openEnter [⟨0, [], none⟩] (some 1010)) none
      (.pending home gate false) .idle (some ⟨home, 2, [], [0], 6, 10, false⟩))).permit 0 =
    some (technician (.inside ⟨home, false, some 87400, some 2800, false, false⟩)) := by decide +kernel
/-- R143: at the passage deadline the reservation is released and the empty record leaves use. -/
theorem test_passageDeadline : (after (.passageDeadline gate) (estate 0 (.openEnter [⟨0, [], none⟩] (some 1000)) none
      (.pending home gate false) .idle (some ⟨home, 2, [], [0], 6, 10, false⟩))).record 0 = none := by decide +kernel
/-- Section 10.9: a hold at count 1000 of a slot due at 1004 keeps 4 seconds, and a release gives them back. -/
theorem test_holdLane : (after (.holdLane .sec (.fields ⟨0⟩))
      (estate 3 (.pairing 0 ⟨2, 6, 10, 3, false, [], none, zoneOverlay, 3⟩) (some (sealedSlot (.running 1004)))
        .idle .idle none)).slot 0 = some (sealedSlot (.frozen 4)) := by decide +kernel
theorem test_releaseLane : (after (.releaseLane .sec (.fields ⟨0⟩))
      ((estate 3 (.pairing 0 ⟨2, 6, 10, 3, false, [], none, zoneOverlay, 3⟩) (some (sealedSlot (.frozen 4)))
        .idle .idle none).setLane 0 ⟨0, true, .polling, []⟩)).slot 0 = some (sealedSlot (.running 1004)) := by
  decide +kernel
/-- Section 10.9: the contractor's step sets the last deadline 8 seconds on. -/
theorem test_contractorStep : (after (.presentEnter gate 20)
      (estate 3 (.pairing 0 ⟨2, 6, 10, 3, false, [], none, zoneOverlay, 3⟩) (some (sealedSlot (.running 1004)))
        .idle .idle none)).slot 0 =
    some { sealedSlot (.running 1008) with expects := .finalEscort } := by decide +kernel
/-- R162: a Ready door with nothing waiting is sent the poll alone. -/
theorem test_pollTurn : (after (.pollTurn 0) ((quiet 0).setLane 0 ⟨0, false, .between, []⟩)).lane 0 =
    ⟨0, false, .polling, [laneFrame 0 1 []]⟩ := by decide +kernel
/-- R163: the third miss makes a Ready door Failed. -/
theorem test_pollUnanswered : ((after (.pollUnanswered 0) ((quiet 0).setDoor gate
      { gateWith .idle with misses := 2 })).door gate).presence = .failed := by decide +kernel
/-- R104: Landlord's endorsement of a Facilities work order. -/
theorem test_endorse : ((after (.endorse .lld (.fields ⟨1, 1⟩)) (quiet 0)).workOrder 1).map
    WorkOrder.endorsedByLandlord = some true := by decide +kernel
/-- R120: a credential in use is refused, and its permit's number is told to its issuer. -/
theorem test_issuePermit_duplicate :
    ((after (.issuePermit .fac (.fields ⟨1, 20, 0⟩)) (quiet 0)).port .fac).transmitter =
      some (portFrame 2 20 [1, 14, 1, 0]) := by decide +kernel
/-- R114, R116, R129: a work order with no permit Pending or Inside is gone at once, with its permits. -/
theorem test_withdraw : (after (.withdraw .fac (.fields ⟨1⟩)) (quiet 0)).workOrder 1 = none ∧
    (after (.withdraw .fac (.fields ⟨1⟩)) (quiet 0)).permit 0 = none := by decide +kernel
/-- R169: a code that names no command is refused UNKNOWN_COMMAND. -/
theorem test_unknownCommand : ((after (.unknownCommand .lld 77 []) .reset).port .lld).transmitter =
    some (portFrame 2 77 [1, 1]) := by decide +kernel
/-- R167, R169: a command in a good frame is taken at its last byte, and answered; a frame with a wrong check is
not. -/
theorem test_commandFrameReceived :
    ((after (.commandFrameReceived .sec (portFrame 1 29 [0, 255, 14])) .reset).port .sec).transmitter =
      some (portFrame 2 29 [0, 0, 20, 10, 60, 5, 30, 15]) ∧
    ((after (.commandFrameReceived .sec [126, 0, 2, 1, 30, 0, 0]) .reset).port .sec).transmitter = none := by
  decide +kernel
/-- R169: a command held behind a waiting reply is taken when that reply begins, and its own reply waits. -/
theorem test_frameFinished_takes :
    let s := State.reset.setPort .fac
      { Port.initial with transmitter := some [], reply := some ⟨30, .accepted []⟩, buffer := some ⟨77, [5]⟩ };
    (after (.frameFinished .fac true) s).port .fac =
      { Port.initial with
        ready := true, transmitter := some (portFrame 2 30 [0, 0]), reply := some ⟨77, .refused .unknownCommand []⟩ } := by
  decide +kernel
/-- R176: with the ready line withdrawn at the choice, a notice queued at an idle port waits. -/
theorem test_notify_samples :
    ((State.reset.setPort .sec { Port.initial with ready := true, levels := [false] }).notify .sec (.doorFailed gate none)).port
      .sec = { Port.initial with queue := [.doorFailed gate none] } := by decide
/-- The grant request of the example for room 12.3.17, in a decision about nothing that a row could change. -/
def exampleRequest (met : Meetings) : State × Resolution GrantSummary :=
  resolveGrant ⟨none, none, none, [], [], []⟩ 2 ⟨12, 3, 17⟩ (exampleDevice [] [met])
/-- The grant summary of the example. -/
def exampleGrant : GrantSummary := ⟨⟨12, 3, some 17⟩, 0, .bank, 6, 10, false, false, [⟨1320, 600⟩, ⟨1380, 120⟩], false⟩
/-- R46: FREE BLOCKS of the zone table's block, taken before the walk's read of it and after. -/
theorem test_resolveGrant_freed :
    let freed : Instr := .freeBlocks .fac (.fields ⟨4, 1⟩);
    (exampleRequest (Meetings.only freed (some .zone))).2 = .error .tableFree ∧
    (exampleRequest (Meetings.only freed none)).2 = .ok exampleGrant := by decide +kernel
/-- R72: a PURGE of form All taken while the request is in progress: the summary is handed on and not filled. -/
theorem test_resolveGrant_purged :
    let x := exampleRequest (Meetings.only (.purge .sec (.fields ⟨0, 9⟩)) none);
    x.1.cache = [] ∧ x.1.meetings = [] ∧ (x.1.port .sec).transmitter = some (portFrame 2 9 [0, 0, 0, 9, 0]) ∧
    x.2 = .ok exampleGrant := by decide +kernel
/-- R72: a PURGE of form All taken after the grant's fill and before the overlay's lookup: the grant's entry is gone, and
the overlay's summary is filled. -/
theorem test_checkRights_purged_between :
    let x := checkRights ⟨none, none, none, [], [], []⟩ 2 ⟨12, 3, 17⟩ (job 0) none 1400
      (exampleDevice [] [Meetings.none, Meetings.first (.purge .sec (.fields ⟨0, 0⟩))]);
    x.1.cache = [⟨0, 0, .overlay ⟨⟨12, 3, none⟩, []⟩⟩] ∧
    (x.1.port .sec).transmitter = some (portFrame 2 9 [0, 0, 0, 0, 1]) ∧
    x.2 = .ok (exampleGrant, ⟨⟨12, 3, none⟩, []⟩) := by decide +kernel
/-- R26: STAGE SPACE with a top table of one block, taken during a walk, switches the space at once; the walk goes on
with its own descriptor, and its summary is filled with its own generation. -/
theorem test_resolveGrant_switched :
    let x := exampleRequest (Meetings.only (.stageSpace .fac (.fields ⟨2, ⟨0, 0, 0, 0, 1, 0⟩⟩)) (some .estate));
    x.2 = .ok exampleGrant ∧ x.1.cache = [⟨2, 0, .grant exampleGrant⟩] ∧
    x.1.space 2 = ⟨some ⟨.fac, .estate, some 0, 1, false⟩, none, 1, 0⟩ := by decide +kernel
/-- R26, R28: STAGE SPACE taken during the request of an Enter that pairs switches the space at once, for its drain
count rises only with the pairing. -/
theorem test_presentEnter_switched :
    let stage : Instr := .stageSpace .fac (.fields ⟨2, ⟨0, 0, 0, 0, 1, 1⟩⟩);
    let t := after (.presentEnter gate 20) { quiet 2 with meetings := [Meetings.only stage none] };
    t.space 2 = ⟨some ⟨.fac, .estate, some 0, 1, true⟩, none, 1, 1⟩ ∧ (t.slot 0).isSome = true ∧
    (t.door gate).admission.state = .pairing := by decide +kernel
/-- R134: REVOKE of the presented permit is not taken while the Enter waits for its requests; SET TIMINGS is. -/
theorem test_presentEnter_whole :
    let met : Meetings := ⟨[.revoke .fac (.fields ⟨0⟩)], [], [], [], [.setTimings .sec (.fields ⟨5, 5, 15⟩)]⟩;
    let t := after (.presentEnter gate 20) { quiet 0 with meetings := [met] };
    t.permit 0 = some (technician (.pending home gate false)) ∧ t.timings = ⟨5, 5, 15⟩ := by decide +kernel
/-- R38, R173: an ESTATE CLEAR taken while the request of an Enter is in progress discards the admission with it. -/
theorem test_presentEnter_discarded :
    let t := after (.presentEnter gate 20)
      { quiet 0 with meetings := [Meetings.only (.estateClear .sec (.fields {})) none] };
    t.door gate = Door.initial ∧ t.permit 0 = none ∧ t.cache = [] ∧ t.meetings = [] ∧
    (t.port .sec).transmitter = some (portFrame 2 31 [0, 0]) ∧ (t.port .sec).queue = [] := by decide +kernel
/-- A second door, of lane 1, with a technician of its own: permit 2 of work order 2, for a room of zone 12.4. What
spaces 2 and 0 say of the zone stands behind what the cache of the test estate holds. -/
def twin (met : List Meetings) : State :=
  { ((((quiet 0).setDoor ⟨1, 0⟩ { gateWith .idle with binding := some ⟨⟨12, 4, 5⟩, .outer⟩ }).setLane 1
      ⟨0, false, .polling, []⟩).setPermit 2 (some ⟨21, 2, .technician, false, .idle⟩)).setWorkOrder 2
      (some { job 0 with home := some ⟨12, 4, 5⟩ }) with
    cache := estateCache 0 ++ [⟨2, 0, .grant { zoneGrant 0 with covers := ⟨12, 4, none⟩ }⟩,
      ⟨0, 0, .overlay ⟨⟨12, 4, none⟩, []⟩⟩]
    meetings := met }
/-- The Enter at the second door meets the first request of the Enter at the gate. -/
def twinEnter : Meetings := Meetings.only (.presentEnter ⟨1, 0⟩ 21) none
/-- R38: of two admissions at once the grant request of the second is served behind that of the first and before its
overlay request, so that the entries stand in the order overlay, overlay, grant, grant; both doors open. -/
theorem test_resolver_in_order :
    let t := after (.presentEnter gate 20) (twin [twinEnter]);
    t.cache.take 4 = [⟨0, 0, .overlay ⟨⟨12, 4, none⟩, []⟩⟩, ⟨0, 0, .overlay zoneOverlay⟩,
      ⟨2, 0, .grant { zoneGrant 0 with covers := ⟨12, 4, none⟩ }⟩, ⟨2, 0, .grant (zoneGrant 0)⟩] ∧
    t.waiting = [] ∧ (t.permit 0).map Permit.state = some (.pending home gate false) ∧
    (t.permit 2).map Permit.state = some (.pending ⟨12, 4, 5⟩ ⟨1, 0⟩ false) := by decide +kernel
/-- R38: an ESTATE CLEAR taken while the second's request is in progress discards both admissions. -/
theorem test_resolver_cleared :
    let t := after (.presentEnter gate 20) (twin [twinEnter, Meetings.only (.estateClear .sec (.fields {})) none]);
    t.door gate = Door.initial ∧ t.door ⟨1, 0⟩ = Door.initial ∧ t.permit 0 = none ∧ t.permit 2 = none ∧
    t.waiting = [] ∧ t.cache = [] ∧ (t.port .sec).queue = [] := by decide +kernel
/-- R38, R110: an ACTIVATE taken while an Enter waits makes its request behind it, and its one reply when its selection
has ended. -/
theorem test_activate_waits :
    let t := after (.presentEnter gate 20) (twin [Meetings.only (.activate .fac (.fields ⟨2⟩)) none]);
    (t.permit 0).map Permit.state = some (.pending home gate false) ∧ t.waiting = [] ∧
    (t.port .fac).transmitter = some (portFrame 2 17 [0, 0, 1, 6, 5, 160, 0]) ∧
    (t.workOrder 2).map WorkOrder.deadline = some (some 87400) := by decide +kernel
/-- Work order 2 of the second door is Pending. -/
def twinPending (met : List Meetings) : State :=
  (twin met).setWorkOrder 2 (some { job 0 with
    home := some ⟨12, 4, 5⟩, state := .pending, selected := none, capInForce := 0, deadline := none })
/-- R77: a SET CLOCK is not taken while an ACTIVATE of a Pending work order waits: it comes before it or after it. -/
theorem test_activate_before_setClock :
    let t := after (.activate .fac (.fields ⟨2⟩))
      (twinPending [Meetings.only (.setClock .sec (.fields ⟨401, 1430, 0⟩)) none]);
    t.clock = some ⟨400, 600, 0⟩ ∧ (t.port .sec).transmitter = none ∧
    (t.workOrder 2).map WorkOrder.deadline = some (some 87400) := by decide +kernel
/-- R77: an ACTIVATE of a Pending work order, taken while SET CLOCK selects another behind its setting, comes after it:
its selection reads the new clock, second 30, and SET CLOCK does not select the work order again. -/
theorem test_setClock_before_activate :
    let t := after (.setClock .sec (.fields ⟨401, 1430, 30⟩))
      (twinPending [Meetings.only (.activate .fac (.fields ⟨2⟩)) none]);
    (t.workOrder 1).map WorkOrder.deadline = some (some 87370) ∧
    (t.workOrder 2).map WorkOrder.deadline = some (some 87370) ∧
    (t.port .fac).queue = [.optionSelected 1 1 6 1440 0 false, .optionSelected 2 1 6 1440 0 false] := by decide +kernel
/-- R77, section 7.3: a SET CLOCK to day 399 selects work order 1, whose days reach it, behind its setting. An Enter for
work order 2, whose turn in the same SET CLOCK is still to come, is not taken there: it would read day 399 beside a work
order still Active. Work order 2 then lapses at its turn. -/
theorem test_setClock_before_later_enter :
    let s := (twin [twinEnter]).setWorkOrder 1 (some { job 0 with days := some (399, 402) });
    let t := after (.setClock .sec (.fields ⟨399, 600, 0⟩)) s;
    t.meetings = [] ∧ (t.door ⟨1, 0⟩).outgoing = [] ∧
    (t.workOrder 1).map WorkOrder.state = some .active ∧ (t.workOrder 2).map WorkOrder.state = some .lapsed := by
  decide +kernel
/-- R134: an Enter of a permit of the same work order is not taken while the first waits. -/
theorem test_resolver_apart :
    let s := (twin [twinEnter]).setPermit 2 (some ⟨21, 1, .technician, false, .idle⟩);
    ((after (.presentEnter gate 20) s).permit 2).map Permit.state = some .idle := by decide +kernel
/-- R86: an Open to an Enter that still waits at a door already Idle is withdrawn at Lockdown, and a CANCEL waits. -/
theorem test_setPosture_withdraws :
    let s := (quiet 0).setDoor gate { gateWith .idle with outgoing := [⟨.admitted, [20], false⟩] };
    (after (.setPosture .sec (.fields ⟨2⟩)) s).door gate = { gateWith .idle with cancelPending := true } := by
  decide +kernel
/-- R175: the revoked permits that a lane reset releases leave in permit number order, whichever door held them. -/
theorem test_resetLane_order :
    let held := fun ns : List PermitNo => { gateWith (.openEnter (ns.map fun n => ⟨n, [], none⟩) none) with
      outgoing := [⟨.admitted, [], true⟩] };
    let pend := fun (s : State) (n : PermitNo) => s.setPermit n (some ⟨BitVec.ofNat 32 n.val, 0, .escort, true,
      .pending home gate false⟩);
    let s := (([2, 3, 4, 5].foldl pend (quiet 0)).setDoor ⟨0, 1⟩ (held [2, 5])).setDoor ⟨0, 2⟩ (held [3, 4]);
    ((after (.resetLane .sec (.fields ⟨0⟩)) s).port .sec).queue =
      [.permitReleased 2 2 .released, .permitReleased 3 3 .released, .permitReleased 4 4 .released,
        .permitReleased 5 5 .released] := by decide +kernel
/-- R132, R161, R162, R173: an ESTATE CLEAR taken while the frame of a deny is on the lane leaves the door Unknown with
an empty list; at the frame's end the poll follows. -/
theorem test_verdictSent_cleared :
    let deny : Verdict := ⟨.deny .noPermit, [5], false⟩;
    let s := ((quiet 0).setDoor gate { gateWith .idle with outgoing := [deny] }).setLane 0
      ⟨0, false, .sendingVerdict deny, []⟩;
    let t := after (.verdictSent 0) (after (.estateClear .sec (.fields {})) s);
    t.door gate = Door.initial ∧
    t.lane 0 = ⟨0, false, .polling, [laneFrame 0 2 [5, 0, 0, 1, 0, 0, 0, 5], laneFrame 0 1 []]⟩ := by decide +kernel
/-- R86: the Open to an Enter whose frame is on the lane at the change to Lockdown is not sent, and the CANCEL follows. -/
theorem test_setPosture_inFlight :
    let opened : Verdict := ⟨.admitted, [20], true⟩;
    let s := ((quiet 0).setDoor gate { gateWith (.openEnter [⟨0, [], none⟩] none) with outgoing := [opened] }).setLane 0
      ⟨0, false, .sendingVerdict opened, []⟩;
    let t := after (.setPosture .sec (.fields ⟨2⟩)) s;
    t.lane 0 = ⟨0, false, .sendingCancel, []⟩ ∧ t.door gate = { gateWith .idle with cancelPending := true } ∧
    (after (.verdictSent 0) t).lane 0 = t.lane 0 := by decide +kernel
/-- R166: a PRESENT written out byte by byte, and the frames that count as no answer. -/
theorem test_decodeAnswer :
    decodeAnswer 1 (laneFrame 4 8 [0, 0x6f, 0x69, 0x42, 2]) = .presentExit ⟨1, 4⟩ 7301442 ∧
    decodeAnswer 1 (laneFrame 4 9 []) = .passage ⟨1, 4⟩ ∧ decodeAnswer 1 (laneFrame 4 10 []) = .nothing ⟨1, 4⟩ ∧
    decodeAnswer 1 (laneFrame 4 8 [0, 0, 0, 0, 1]) = .pollUnanswered 1 ∧
    decodeAnswer 1 (laneFrame 4 8 [0, 0, 0, 7, 4]) = .pollUnanswered 1 ∧
    decodeAnswer 1 [4, 10, 0, 0, 0] = .pollUnanswered 1 ∧ decodeAnswer 1 [4, 10, 1, 0, 0] = .pollUnanswered 1 := by
  decide +kernel

/-! ### A queue under a burst (section 12.8) -/

/-- A Routine notice. -/
def routine : Notice := .permitReleased 0 0 .exit
/-- A Safety notice. -/
def safety : Notice := .doorFailed gate none
/-- The port of the example before the burst: 28 Routine notices and the transmitter idle, not ready. -/
def burstPort : Port := { Port.initial with queue := List.replicate 28 routine }

/-- The rows of the example: Routine and Safety notices held, dropped flag, attention line. -/
theorem test_queue_burst :
    let q3 := ((burstPort.join routine).join routine).join routine
    let q6 := ((q3.join safety).join safety).join safety
    let q7 := ({ q6 with ready := true } : Port).choose
    (q3.routineHeld, q3.safetyHeld, q3.dropped, q3.attention) = (30, 0, true, false) ∧
    (q6.routineHeld, q6.safetyHeld, q6.dropped, q6.attention) = (29, 3, true, true) ∧
    (q7.routineHeld, q7.safetyHeld, q7.dropped, q7.attention) = (28, 3, false, true) ∧
    q7.transmitter = some (routine.frame true) := by decide +kernel

end Sys2Proof.Tests
end

