-- ==== Sys2Proof/Tests/Witnesses.lean ====
section
/-! SUPPORT. For each statement with hypotheses, concrete states and operands that meet them, clause by clause and at
the ends of the ranges: `witness_<Name>`, and `witness_<Name>_<part>`, for `Obligations.<Name>`. -/

-- One theorem after another: each evaluation by the kernel waits for the declarations before it.
set_option Elab.async false

namespace Sys2Proof.Tests

open Sys2Proof.Machine

/-! ### States that the witnesses share -/

/-- A port as power-on leaves it takes every command. -/
theorem takes_of_port {s : State} {p : Authority} (h : s.port p = Port.initial) (code : Byte) (bytes : List Byte) :
    s.takes p code bytes := by
  rw [State.takes, h]
  exact ⟨.inl rfl, rfl⟩

theorem takes_reset (p : Authority) (code : Byte) (bytes : List Byte) : State.reset.takes p code bytes :=
  takes_of_port (reset_port p) code bytes

theorem takes_estate {category : Nat} {a : Admission} {x : Option Slot} {p0 p1 : PermitState}
    {o : Option OccupancyRecord} (p : Authority) (code : Byte) (bytes : List Byte) :
    (estate category a x p0 p1 o).takes p code bytes := takes_of_port (estate_port ..) code bytes

/-- The decision values of a level 3 admission at the gate. -/
def values (level : Nat) : DecisionValues := ⟨2, 6, 10, level, true, [], none, zoneOverlay, level⟩

/-- The slot of a pairing at the gate that expects its first escort. -/
def firstStep (rounds : Nat) (timer : SlotTimer) : Slot := ⟨gate, 0, rounds, .escort, none, timer⟩

/-- The test estate with a pairing at the gate. -/
def paired (x : Slot) (level : Nat) : State := estate level (.pairing 0 (values level)) (some x) .idle .idle none

/-- The test estate with its contractor waiting for consent at the gate. -/
def waiting (timer : SlotTimer) : State :=
  estate 2 (.awaitingConsent 0 (values 2)) (some ⟨gate, 0, 1, .consent, none, timer⟩) .idle .idle none

theorem fits_first (rounds : Nat) (timer : SlotTimer) (level : Nat) :
    FitsGate (.pairing 0 (values level)) (firstStep rounds timer) :=
  ⟨rfl, rfl, .inl rfl, values level, rfl, .inl ⟨by simp [firstStep], rfl⟩⟩

theorem fits_sealed (timer : SlotTimer) (level : Nat) : FitsGate (.pairing 0 (values level)) (sealedSlot timer) :=
  ⟨rfl, rfl, .inr rfl, values level, rfl, .inl ⟨by simp [sealedSlot], rfl⟩⟩

theorem paired_pairingsSound (rounds : Nat) (timer : SlotTimer) (level : Nat) :
    (paired (firstStep rounds timer) level).pairingsSound := estate_pairingsSound (fits_first rounds timer level)

theorem sealed_pairingsSound (timer : SlotTimer) (level : Nat) :
    (paired (sealedSlot timer) level).pairingsSound := estate_pairingsSound (fits_sealed timer level)

theorem waiting_pairingsSound (timer : SlotTimer) : (waiting timer).pairingsSound :=
  estate_pairingsSound ⟨rfl, rfl, .inl rfl, values 2, rfl, .inr ⟨rfl, rfl⟩⟩

theorem quiet_pairingsSound (category : Nat) : (quiet category).pairingsSound :=
  estate_pairingsSound_none _ _ _ _ _ rfl

/-- The record of the home room with the technician reserved. -/
def reserved : OccupancyRecord := ⟨home, 2, [], [0], 6, 10, false⟩
/-- The record of the home room with the technician in it. -/
def occupied : OccupancyRecord := ⟨home, 2, [0], [], 6, 10, false⟩
/-- A stay in the home room, with both deadlines. -/
def stay : Stay := ⟨home, false, some 1000, some 1000, false, false⟩

/-- The test estate with the technician reserved and the gate open for the Enter. -/
def entering (deadline : Option Nat) : State :=
  estate 0 (.openEnter [⟨0, [], none⟩] deadline) none (.pending home gate false) .idle (some reserved)

/-- The test estate with the technician in the home room. -/
def within (a : Admission) : State := estate 0 a none (.inside stay) .idle (some occupied)

theorem within_recordsSound (a : Admission) : (within a).recordsSound :=
  estate_recordsSound _ _ _ _ _ _ (by simp [occupied])

theorem quiet_job (category : Nat) : (quiet category).workOrder 1 = some (job 0) := by
  simp [quiet, counted, PermitState.counted]
theorem quiet_technician (category : Nat) : (quiet category).permit 0 = some (technician .idle) := by simp [quiet]
theorem within_job (a : Admission) : (within a).workOrder 1 = some (job 2) := by
  simp [within, counted, PermitState.counted]
theorem within_technician (a : Admission) : (within a).permit 0 = some (technician (.inside stay)) := by simp [within]
theorem within_record (a : Admission) : (within a).record 0 = some occupied := by simp [within]

/-- While the technician is reserved the books balance, with the loads counted. -/
theorem entering_booksBalance (deadline : Option Nat) : (entering deadline).booksBalance := by
  have hw : ∀ w, (entering deadline).workOrder w = if w = 1 then some (job 2)
      else if w = 0 then some { WorkOrder.escortRoster with party := 0 } else none := fun w => by
    simp [entering, counted, PermitState.counted]
  have hp : ∀ n, (entering deadline).permit n = if n = 1 then some (escort .idle)
      else if n = 0 then some (technician (.pending home gate false)) else none := fun n => by simp [entering]
  have hr : ∀ k, (entering deadline).record k = if k = 0 then some reserved else none := fun k => by simp [entering]
  refine estate_booksBalance_of (estate_pairingsSound_none _ _ _ _ _ rfl)
    (estate_recordsSound _ _ _ _ _ _ (by simp [reserved])) ⟨fun k o hk => ?_, fun n p room hn hroom => ?_, fun w r hwr => ?_⟩
  · have hk := (hr k).symm.trans hk
    split_ifs at hk
    obtain rfl : reserved = o := by simpa using hk
    refine ⟨by decide, ?_, by simp [reserved], fun n hn => ?_⟩
    · have : (entering deadline).weight 0 = 2 := by simp [State.weight, hp, technician, Role.weight]
      show 2 = (([0] : List PermitNo).map (entering deadline).weight).sum
      simp [this]
    · obtain rfl : n = 0 := by simpa [reserved] using hn
      exact ⟨technician (.pending home gate false), gate, false, hp 0, rfl⟩
  · have hn := (hp n).symm.trans hn
    refine ⟨0, reserved, hr 0, ?_, ?_⟩
    all_goals
      split_ifs at hn with h1 h0
      · obtain rfl : escort .idle = p := by simpa using hn
        simp [escort, PermitState.room] at hroom
      · obtain rfl : technician (.pending home gate false) = p := by simpa using hn
        simp_all [technician, PermitState.room, reserved]
  · have hwr := (hw w).symm.trans hwr
    have hx : ∀ v : WorkOrderNo, v = 0 ∨ v = 1 →
        ((numbersWhere (fun x => match x with
          | some p => p.workOrder = v && p.state.counted
          | none => false) (entering none).permits).map (entering none).weight).sum = if v = 1 then 2 else 0 := by
      rintro v (rfl | rfl) <;> decide +kernel
    have he : ((numbersWhere (fun x => match x with
          | some p => p.workOrder = w && p.state.counted
          | none => false) (entering none).permits).map (entering none).weight).sum = r.party := by
      split_ifs at hwr with h1 h0
      · rw [hx w (.inr h1), if_pos h1]
        obtain rfl : job 2 = r := by simpa using hwr
        rfl
      · rw [hx w (.inl h0), if_neg h1]
        obtain rfl := (by simpa using hwr : _ = r)
        rfl
    exact he.symm

/-- The gate open for the Enter of the technician reserved, in another presence or with a message waiting. -/
theorem entering_setDoor_booksBalance {deadline : Option Nat} {x : Door} (hx : x.admission.contractorSpace = none) :
    ((entering deadline).setDoor gate x).booksBalance :=
  booksBalance_setDoor (entering_booksBalance deadline) (by simp [entering, gateWith, Admission.contractorSpace]) hx

/-- An ESTATE CLEAR that meets one request, after its lookup. -/
def clearing : Meetings := Meetings.only (.estateClear .sec (.fields {})) (some .estate)

/-- A PURGE of form All that meets one request, before its lookup. -/
def purging : Meetings := Meetings.first (.purge .sec (.fields ⟨0, 0⟩))

/-- A decision about nothing that a row could change. -/
def anyDecision : Decision := ⟨none, none, none, [], [], []⟩

/-- Where nothing meets the requests, every part but the list of what is to meet is spared. -/
theorem meetingsSpare_nil {s : State} {fs : List Field} (h : s.meetings = []) (hf : .meetings ∉ fs) :
    s.meetingsSpare fs := by
  intro f hf'
  simp only [State.mayMeet, h, List.flatMap_nil, List.mem_singleton]
  rintro rfl
  exact hf hf'

/-- No decision waits in any state of the witnesses that does not say so: a premise of every statement about requests. -/
theorem witness_waiting (category : Nat) (a : Admission) (x : Option Slot) (p0 p1 : PermitState)
    (o : Option OccupancyRecord) (met : List Meetings) (clock : Option ClockTime) (posture : Posture) (count : Nat)
    (cache : List CacheEntry) :
    State.reset.waiting = [] ∧ (exampleDevice cache met).waiting = [] ∧ (twin met).waiting = [] ∧
    ({ estate category a x p0 p1 o with
        meetings := met, clock := clock, posture := posture, count := count, cache := cache } : State).waiting = [] :=
  ⟨rfl, rfl, rfl, rfl⟩

/-! ### The queue, the ports and the frames -/

theorem witness_StepCarriesOutFrontCommand :
    { State.reset with pending := [.secondTick, .powerOn] }.pending = .secondTick :: [.powerOn] ∧
    State.reset.pending = [] := ⟨rfl, rfl⟩

/-- The commands at the ends of their ranges; each report a door makes; and, for the answers ignored, a frame of no
payload too short for its check bytes, one with a wrong check, and a PRESENT of credential 0 and of intents 0 and 4. -/
theorem witness_CommandFrameRoundTrip :
    (WellFormed (.readBlock .fac (.fields ⟨511⟩)) = true ∧
      encodeCommand (.readBlock .fac (.fields ⟨511⟩)) = some (.fac, 3, [1, 255])) ∧
    (WellFormed (.unknownCommand .lld 0 []) = true ∧ encodeCommand (.unknownCommand .lld 0 []) = some (.lld, 0, [])) ∧
    (WellFormed (.estateClear .sec (.malformed [0])) = true ∧
      encodeCommand (.estateClear .sec (.malformed [0])) = some (.sec, 31, [0])) ∧
    (WellFormed (.presentEnter ⟨3, 15⟩ 4294967295) = true ∧
      encodeAnswer (.presentEnter ⟨3, 15⟩ 4294967295) = some (3, laneFrame 15 8 [255, 255, 255, 255, 1])) ∧
    (WellFormed (.nothing ⟨0, 0⟩) = true ∧ encodeAnswer (.nothing ⟨0, 0⟩) = some (0, laneFrame 0 10 [])) ∧
    ([0] : List Byte).length ≠ (0#8).toNat + 2 ∧ ([] : List Byte).length = (0#8).toNat ∧
    word16 0 0 ≠ frameCheck (4 :: 10 :: 0 :: []) ∧ (0#8).toNat = 0 ∧ 3 < (4#8).toNat := by decide +kernel

/-- A port with the two things that hold a command back: a reply waiting, and a command in the buffer. -/
def heldPort (reply : Option Reply) (buffer : Option CommandFrame) : Port :=
  { Port.initial with transmitter := some [], reply := reply, buffer := buffer }

/-- A free port, one with a reply waiting, and one with a command behind it; kinds 1 and 2; payloads of 0 and of 2046
bytes; and lengths 1, 2, 2048 and 2049. -/
theorem witness_ReceiverTakesGoodFramesOnly :
    (State.reset.waiting = [] ∧ (State.reset.port .sec).receiver = .hunting ∧ (State.reset.port .sec).buffer = none ∧
      (State.reset.port .sec).reply = none) ∧
    (let s := State.reset.setPort .sec (heldPort (some ⟨30, .accepted []⟩) none);
      (s.port .sec).receiver = .hunting ∧ (s.port .sec).buffer = none ∧ (s.port .sec).reply ≠ none) ∧
    (let s := State.reset.setPort .sec (heldPort (some ⟨30, .accepted []⟩) (some ⟨30, []⟩));
      (s.port .sec).receiver = .hunting ∧ (s.port .sec).buffer ≠ none ∧ (s.port .sec).reply ≠ none) ∧
    (List.replicate 2046 (0 : Byte)).length ≤ 2046 ∧ ([] : List Byte).length ≤ 2046 ∧
    (2 : Byte) ≠ 1 ∧ word16 0 0 ≠ frameCheck (num2 2 ++ [1, 30] ++ []) ∧
    (1#16).toNat < 2 ∧ 2048 < (2049#16).toNat ∧ 2 ≤ (2#16).toNat ∧ (2#16).toNat ≤ 2048 ∧ 2 ≤ (2048#16).toNat ∧
    (2048#16).toNat ≤ 2048 := by decide +kernel

/-- A port with a queue of Routine notices and then Safety ones. -/
def queueOf (r n : Nat) : Port := { Port.initial with queue := List.replicate r routine ++ List.replicate n safety }

/-- Each row of the table of R174 at its bound: 29, 30 and 31 entries, and 32 with and without a Routine one; a port
that is sending, and an idle one whose ready line is asserted and withdrawn at the choice; and each case of the
transmitter: idle, with a reply waiting, with a notice, and with neither. -/
theorem witness_QueueAndTransmitterRules :
    ((routine.isSafety = false ∧ (queueOf 29 0).queue.length ≤ 29) ∧
     (routine.isSafety = false ∧ 30 ≤ (queueOf 30 0).queue.length ∧ (queueOf 30 0).queue.length ≤ 32) ∧
     (safety.isSafety = true ∧ (queueOf 30 1).queue.length ≤ 31) ∧
     (safety.isSafety = true ∧ (queueOf 30 2).queue.length = 32 ∧
       (queueOf 30 2).queue = [] ++ routine :: (queueOf 29 2).queue) ∧
     ((queueOf 0 32).queue.length = 32 ∧ ∀ m ∈ (queueOf 0 32).queue, m.isSafety = true)) ∧
    (((heldPort none none).transmitter = some []) ∧
     ∀ level, { Port.initial with levels := [level] }.levels = level :: [] ∧
       { Port.initial with levels := [level] }.transmitter = none ∧
       { Port.initial with levels := [level] }.reply = none ∧ { Port.initial with levels := [level] }.queue = []) ∧
    ((heldPort (some ⟨30, .accepted []⟩) none).transmitter ≠ none ∧
     (heldPort (some ⟨30, .accepted []⟩) none).buffer = none ∧
     (heldPort (some ⟨30, .accepted []⟩) none).reply = some ⟨30, .accepted []⟩) ∧
    ({ heldPort none none with queue := [routine] }.queue = routine :: [] ∧ (heldPort none none).reply = none ∧
     (heldPort none none).buffer = none ∧ (heldPort none none).queue = []) ∧
    ((queueOf 1 0).transmitter = none ∧ (queueOf 1 0).reply = none ∧ (queueOf 1 0).queue = routine :: []) ∧
    (Port.initial.transmitter = none ∧ Port.initial.reply = none ∧ Port.initial.queue = []) := by decide +kernel

/-! ### Every command and event -/

/-- A free port; a payload one byte too long; codes 0, 32 and 255, which name no command; and a port with a reply
waiting, alone, with this command behind it, and with another. -/
theorem witness_CommandRepliesOnceOrWaits :
    let c := Instr.readStatus .fac (.fields {})
    (State.reset.waiting = [] ∧ WellFormed c = true ∧ encodeCommand c = some (.fac, 30, []) ∧ State.reset.takes .fac 30 []) ∧
    (State.reset.takes .lld 30 [0] ∧ isMalformed (.readStatus .lld (.malformed [0])) = true ∧
      encodeCommand (.readStatus .lld (.malformed [0])) = some (.lld, 30, [0])) ∧
    (State.reset.takes .lld 0 [] ∧ (0#8).toNat = 0 ∧ State.reset.takes .lld 32 [] ∧ 31 < (32#8).toNat ∧
      31 < (255#8).toNat) ∧
    (∀ buffer, let s := State.reset.setPort .fac (heldPort (some ⟨3, .accepted []⟩) buffer);
      s.waiting = [] ∧ (s.port .fac).reply = some ⟨3, .accepted []⟩ ∧ (s.port .fac).buffer = buffer ∧
        (s.port .fac).transmitter ≠ none) ∧
    (some ⟨3, []⟩ : Option CommandFrame) ≠ some ⟨30, []⟩ := by
  refine ⟨⟨rfl, by decide, by decide, takes_reset ..⟩, ⟨takes_reset .., by decide, by decide⟩,
    ⟨takes_reset .., by decide, takes_reset .., by decide, by decide⟩, fun buffer => ?_, by decide⟩
  simp [heldPort]

/-- A row that makes no request; and one that does, with nothing to meet it and with an ESTATE CLEAR. -/
theorem witness_EveryStepChangesOnlyItsParts :
    makesRequests .powerOn = false ∧ makesRequests (.presentEnter gate 20) = true ∧ (quiet 0).meetings = [] ∧
    (quiet 0).waiting = [] ∧ ({ quiet 0 with meetings := [clearing] } : State).waiting = [] ∧
    ({ quiet 0 with meetings := [clearing] } : State).meetings ≠ [] := ⟨rfl, rfl, rfl, rfl, rfl, by simp⟩

/-! ### The rights memory -/

/-- Block 512, kinds 0 and 4; block 511 Free; and block 0 of the test estate, Facilities', for its owner and for
Landlord. -/
theorem witness_BlocksAreWrittenAndRead :
    State.reset.takes .fac 1 [] ∧ State.reset.takes .fac 1 (WriteBlockArgs.encode ⟨512, 1, Vector.replicate 64 0⟩) ∧
    511 < (512#16).toNat ∧ (0#8).toNat = 0 ∧ 3 < (4#8).toNat ∧
    ((511#16).toNat = (511 : BlockNo).val ∧ (3 : Byte) = kindCode (some (.fac, .zone)) ∧
      ∀ o k, (State.reset.block 511).owner = some (o, k) → o = .fac) ∧
    ((quiet 0).takes .lld 1 (WriteBlockArgs.encode ⟨0, 1, Vector.replicate 64 0⟩) ∧
      (0#16).toNat = (0 : BlockNo).val ∧ (1 : Byte) = kindCode (some (.lld, .estate)) ∧
      ((quiet 0).block 0).owner = some (.fac, .estate) ∧ Authority.fac ≠ .lld) ∧
    (State.reset.takes .fac 3 (ReadBlockArgs.encode ⟨512⟩) ∧ State.reset.freeBlocksZero ∧
      (State.reset.block 511).owner = none) := by
  refine ⟨takes_reset .., takes_reset .., by decide, by decide, by decide, ⟨by decide, by decide, ?_⟩,
    ⟨takes_estate .., by decide, by decide, ?_, by decide⟩, takes_reset .., fun b _ => reset_block b, ?_⟩
  · simp [Block.free]
  · simp [quiet]
  · simp [Block.free]

/-- Count 0; a range past 511; block 1 Free behind block 0; block 0 named by space 2; and, for the accepted command,
block 511 of a Facilities tree that no descriptor names. -/
theorem witness_FreeBlocksTakesOrRefuses :
    ((quiet 0).takes .fac 2 (FreeBlocksArgs.encode ⟨0, 0⟩) ∧ (0#16).toNat = 0) ∧
    ((quiet 0).takes .fac 2 (FreeBlocksArgs.encode ⟨511, 2⟩) ∧ 512 < (511#16).toNat + (2#16).toNat) ∧
    (∃ k, ((quiet 0).block 0).owner = some (.fac, k)) ∧ (¬ ∃ k, ((quiet 0).block 1).owner = some (.fac, k)) ∧
    (∃ n d, ((quiet 0).space n).describes d ∧ d.names 0 = true) ∧
    (let s := State.reset.setBlock 511 ⟨some (.fac, .zone), Vector.replicate 64 0⟩;
      s.takes .fac 2 (FreeBlocksArgs.encode ⟨511, 1⟩) ∧ (511#16).toNat + (1#16).toNat ≤ 512 ∧
      (∃ k, (s.block 511).owner = some (.fac, k)) ∧ ∀ n d, (s.space n).describes d → d.names 511 = false) := by
  refine ⟨⟨takes_estate .., by decide⟩, ⟨takes_estate .., by decide⟩, ⟨.estate, by simp [quiet]⟩,
    by simp [quiet, Block.free], ⟨2, ⟨.fac, .estate, some 0, 1, false⟩, .inl (by simp [quiet]), by decide⟩,
    takes_of_port (by simp) .., by decide, ⟨.zone, by simp⟩, fun n d h => ?_⟩
  simp only [SpaceRecord.describes, State.setBlock_space, reset_space] at h
  split_ifs at h <;> simp [SpaceRecord.security, SpaceRecord.unused] at h <;> subst_vars <;> decide

/-! ### The space directory and the cache -/

/-- Facilities' estate descriptor with block 0 for its table, as DEFINE SPACE carries it. -/
theorem carries_estate (p : Authority) :
    carriesDescriptor ⟨0, 0, 0, 0, 1, 1⟩ ⟨p, .estate, some 0, 1, true⟩ := by
  simp [carriesDescriptor]

/-- The same over blocks 0 and 1, of which block 1 is Free in the test estate. -/
theorem carries_two_blocks : carriesDescriptor ⟨0, 0, 0, 0, 2, 0⟩ ⟨.fac, .estate, some 0, 2, false⟩ := by
  simp [carriesDescriptor]

/-- The longest range that ends at block 511. -/
theorem carries_last_block : carriesDescriptor ⟨2, 127, 31, 508, 4, 0⟩ ⟨.lld, .zone 127 31, some 508, 4, false⟩ := by
  simp [carriesDescriptor]

/-- Origin none, which is 65535. -/
theorem carries_no_table (p : Authority) :
    carriesDescriptor ⟨0, 0, 0, 65535, 16, 1⟩ ⟨p, .estate, none, 16, true⟩ := by
  simp [carriesDescriptor]

theorem quiet_block_ready (b : BlockNo) (h : (⟨.fac, .estate, some 0, 1, true⟩ : Descriptor).names b.val = true) :
    ((quiet 0).block b).owner = some (.fac, .estate) := by
  have : b = 0 := by
    simp [Descriptor.names] at h
    omega
  simp [quiet, this]

/-- Every space in use: the directory of the full case of R25. -/
def fullDirectory : State :=
  { quiet 0 with spaces := Vector.replicate 64 ⟨some ⟨.fac, .estate, some 0, 1, false⟩, none, 0, 0⟩ }

theorem witness_DefineSpaceTakesOrRefuses :
    ((quiet 0).takes .fac 4 (DescriptorArgs.encode ⟨0, 0, 0, 65535, 16, 1⟩) ∧
      ∀ d, carriesDescriptor ⟨0, 0, 0, 65535, 16, 1⟩ d → d.topOrigin = none) ∧
    ((quiet 0).takes .sec 4 (DescriptorArgs.encode ⟨0, 0, 0, 0, 1, 1⟩) ∧
      carriesDescriptor ⟨0, 0, 0, 0, 1, 1⟩ ⟨.sec, .estate, some 0, 1, true⟩) ∧
    ((quiet 0).takes .fac 4 (DescriptorArgs.encode ⟨0, 0, 0, 0, 2, 0⟩) ∧
      carriesDescriptor ⟨0, 0, 0, 0, 2, 0⟩ ⟨.fac, .estate, some 0, 2, false⟩ ∧
      (⟨.fac, .estate, some 0, 2, false⟩ : Descriptor).names (1 : BlockNo).val = true ∧
      ((quiet 0).block 1).owner ≠ some (.fac, .estate) ∧ ((quiet 0).block 0).owner = some (.fac, .estate)) ∧
    (∀ b : BlockNo, (⟨.fac, .estate, some 0, 1, true⟩ : Descriptor).names b.val = true →
      ((quiet 0).block b).owner = some (.fac, .estate)) ∧
    (fullDirectory.takes .fac 4 (DescriptorArgs.encode ⟨0, 0, 0, 0, 1, 1⟩) ∧
      ∀ n : SpaceNo, 2 ≤ n.val → (fullDirectory.space n).inUse = true) ∧
    (((quiet 0).space 3).inUse = false ∧ ∀ m : SpaceNo, 2 ≤ m.val → m < 3 → ((quiet 0).space m).inUse = true) := by
  refine ⟨⟨takes_estate .., fun d h => ?_⟩, ⟨takes_estate .., carries_estate _⟩,
    ⟨takes_estate .., carries_two_blocks, by decide, by simp [quiet, Block.free], by simp [quiet]⟩, quiet_block_ready,
    ⟨takes_of_port (show (quiet 0).port .fac = _ from estate_port ..) .., fun n _ => ?_⟩, by simp [quiet, SpaceRecord.unused, SpaceRecord.inUse],
    fun m h1 h2 => ?_⟩
  · obtain ⟨_, h2, _⟩ := h
    cases ho : d.topOrigin with
    | none => rfl
    | some o =>
      simp only [ho] at h2
      have := o.isLt
      have h3 : 65535 = o.val := h2.1
      omega
  · have : fullDirectory.space n = _ := vector_get_replicate ..
    rw [this]
    rfl
  · have : m = 2 := by
      have := Fin.lt_def.mp h2
      simp only [Fin.ext_iff, Fin.val_two]
      have h3 : (3 : SpaceNo).val = 3 := rfl
      omega
    simp [quiet, this, SpaceRecord.inUse]

/-- Space 64; Security in a Facilities space; a space with Go set; a table not ready; drain counts 0 and 1; and
space 0, which takes origin none. -/
theorem witness_StageSpaceTakesOrRefuses :
    ((quiet 0).takes .fac 5 (StageSpaceArgs.encode ⟨64, ⟨0, 0, 0, 0, 1, 1⟩⟩) ∧ ∀ n : SpaceNo, (64#8).toNat ≠ n.val) ∧
    ((2#8).toNat = (2 : SpaceNo).val ∧ (∀ p, carriesDescriptor ⟨0, 0, 0, 0, 1, 1⟩ ⟨p, .estate, some 0, 1, true⟩) ∧
      ((quiet 0).space 2).owner ≠ some .sec ∧ ((quiet 0).space 2).owner = some .fac ∧
      ((quiet 0).space 2).go = false ∧ ((quiet 0).space 2).drain = 0 ∧
      ((paired (firstStep 1 (.running 1020)) 2).space 2).drain ≠ 0) ∧
    ((0#8).toNat = (0 : SpaceNo).val ∧ carriesDescriptor ⟨0, 0, 0, 65535, 16, 1⟩ ⟨.sec, .estate, none, 16, true⟩ ∧
      ((quiet 0).space 0).owner = some .sec ∧
      ∀ b : BlockNo, (⟨.sec, .estate, none, 16, true⟩ : Descriptor).names b.val = false) ∧
    (((quiet 0).setSpace 2 ⟨some ⟨.fac, .estate, some 0, 1, false⟩,
      some ⟨⟨.fac, .estate, some 0, 1, true⟩, 1120⟩, 0, 1⟩).space 2).go = true := by
  refine ⟨⟨takes_estate .., fun n h => ?_⟩, ⟨by decide, carries_estate, ?_, ?_, ?_, ?_, ?_⟩,
    ⟨by decide, carries_no_table _, ?_, fun b => rfl⟩, ?_⟩
  · have := n.isLt
    have h2 : (64#8).toNat = 64 := rfl
    omega
  all_goals simp [quiet, paired, SpaceRecord.owner, SpaceRecord.go, drainOf]

theorem witness_StageIsCancelledAndSpaceRetired :
    ((quiet 0).takes .fac 6 (NumberArgs.encode ⟨64⟩) ∧ 63 < (64#8).toNat) ∧
    (((quiet 0).space 63).owner ≠ some .fac) ∧
    (((quiet 0).space 2).owner = some .fac ∧ ((quiet 0).space 2).go = false) ∧
    (let s := (quiet 0).setSpace 2 ⟨some ⟨.fac, .estate, some 0, 1, false⟩,
        some ⟨⟨.fac, .estate, some 0, 1, true⟩, 1120⟩, 0, 1⟩;
      s.takes .fac 6 (NumberArgs.encode ⟨2⟩) ∧ (s.space 2).owner = some .fac ∧ (s.space 2).go = true) ∧
    ((quiet 0).takes .fac 7 (NumberArgs.encode ⟨2⟩) ∧
      (∃ r, (quiet 0).workOrder 1 = some r ∧ ∃ o ∈ r.options, o.space = 2) ∧
      ∀ v < (1 : WorkOrderNo), ¬ ∃ r, (quiet 0).workOrder v = some r ∧ ∃ o ∈ r.options, o.space = 2) ∧
    (let s := (quiet 0).setSpace 63 ⟨some ⟨.fac, .estate, some 0, 1, false⟩, none, 0, 0⟩;
      s.takes .fac 7 (NumberArgs.encode ⟨63⟩) ∧ (s.space 63).owner = some .fac ∧ (s.space 63).go = false ∧
      ∀ w, ¬ ∃ r, s.workOrder w = some r ∧ ∃ o ∈ r.options, o.space = 63) := by
  refine ⟨⟨takes_estate .., by decide⟩, by simp [quiet, SpaceRecord.unused, SpaceRecord.owner],
    by simp [quiet, SpaceRecord.owner, SpaceRecord.go],
    ⟨takes_of_port (by simp [quiet]) .., by simp [SpaceRecord.owner], by simp [SpaceRecord.go]⟩,
    ⟨takes_estate .., ⟨job 0, quiet_job 0, by simp [job]⟩, fun v hv => ?_⟩,
    takes_of_port (by simp [quiet]) .., by simp [SpaceRecord.owner], by simp [SpaceRecord.go], fun w ⟨r, hr, o, ho, h⟩ => ?_⟩
  · have : v = 0 := by
      have := Fin.lt_def.mp hv
      have h1 : (1 : WorkOrderNo).val = 1 := rfl
      simp only [Fin.ext_iff, Fin.val_zero]
      omega
    subst this
    simp [quiet, WorkOrder.escortRoster]
  · simp only [State.setSpace_workOrder, quiet, estate_workOrder] at hr
    split_ifs at hr
    · obtain rfl : job _ = r := by simpa using hr
      simp [job] at ho
      simp [ho] at h
    · obtain rfl := (by simpa using hr : _ = r)
      simp [WorkOrder.escortRoster] at ho
      simp [ho] at h

/-- Forms 3, 1 with space 64 and 2 with site 128; Landlord on a Facilities space; and Facilities on its own. -/
theorem witness_PurgeTakesOrRefuses :
    ((quiet 0).takes .lld 9 (PurgeArgs.encode ⟨1, 2⟩) ∧ (2#8).toNat ≤ 63 ∧
      ¬ ∀ n : SpaceNo, n.val = (2#8).toNat → ((quiet 0).space n).owner = some .lld) ∧
    ((quiet 0).takes .fac 9 (PurgeArgs.encode ⟨1, 2⟩) ∧
      ∀ n : SpaceNo, n.val = (2#8).toNat → ((quiet 0).space n).owner = some .fac) ∧
    ((quiet 0).takes .sec 9 (PurgeArgs.encode ⟨2, 127⟩) ∧ (127#8).toNat ≤ 127 ∧ ¬ (128#8).toNat ≤ 127 ∧
      ¬ (64#8).toNat ≤ 63 ∧ (3 : Byte) ≠ 0 ∧ (3 : Byte) ≠ 1 ∧ (3 : Byte) ≠ 2) := by
  have h2 : (2#8).toNat = (2 : SpaceNo).val := rfl
  refine ⟨⟨takes_estate .., by decide, fun h => ?_⟩, ⟨takes_estate .., fun n hn => ?_⟩, takes_estate .., by decide⟩
  · simpa [quiet, SpaceRecord.owner] using h 2 h2.symm
  · obtain rfl : n = 2 := Fin.ext (hn.trans h2)
    simp [quiet, SpaceRecord.owner]

/-- A pairing with a switch waiting in the contractor's space. -/
def pairedStaged (deadline : Nat) : State :=
  (paired (firstStep 1 (.running 1020)) 2).setSpace 2
    ⟨some ⟨.fac, .estate, some 0, 1, false⟩, some ⟨⟨.fac, .estate, some 0, 1, true⟩, deadline⟩, 0, 1⟩

theorem pairedStaged_pairingsSound (deadline : Nat) : (pairedStaged deadline).pairingsSound := by
  have h := paired_pairingsSound 1 (.running 1020) 2
  refine ⟨h.1, h.2.1, h.2.2.1, fun n => ?_⟩
  have hn := h.2.2.2 n
  have hc : (pairedStaged deadline).slotsCounted n = (paired (firstStep 1 (.running 1020)) 2).slotsCounted n := rfl
  rw [hc, ← hn]
  rw [pairedStaged, State.setSpace_space]
  split_ifs with h2
  · subst h2
    simp [paired, drainOf]
  · rfl

/-- Before the deadline, at it with the admission at the gate counted, and with Go clear. -/
theorem witness_ForcedSwitchAbandonsAndApplies :
    (∃ w, ((pairedStaged 1001).space 2).waiting = some w ∧ (pairedStaged 1001).count < w.deadline) ∧
    (quiet 0).space 2 = ⟨some ⟨.fac, .estate, some 0, 1, false⟩, none, 0, 0⟩ ∧
    ((pairedStaged 1000).pairingsSound ∧
      (∃ w, ((pairedStaged 1000).space 2).waiting = some w ∧ w.deadline ≤ (pairedStaged 1000).count) ∧
      (0 : SlotNo) ∈ (pairedStaged 1000).slotsCounted 2 ∧
      (pairedStaged 1000).slot 0 = some (firstStep 1 (.running 1020))) := by
  refine ⟨⟨⟨⟨.fac, .estate, some 0, 1, true⟩, 1001⟩, by simp [pairedStaged], by simp [pairedStaged, paired]⟩, (by simp [quiet, drainOf]),
    pairedStaged_pairingsSound 1000, ⟨⟨⟨.fac, .estate, some 0, 1, true⟩, 1000⟩, by simp [pairedStaged], by simp [pairedStaged, paired]⟩, ?_,
    by simp [pairedStaged, paired]⟩
  have hc : (pairedStaged 1000).slotsCounted 2 = (paired (firstStep 1 (.running 1020)) 2).slotsCounted 2 := rfl
  rw [hc, paired, estate_slotsCounted (fits_first ..)]
  simp

/-- An entry of space 9, which no request of the witnesses asks for. -/
def otherEntry : CacheEntry := ⟨9, 0, .overlay zoneOverlay⟩

/-- The descriptor of space 0 at power-on, and one whose top table is Free. -/
def overlaySpace (origin : Option BlockNo) : Descriptor := ⟨.sec, .estate, origin, 1, true⟩

/-- With nothing to meet it, a request of each form: a hit of a tagged entry; a walk's summary filled in an empty
cache, in one of 31 entries and in a full one; and a walk's fault. -/
theorem witness_CacheServesWhatWasFilled :
    (((quiet 0).space 2).current = some ⟨.fac, .estate, some 0, 1, false⟩ ∧ (quiet 0).meetings = [] ∧
      cachePick 2 0 false home (quiet 0).cache = some ⟨2, 0, .grant (zoneGrant 0)⟩ ∧
      ((quiet 0).space 0).current = some (overlaySpace none) ∧
      cachePick 0 0 true home (quiet 0).cache = some ⟨0, 0, .overlay zoneOverlay⟩) ∧
    (∀ n ∈ [0, 31, 32], let s := exampleDevice (List.replicate n otherEntry) [];
      s.cache.length = n ∧ cachePick 2 0 false ⟨12, 3, 17⟩ s.cache = none ∧
      (grantWalk (fun _ => s) (exampleSpace false) ⟨12, 3, 17⟩).toOption.isSome = true ∧
      grantWalk (fun _ => s) (exampleSpace false) ⟨12, 6, 0⟩ = .error .notGranted ∧
      cachePick 0 0 true ⟨12, 3, 17⟩ s.cache = none ∧
      overlayWalk (fun _ => s) (overlaySpace none) ⟨12, 3, 17⟩ = .ok zoneOverlay ∧
      overlayWalk (fun _ => s) (overlaySpace (some 7)) ⟨12, 3, 17⟩ = .error .overlayFault) := by
  refine ⟨⟨by simp [quiet], rfl, by decide, by simp [quiet, overlaySpace], by decide⟩, by decide +kernel⟩

/-- Rows that may meet a request for room 12.3.17 in space 2: FREE BLOCKS of its zone table, WRITE BLOCK of a Free
block, PURGE of each form, covering or not or refused, ESTATE CLEAR, from Security and refused, STAGE SPACE, which
switches the space at once, RETIRE SPACE, and a SWITCH_DEADLINE. -/
def meetingRows : List Instr :=
  [.freeBlocks .fac (.fields ⟨4, 1⟩), .writeBlock .lld (.fields ⟨4, 3, Vector.replicate 64 0⟩),
    .purge .sec (.fields ⟨0, 9⟩), .purge .fac (.fields ⟨0, 9⟩), .purge .fac (.fields ⟨1, 2⟩),
    .purge .lld (.fields ⟨1, 2⟩), .purge .sec (.fields ⟨1, 63⟩), .purge .sec (.fields ⟨2, 12⟩),
    .purge .sec (.fields ⟨2, 127⟩), .purge .fac (.fields ⟨2, 12⟩), .purge .sec (.fields ⟨3, 0⟩),
    .estateClear .sec (.fields {}), .estateClear .fac (.fields {}),
    .stageSpace .fac (.fields ⟨2, ⟨0, 0, 0, 0, 1, 1⟩⟩), .retireSpace .fac (.fields ⟨2⟩), .switchDeadline 2]

/-- Each of these rows before the lookup of a request and at each point after it, at a miss and at a hit; FREE BLOCKS
before the read of the zone table and after it; an ESTATE CLEAR refused while a record is in use; a row that an event of
the deciding port is, and one of another; and a row that changes what its decision is about. -/
theorem witness_CacheServesWhatWasFilled_meetings :
    ((∀ i ∈ meetingRows, makesRequests i = false ∧ i ≠ .powerOn ∧ lineOf i = none ∧
        anyDecision.keeps home (exampleDevice [] []) (after i (exampleDevice [] [])) = true) ∧
      ∀ p, ((exampleDevice [] []).port p).buffer = none ∧ ((exampleDevice [] []).port p).reply = none) ∧
    (∀ i ∈ meetingRows, (∃ u, exec i (exampleDevice [] []) = .next u) ∧
      (exampleDevice [] [Meetings.first i]).meetings = Meetings.first i :: [] ∧
      ∀ k, (exampleDevice [] [Meetings.only i k]).meetings = Meetings.only i k :: []) ∧
    (cachePick 2 0 false ⟨12, 3, 17⟩ (exampleDevice [] []).cache = none ∧
      cachePick 0 0 true ⟨12, 3, 17⟩ (exampleDevice [] []).cache = none) ∧
    (let s := exampleDevice [] [];
      let u := after (.freeBlocks .fac (.fields ⟨4, 1⟩)) s;
      grantWalk (seenAround s u (some .zone)) (exampleSpace false) ⟨12, 3, 17⟩ = .error .tableFree ∧
      (grantWalk (seenAround s u none) (exampleSpace false) ⟨12, 3, 17⟩).toOption.isSome = true) ∧
    (cachePick 2 0 false home (exampleDevice (estateCache 0) [clearing]).cache = some ⟨2, 0, .grant (zoneGrant 0)⟩ ∧
      cachePick 0 0 true home (exampleDevice (estateCache 0) [clearing]).cache = some ⟨0, 0, .overlay zoneOverlay⟩) ∧
    ((∀ j, (exampleDevice [] []).record j = none) ∧ (within .idle).record 0 = some occupied) ∧
    (lineOf (.portBreak .fac) = some .fac ∧ (Decision.selection (some .sec) 1 []).port ≠ some .fac) ∧
    (let s := exampleDevice [] [];
      (⟨none, some gate, none, [], [], []⟩ : Decision).keeps home s
        (after (.bindDoor .sec (.fields ⟨⟨0, 0⟩, some ⟨⟨12, 3, 17⟩, 0⟩⟩)) s) = false) := by
  refine ⟨⟨by decide +kernel, fun p => by cases p <;> decide +kernel⟩, fun i hi => ⟨?_, rfl, fun k => rfl⟩,
    by decide +kernel, by decide +kernel, by decide +kernel, ⟨fun j => reset_record j, within_record _⟩, by decide, by decide +kernel⟩
  simp only [meetingRows, List.mem_cons, List.not_mem_nil, or_false] at hi
  rcases hi with rfl | rfl | rfl | rfl | rfl | rfl | rfl | rfl | rfl | rfl | rfl | rfl | rfl | rfl | rfl | rfl <;>
    exact ⟨_, rfl⟩

/-- A row that begins a decision of its own, the Enter at the second door, which waits while the decision of the gate is
in progress; and one of the same work order, whose decision is about the same. -/
theorem witness_CacheServesWhatWasFilled_begun :
    let x : Decision := .contractor gate home 0 (technician .idle)
    let row : Instr := .presentEnter ⟨1, 0⟩ 21
    let same := fun s : State => s.setPermit 2 (some ⟨21, 1, .technician, false, .idle⟩)
    (makesRequests row = true ∧ (rowEffect row (twin [])).isSome = true ∧ row ≠ .powerOn ∧ encodeCommand row = none ∧
      lineOf row = none) ∧
    (∀ u, rowEffect row (twin []) = some u →
      u.waiting.length = 1 ∧ x.keeps home (twin []) u = true ∧ ∀ y ∈ u.parties, x.apart y.decision = true) ∧
    (∀ u, rowEffect row (same (twin [])) = some u → ¬ ∀ y ∈ u.parties, x.apart y.decision = true) ∧
    (twin [Meetings.first row]).meetings = [Meetings.first row] ∧
    (twin [Meetings.only row none]).meetings = [Meetings.only row none] ∧
    ((twin []).space 2).current = some ⟨.fac, .estate, some 0, 1, false⟩ ∧
    cachePick 2 0 false home (twin []).cache = some ⟨2, 0, .grant (zoneGrant 0)⟩ := by
  refine ⟨by decide +kernel, fun u h => ?_, fun u h => ?_, rfl, rfl, by decide +kernel, by decide +kernel⟩
  all_goals
    obtain rfl := (Option.some.inj h : _ = u)
    decide +kernel

/-- Rows that change nothing of a selection of work order 2, and that are for it all the same: a SET CLOCK while it is
Pending; and while it is Active the entry of a minute, and a READ WORK ORDER of it. While it is Pending the entry of a
minute is not for it; nor is a READ of another work order. While a SET CLOCK selects work order 1, and the turn of work
order 2 is still to come, an Enter of a permit of work order 2 and a WITHDRAW of it are for it all the same, and an Enter
of another credential and the passage of a door that holds no permit are not. -/
theorem witness_CacheServesWhatWasFilled_named :
    let x : Decision := .selection (some .fac) 2 []
    let late := fun s : State => { s with clock := some ⟨400, 600, 59⟩ }
    let set : Instr := .setClock .sec (.fields ⟨401, 1439, 59⟩)
    let read : Instr := .readWorkOrder .lld (.fields ⟨2⟩)
    (∀ i ∈ [set, .secondTick, read], ∀ s ∈ [late (twin []), late (twinPending [])],
      (rowEffect i s).isSome = true ∧ (s.port .sec).buffer = none ∧ (s.port .sec).reply = none ∧
        (s.port .lld).buffer = none ∧ (s.port .lld).reply = none ∧ lineOf i = none) ∧
    ((rowEffect set (twinPending [])).all (fun u => x.keeps ⟨12, 4, 5⟩ (twinPending []) u &&
        u.parties.all fun y => x.apart y.decision) = true ∧ x.sparedBy (twinPending []) set = false) ∧
    (∀ i ∈ [Instr.secondTick, read], (rowEffect i (late (twin []))).all (fun u =>
        x.keeps ⟨12, 4, 5⟩ (late (twin [])) u && u.parties.all fun y => x.apart y.decision) = true ∧
      x.sparedBy (late (twin [])) i = false) ∧
    x.sparedBy (late (twinPending [])) .secondTick = true ∧
    x.sparedBy (twin []) (.readWorkOrder .lld (.fields ⟨1⟩)) = true ∧
    (let turn : Decision := .selection (some .sec) 1 [2];
      let enter : Instr := .presentEnter ⟨1, 0⟩ 21;
      (rowEffect enter (twin [])).all (fun u => turn.keeps home (twin []) u) = true ∧
      turn.sparedBy (twin []) enter = false ∧
      turn.sparedBy (twin []) (.withdraw .fac (.fields ⟨2⟩)) = false ∧
      turn.sparedBy (twin []) (.presentEnter ⟨1, 0⟩ 22) = true ∧ turn.sparedBy (twin []) (.passage ⟨1, 0⟩) = true) := by
  decide +kernel

/-- An entry of space `n`, generation 0, for the home room or zone-wide. -/
def homeEntry (n : SpaceNo) (room : Option RoomNo) (common : Bool) : CacheEntry :=
  ⟨n, 0, .grant { zoneGrant 0 with covers := ⟨12, 3, room⟩, common := common }⟩

/-- A cache for each preference of R65, in which the entry preferred stands last, and one that holds nothing for the
request of space 2. -/
theorem witness_CacheServesWhatWasFilled_preferences :
    let tagged := fun f : CacheEntry => f.space = 2 ∧ f.generation = 0
    let forRoom := fun f : CacheEntry => f.summary.covers = ⟨12, 3, some 17⟩
    let zoneWide := fun f : CacheEntry => f.summary.covers = ⟨12, 3, none⟩
    let others := [homeEntry 3 (some 17) true, homeEntry 3 none true]
    ((tagged (homeEntry 2 (some 17) false) ∧ forRoom (homeEntry 2 (some 17) false)) ∧
      ∀ x ∈ homeEntry 2 none false :: others, ¬ (tagged x ∧ forRoom x)) ∧
    ((tagged (homeEntry 2 none false) ∧ zoneWide (homeEntry 2 none false)) ∧
      (∀ x ∈ others ++ [homeEntry 2 none false], ¬ (tagged x ∧ forRoom x)) ∧
      ∀ x ∈ others, ¬ (tagged x ∧ zoneWide x)) ∧
    ((homeEntry 3 (some 17) true).summary.common = true ∧ forRoom (homeEntry 3 (some 17) true) ∧
      (∀ x ∈ [homeEntry 3 none true, homeEntry 3 (some 17) true], tagged x → ¬ forRoom x ∧ ¬ zoneWide x) ∧
      ∀ x ∈ [homeEntry 3 none true], ¬ (x.summary.common = true ∧ forRoom x)) ∧
    ((homeEntry 3 none true).summary.common = true ∧ zoneWide (homeEntry 3 none true) ∧
      (∀ x ∈ [otherEntry, homeEntry 3 none true], tagged x → ¬ forRoom x ∧ ¬ zoneWide x) ∧
      ∀ x ∈ [otherEntry, homeEntry 3 none true], ¬ (x.summary.common = true ∧ forRoom x)) ∧
    (∀ x ∈ [homeEntry 3 (some 17) false], forRoom x ∨ zoneWide x → ¬ tagged x ∧ (false = true ∨ x.summary.common = false)) ∧
    ∀ x ∈ others, forRoom x ∨ zoneWide x → ¬ tagged x ∧ (true = true ∨ x.summary.common = false) := by
  decide +kernel

/-- A block of eight equal entries. -/
def evenBlock (k : Kind) (entry : Fin 8 → Byte) : Block :=
  ⟨some (.fac, k), Vector.ofFn fun i => entry ⟨i.val % 8, Nat.mod_lt _ (by decide)⟩⟩

/-- A tree of one block at each level. -/
def chain (estate site zone : Fin 8 → Byte) : State :=
  ((State.reset.setBlock 0 (evenBlock .estate estate)).setBlock 1 (evenBlock .site site)).setBlock 2
    (evenBlock .zone zone)

/-- What a level of the walk judges of an entry. -/
structure EntryParts where
  valid : Bool
  blanket : Bool
  common : Bool
  window : Option Window
  origin : Nat
  length : Nat
  deriving DecidableEq

/-- What a level of the walk judges of the entry that it reads. -/
def readParts (s : State) (k : Kind) (origin index : Nat) : Option EntryParts :=
  (readEntry s none k origin 1 index).toOption.map fun e => ⟨e.valid, e.blanket, e.common, e.window, e.origin, e.length⟩

/-- An entry that points to block 1, and one that points to block 2. -/
def toSite : Fin 8 → Byte := ![0x80, 0, 0, 0, 0, 0, 1, 1]
/-- A valid entry that points to block 2. -/
def toZone : Fin 8 → Byte := ![0x80, 0, 0, 0, 0, 0, 2, 1]

/-- The entries that a level judges: not valid; a window of start 1440, and of start 1439 with 1441 minutes; common;
lengths 0, 5 and 4; ranges that end past and at block 511; and Blanket. -/
def judgedEntries : List ((Fin 8 → Byte) × EntryParts) :=
  [(![0, 0, 0, 0, 0, 0, 1, 1], ⟨false, false, false, none, 1, 1⟩),
    (![0x84, 5, 160, 0, 1, 0, 1, 1], ⟨true, false, false, some ⟨1440, 1⟩, 1, 1⟩),
    (![0x84, 5, 159, 5, 161, 0, 1, 1], ⟨true, false, false, some ⟨1439, 1441⟩, 1, 1⟩),
    (![0xa0, 0, 0, 0, 0, 0, 1, 1], ⟨true, false, true, none, 1, 1⟩),
    (![0x80, 0, 0, 0, 0, 0, 1, 0], ⟨true, false, false, none, 1, 0⟩),
    (![0x80, 0, 0, 0, 0, 0, 1, 5], ⟨true, false, false, none, 1, 5⟩),
    (![0x80, 0, 0, 0, 0, 0, 1, 4], ⟨true, false, false, none, 1, 4⟩),
    (![0x80, 0, 0, 0, 0, 1, 255, 2], ⟨true, false, false, none, 511, 2⟩),
    (![0x80, 0, 0, 0, 0, 1, 255, 1], ⟨true, false, false, none, 511, 1⟩),
    (![0xc0, 0, 0, 0, 0, 0, 1, 0], ⟨true, true, false, none, 1, 0⟩)]

/-- Position 7 of a block; index 8 of a table of one block; index 7 of a block that is Free, of another authority, of
another kind, and the one the walk asks for; each entry of `judgedEntries` at each level; and each scope, for a room
in it and out of it. -/
theorem witness_WalkJudgesBlockInOrder :
    (7 < 8 ∧ 8 * 1 ≤ 8 ∧ 7 < 8 * 1 ∧ (5 : BlockNo).val = 5 + 7 / 8 ∧ (State.reset.block 5).owner = none ∧
      (exampleTree.block 5).owner = some (.fac, .site) ∧
      (∃ a, some Authority.lld = some a ∧ a ≠ .fac) ∧ (∀ a, some Authority.fac = some a → a = .fac) ∧
      Kind.site ≠ .zone) ∧
    (∀ x ∈ judgedEntries, readParts (chain x.1 x.1 x.1) .estate 0 7 = some x.2 ∧
      readParts (chain toSite x.1 x.1) .site 1 7 = some x.2 ∧ readParts (chain toSite toZone x.1) .zone 2 7 = some x.2) ∧
    (readEntry (chain toSite toZone toZone) (some .fac) .site 1 1 8 = .error .length ∧
      readEntry (chain toSite toZone toZone) (some .fac) .zone 2 1 8 = .error .length ∧
      readEntry (chain toSite toZone toZone) (some .fac) .estate 0 1 8 = .error .length) ∧
    (∀ d ∈ [(⟨.fac, .estate, none, 1, false⟩ : Descriptor)], d.topOrigin = none) ∧
    (⟨.fac, .site 127, some 1, 1, false⟩ : Descriptor).scope = .site 127 ∧
    (⟨.fac, .zone 127 31, some 2, 1, true⟩ : Descriptor).scope = .zone 127 31 ∧ (0 : SiteNo) ≠ 127 ∧
    (0 : ZoneNo) ≠ 31 := by
  refine ⟨⟨by decide, by decide, by decide, by decide, by simp [Block.free], by decide +kernel, ⟨.lld, rfl, by decide⟩, ?_,
    by decide⟩, by decide +kernel, by decide +kernel, by decide, rfl, rfl, by decide, by decide⟩
  simp

/-- A descriptor with no table; Free blocks at each level; each entry of `judgedEntries` at each level; and items of
common, escort and neither. -/
theorem witness_OverlayWalkGathersItems :
    (State.reset.space 0).current = some ⟨.sec, .estate, none, 1, true⟩ ∧
    readEntry State.reset none .estate 0 1 0 = .error .tableFree ∧
    (∀ x ∈ judgedEntries, readParts (chain x.1 x.1 x.1) .estate 0 7 = some x.2 ∧
      readParts (chain toSite x.1 x.1) .site 1 7 = some x.2 ∧ readParts (chain toSite toZone x.1) .zone 2 7 = some x.2) ∧
    (readEntry ((chain toSite toZone toZone).setBlock 1 Block.free) none .site 1 1 31 = .error .length ∧
      readEntry ((chain toSite toZone toZone).setBlock 2 Block.free) none .zone 2 1 7 = .error .tableFree) ∧
    (overlayWalk (fun _ => chain ![0xa4, 0, 0, 5, 161, 0, 1, 1] ![0xd0, 0, 0, 0, 0, 0, 0, 0] toZone)
        ⟨.sec, .estate, some 0, 1, true⟩ ⟨7, 7, 7⟩ =
      .ok ⟨⟨7, 7, none⟩, [⟨true, false, some ⟨0, 1440⟩⟩, ⟨false, true, none⟩]⟩) := by
  refine ⟨by simp [reset_space, SpaceRecord.security], by decide +kernel, by decide +kernel, by decide +kernel, by decide +kernel⟩

/-- The test estate with other summaries in its cache. -/
def summaries (g : GrantSummary) (ov : OverlaySummary) : State :=
  { quiet 0 with cache := [⟨2, 0, .grant g⟩, ⟨1, 0, .grant g⟩, ⟨0, 0, .overlay ov⟩] }

/-- An overlay of one item that bars and one that calls for an escort, within a window or always. -/
def overlayOf (window : Option Window) : OverlaySummary := ⟨⟨12, 3, none⟩, [⟨true, false, window⟩, ⟨false, true, window⟩]⟩

/-- A request that faults in a space of no descriptor and one that is granted; an overlay whose table is Free; each
request of the two discarded by an ESTATE CLEAR; a bar and an escort item active at minute 600 and not; the custodian
of each authority; a window that ends at minute 599, and one that begins at 600. -/
theorem witness_RightsAreJudgedInOrder :
    (resolveGrant anyDecision 63 home (quiet 0)).2 = .error .notGranted ∧
    (let s := { (quiet 0).setSpace 0 ⟨some ⟨.sec, .estate, some 7, 1, true⟩, none, 0, 0⟩ with cache := estateCache 0 |>.take 2 };
      (resolveGrant anyDecision 2 home s).2 = .ok (zoneGrant 0) ∧
      (resolveOverlay anyDecision home (resolveGrant anyDecision 2 home s).1).2 = .error .overlayFault) ∧
    (resolveGrant anyDecision 2 home { quiet 0 with meetings := [clearing] }).2 = .discarded ∧
    (let s := { quiet 0 with meetings := [Meetings.none, clearing] };
      (resolveGrant anyDecision 2 home s).2 = .ok (zoneGrant 0) ∧
      (resolveOverlay anyDecision home (resolveGrant anyDecision 2 home s).1).2 = .discarded) ∧
    (∀ x ∈ [(zoneGrant 0, zoneOverlay), (zoneGrant 3, overlayOf none), (zoneGrant 1, overlayOf (some ⟨600, 1⟩)),
        (zoneGrant 0, overlayOf (some ⟨0, 600⟩)), ({ zoneGrant 0 with custodian := .landlord }, zoneOverlay),
        ({ zoneGrant 0 with windows := [⟨0, 600⟩], escort := true }, zoneOverlay),
        ({ zoneGrant 0 with windows := [⟨600, 1⟩] }, zoneOverlay)],
      (resolveGrant anyDecision 2 home (summaries x.1 x.2)).2 = .ok x.1 ∧
      (resolveOverlay anyDecision home (resolveGrant anyDecision 2 home (summaries x.1 x.2)).1).2 = .ok x.2) ∧
    ((quiet 0).space 2).owner = some .fac ∧ (zoneGrant 0).custodian = .bank ∧
    (job 0).endorsedByLandlord = false ∧ (job 0).endorsedByFacilities = false ∧
    (Window.mk 600 1).contains 600 = true ∧ (Window.mk 0 600).contains 600 = false := by
  refine ⟨by decide +kernel, by decide +kernel, by decide +kernel, by decide +kernel, by decide +kernel,
    by simp [quiet, SpaceRecord.owner], rfl, rfl, rfl, by decide, by decide⟩

/-- The Enter at the second door, as it waits with its grant request made. -/
def twinEntry : Errand :=
  .contractor ⟨⟨1, 0⟩, 21, ⟨12, 4, 5⟩, 2, ⟨21, 2, .technician, false, .idle⟩, { job 0 with home := some ⟨12, 4, 5⟩ },
    ⟨2, none, 20⟩, ⟨400, 600, 0⟩, 1000⟩

/-- The second door's Enter waiting for one of its requests, or for its end. -/
def twinWaits (met : List Meetings) (asks : WaitingFor) : State := { twin met with waiting := [⟨twinEntry, asks⟩] }

/-- The zone 12.4 of the second door, as spaces 2 and 0 speak of it. -/
def twinGrant : GrantSummary := { zoneGrant 0 with covers := ⟨12, 4, none⟩ }

/-- Another decision waits with its grant request made: it is granted, and it faults; with its overlay request made: it
is answered, and it faults; its end leaves the decision of the gate as it is; and an ESTATE CLEAR that meets it, at each
request. -/
theorem witness_RightsAreJudgedInOrder_behind :
    let x : Decision := .contractor gate home 0 (technician .idle)
    let y := twinEntry.party
    let emptied := fun s : State => { s with cache := [] }
    let faulting := fun s : State => s.setSpace 0 ⟨some ⟨.sec, .estate, some 7, 1, true⟩, none, 0, 0⟩
    (resolveGrant y.decision twinEntry.space y.room (twin [])).2 = .ok twinGrant ∧
    (resolveGrant y.decision twinEntry.space y.room (emptied (twin []))).2 = .error .length ∧
    (let t := (resolveGrant y.decision twinEntry.space y.room (emptied (twin []))).1;
      x.keeps home t (t.resume (.error .length) twinEntry) = true) ∧
    (resolveOverlay y.decision y.room (twin [])).2 = .ok ⟨⟨12, 4, none⟩, []⟩ ∧
    (resolveOverlay y.decision y.room (faulting (emptied (twin [])))).2 = .error .overlayFault ∧
    (let t := (resolveOverlay y.decision y.room (twin [])).1;
      x.keeps home t (t.resume (twinEntry.judge t twinGrant ⟨⟨12, 4, none⟩, []⟩) twinEntry) = true) ∧
    (let clear : Instr := .estateClear .sec (.fields {});
      ∀ asks ∈ [WaitingFor.grant, .overlay twinGrant],
        (twinWaits [Meetings.first clear] asks).waiting = [⟨twinEntry, asks⟩] ∧
        (twinWaits [Meetings.first clear] asks).meetings = [Meetings.first clear] ∧
        (twinWaits [] asks).meetings = []) ∧
    (∀ asks, (twinWaits [] asks).clears (.estateClear .sec (.fields {}))) ∧
    (let b := twin []; makesRequests (.estateClear .sec (.fields {})) = false ∧
      (exec (.estateClear .sec (.fields {})) b = .next (after (.estateClear .sec (.fields {})) b)) ∧
      (b.port .sec).buffer = none ∧ (b.port .sec).reply = none ∧ x.port ≠ some .sec ∧ y.decision.port ≠ some .sec) := by
  refine ⟨by decide +kernel, by decide +kernel, by decide +kernel, by decide +kernel, by decide +kernel,
    by decide +kernel, fun asks _ => ⟨rfl, rfl, rfl⟩, fun asks => ⟨⟨{}, rfl⟩, fun j => ?_⟩, rfl, rfl, ?_⟩
  · show (quiet 0).record j = none
    simp [quiet]
  · decide +kernel

/-- The last minute of a window past midnight, a window of the whole day, and the ends of every range. -/
theorem witness_WindowTestAndRemaining :
    (let w : Window := ⟨1439, 1440⟩; w.start ≤ 1439 ∧ w.length ≤ 1440 ∧ w.contains 0 = true) ∧
    (let w : Window := ⟨1320, 600⟩; w.length < 1440 ∧ w.contains 479 = true ∧ w.contains 480 = false) ∧
    (let w : Window := ⟨0, 0⟩; w.contains 0 = false) ∧ (1439 : Nat) ≤ 1439 ∧
    (⟨400, 1390, 59⟩ : ClockTime).second ≤ 59 := by decide

/-! ### Clock, posture, site allowances, timings, power-on and clear -/

/-- The test estate with work order 1 in another state. -/
def jobIn (state : WorkOrderState) : State := (quiet 0).setWorkOrder 1 (some { job 0 with state := state })

/-- The test estate with other terms in work order 1. -/
def jobWith (w : WorkOrder) : State := (quiet 0).setWorkOrder 1 (some w)

theorem jobWith_takes (w : WorkOrder) (p : Authority) (code : Byte) (bytes : List Byte) :
    (jobWith w).takes p code bytes := takes_of_port (by simp [jobWith, quiet]) ..

/-- The candidate that the test estate's one option makes. -/
def onlyCandidate : Candidate := ⟨1, 6, 0, 1440⟩

theorem onlyCandidate_bestOf (w : WorkOrder) : w.bestOf [.ok onlyCandidate] onlyCandidate :=
  ⟨by simp, by simp, fun c h => .inl (by simpa using h)⟩

/-- The terms of the selections: a minimum met exactly, one missed by one and one missed and refused, and an option
whose window holds no minute. -/
def minimum (n : Nat) (refuse : Bool) : WorkOrder := { job 0 with requiredMinimum := n, refuseOnShortfall := refuse }
/-- A work order whose one option is never in its window. -/
def neverOpen : WorkOrder := { job 0 with options := [⟨2, some ⟨0, 1⟩, 20⟩] }

/-- Facilities; minute 1440 and second 60; the last minute of a day; a new day after the last day of work order 1, with
its technician in the room and with none; the same day; and a Pending and a Lapsed work order. -/
theorem witness_SetClockSetsAndHandsOn :
    (State.reset.waiting = [] ∧ State.reset.takes .fac 10 (SetClockArgs.encode ⟨0, 0, 0⟩) ∧ Authority.fac ≠ .sec) ∧
    (State.reset.takes .sec 10 (SetClockArgs.encode ⟨0, 1440, 60⟩) ∧ 1439 < (1440#16).toNat ∧ 59 < (60#8).toNat) ∧
    ((within .idle).waiting = [] ∧ (within .idle).takes .sec 10 (SetClockArgs.encode ⟨403, 1439, 59⟩) ∧ (1439#16).toNat ≤ 1439 ∧
      (59#8).toNat ≤ 59 ∧ (within .idle).workOrder 1 = some (job 2) ∧ (job 2).isClosing = false ∧
      (∀ c, (within .idle).clock = some c → c.day ≠ (403#16).toNat) ∧
      (∃ first last, (job 2).days = some (first, last) ∧ last < (403#16).toNat) ∧
      (within .idle).hasCounted 1 = true) ∧
    ((quiet 0).workOrder 1 = some (job 0) ∧ (quiet 0).hasCounted 1 = false) ∧
    ((∀ last, (∃ first, (job 0).days = some (first, last)) → ¬ last < (402#16).toNat) ∧ (job 0).state = .active) ∧
    ((jobIn .pending).workOrder 1 = some { job 0 with state := .pending }) ∧
    ((jobIn .lapsed).workOrder 1 = some { job 0 with state := .lapsed }) := by
  refine ⟨⟨rfl, takes_reset .., by decide⟩, ⟨takes_reset .., by decide⟩,
    ⟨rfl, takes_estate .., by decide, by decide, by simp [within, counted, PermitState.counted], rfl, ?_,
      ⟨400, 402, rfl, by decide⟩, by decide +kernel⟩,
    ⟨quiet_job 0, by decide +kernel⟩, ⟨?_, rfl⟩, by simp [jobIn], by simp [jobIn]⟩
  · intro c hc
    obtain rfl : _ = c := by simpa [within] using hc
    decide
  · rintro last ⟨first, h⟩
    obtain ⟨-, rfl⟩ : 400 = first ∧ 402 = last := by simpa [job] using h
    decide

/-- Work order 1, Active and Lapsed, alone among such, at a clock set within its days: its best option meets the
required minimum exactly, misses it by one, and is refused for it; and its option is outside its window. -/
theorem witness_SetClockSetsAndHandsOn_selection :
    let time : ClockTime := ⟨402, 1439, 59⟩
    (∀ w, (jobWith w).waiting = [] ∧ (jobWith w).takes .sec 10 (SetClockArgs.encode ⟨402, 1439, 59⟩) ∧ (jobWith w).workOrder 1 = some w ∧
      (jobWith w).meetings = [] ∧
      (∀ m v, m ≠ 0 → m ≠ 1 → (jobWith w).workOrder m = some v → v.state ≠ .active ∧ v.state ≠ .lapsed)) ∧
    (∀ state ∈ [WorkOrderState.active, .lapsed],
      (∀ x ∈ [(6, true), (7, false), (7, true)], let w := { minimum x.1 x.2 with state := state };
        (∀ first last, w.days = some (first, last) → ¬ last < (402#16).toNat) ∧
        (testOptions (.selection (some .sec) 1 []) ⟨some time, (jobWith w).count⟩ w 1 w.options
          { jobWith w with clock := some time }).2 = [.ok onlyCandidate]) ∧
      (let w := { neverOpen with state := state };
        (testOptions (.selection (some .sec) 1 []) ⟨some time, (jobWith w).count⟩ w 1 w.options
          { jobWith w with clock := some time }).2 = [DenyCode.outsideWindow].map .error)) := by
  refine ⟨fun w => ⟨rfl, jobWith_takes .., by simp [jobWith], rfl, fun m v h0 h1 h => ?_⟩, fun state hs => ⟨fun x hx =>
    ⟨fun first last h => ?_, ?_⟩, ?_⟩⟩
  · simp [jobWith, State.setWorkOrder_workOrder, quiet, h0, h1] at h
  · obtain ⟨-, rfl⟩ : 400 = first ∧ 402 = last := by simpa [minimum, job] using h
    decide
  · revert state x
    decide +kernel
  · revert state
    decide +kernel

/-- Work order 1 Lapsed at the last second of minute 600, with other terms. -/
def lapsedWith (w : WorkOrder) : State :=
  { (quiet 0).setWorkOrder 1 (some { w with state := .lapsed }) with clock := some ⟨400, 600, 59⟩ }

/-- What the options of a Lapsed work order come to at the new minute. -/
def lapsedTested (w : WorkOrder) : List (Resolution Candidate) :=
  let s1 := { lapsedWith w with count := 1001, clock := some ⟨400, 601, 0⟩ }
  (testOptions (.selection none 1 []) s1.reading w 1 w.options s1).2

/-- The cases: Unset; second 58; second 59 of minute 1438, with no Lapsed work order and with one, in each outcome of
its test; a test discarded; and the last second of day 65535. -/
theorem witness_TickAdvancesClock :
    (State.reset.waiting = [] ∧ State.reset.clock = none ∧
      ({ quiet 0 with clock := some ⟨400, 1439, 58⟩ } : State).clock = some ⟨400, 1439, 58⟩ ∧
      ({ quiet 0 with clock := some ⟨400, 1438, 59⟩ } : State).clock = some ⟨400, 1438, 59⟩ ∧
      (∀ n w, State.reset.workOrder n = some w → w.state ≠ .lapsed) ∧
      ({ quiet 0 with clock := some ⟨65535, 1439, 59⟩ } : State).clock = some ⟨65535, 1439, 59⟩) ∧
    (∀ w, (lapsedWith w).waiting = [] ∧ (lapsedWith w).workOrder 1 = some { w with state := .lapsed } ∧
      ∀ m v, m ≠ 1 → (lapsedWith w).workOrder m = some v → v.state ≠ .lapsed) ∧
    (∀ w ∈ [minimum 6 true, minimum 7 false, minimum 7 true], lapsedTested w = [.ok onlyCandidate]) ∧
    lapsedTested neverOpen = [DenyCode.outsideWindow].map .error ∧
    (let s1 := { lapsedWith (job 0) with count := 1001, clock := some ⟨400, 601, 0⟩, meetings := [clearing] };
      .discarded ∈ (testOptions (.selection none 1 []) s1.reading (job 0) 1 (job 0).options s1).2) ∧
    (quiet 0).meetingsSpare [.count, .clock, .workOrders] ∧
    ({ quiet 0 with meetings := [purging] } : State).meetingsSpare [.count, .clock, .workOrders] := by
  refine ⟨⟨rfl, rfl, rfl, rfl, fun n w h => ?_, rfl⟩, fun w => ⟨rfl, ?_, fun m v hm h => ?_⟩, by decide +kernel, by decide +kernel,
    by decide +kernel, meetingsSpare_nil rfl (by simp), by
      simp [State.meetingsSpare, State.mayMeet, purging, Meetings.first, Meetings.rows, mayChange]⟩
  · rw [reset_workOrder] at h
    split_ifs at h
    obtain rfl : _ = w := by simpa using h
    simp [WorkOrder.escortRoster]
  · exact State.setWorkOrder_workOrder .. |>.trans (if_pos rfl)
  · have h : ((quiet 0).setWorkOrder 1 (some { w with state := .lapsed })).workOrder m = some v := h
    simp only [State.setWorkOrder_workOrder, hm, ↓reduceIte, quiet, estate_workOrder] at h
    split_ifs at h
    obtain rfl : _ = v := by simpa using h
    simp [WorkOrder.escortRoster]

/-- The last second of day 402, the last day of work order 1, with its technician in the room and with none; and of
day 401. -/
theorem witness_DayChangeExpiresWorkOrders :
    (let s := { within .idle with clock := some ⟨402, 1439, 59⟩ };
      s.waiting = [] ∧ s.clock = some ⟨402, 1439, 59⟩ ∧ s.workOrder 1 = some (job 2) ∧ (job 2).isClosing = false ∧
      (∃ first last, (job 2).days = some (first, last) ∧ last < 402 + 1) ∧ s.hasCounted 1 = true ∧
      s.permit 0 = some (technician (.inside stay))) ∧
    (let s := { quiet 0 with clock := some ⟨402, 1439, 59⟩ };
      s.workOrder 1 = some (job 0) ∧ s.hasCounted 1 = false ∧ s.permit 0 = some (technician .idle)) ∧
    (∀ last, (∃ first, (job 0).days = some (first, last)) → ¬ last < 401 + 1) ∧
    (65534 : Nat) < 65535 ∧
    (within .idle).meetingsSpare [.count, .clock, .workOrders, .permits] := by
  refine ⟨⟨rfl, rfl, within_job _, rfl, ⟨400, 402, rfl, by decide⟩, by decide +kernel,
    within_technician _⟩, ⟨quiet_job 0, by decide +kernel, quiet_technician 0⟩, ?_,
    by decide, meetingsSpare_nil rfl (by simp)⟩
  rintro last ⟨first, h⟩
  obtain ⟨-, rfl⟩ : 400 = first ∧ 402 = last := by simpa [job] using h
  decide

/-- Facilities; code 3; Lockdown with a pairing at the gate, with an Enter in Passage Open, with an unsent Open at an
Idle door, and with the frame of an Open to an Enter in flight; and Restricted. -/
theorem witness_SetPostureActsOnDoorsAndFlags :
    (State.reset.takes .fac 11 (SetPostureArgs.encode ⟨0⟩) ∧ 2 < (3#8).toNat) ∧
    (let s := paired (firstStep 1 (.running 1020)) 2;
      s.takes .sec 11 (SetPostureArgs.encode ⟨2⟩) ∧ (2 : Byte) = postureValue .lockdown ∧ s.pairingsSound ∧
      s.permitsSound ∧ s.posture ≠ .lockdown ∧ (s.door gate).admission = .pairing 0 (values 2)) ∧
    ((entering none).pairingsSound ∧ ((entering none).door gate).admission = .openEnter [⟨0, [], none⟩] none ∧
      (entering none).booksBalance ∧ (entering none).reservedAt (fun _ => true) 0 = true) ∧
    (let s := (quiet 0).setDoor gate { gateWith .idle with outgoing := [⟨.admitted, [20], false⟩] };
      s.takes .sec 11 (SetPostureArgs.encode ⟨2⟩) ∧ s.pairingsSound ∧ s.permitsSound ∧
      (s.door gate).admission = .idle ∧ s.posture ≠ .lockdown) ∧
    (∀ v : Verdict, let s := (quiet 0).setLane 0 ⟨0, false, .sendingVerdict v, []⟩;
      s.takes .sec 11 (SetPostureArgs.encode ⟨2⟩) ∧ s.pairingsSound ∧ s.permitsSound ∧ s.posture ≠ .lockdown ∧
      (s.lane 0).phase = .sendingVerdict v) ∧
    ((quiet 0).takes .sec 11 (SetPostureArgs.encode ⟨1⟩) ∧ (1 : Byte) = postureValue .restricted ∧
      (quiet 0).pairingsSound) := by
  have hq := estate_booksBalance (quiet_pairingsSound 0)
  have hd := booksBalance_setDoor (d := gate) (x := { gateWith .idle with outgoing := [⟨.admitted, [20], false⟩] }) hq
    (by simp [gateWith, Admission.contractorSpace]) rfl
  exact ⟨⟨takes_reset .., by decide⟩, ⟨takes_estate .., rfl, paired_pairingsSound ..,
    (estate_booksBalance (paired_pairingsSound 1 (.running 1020) 2)).2.2.2.1, by simp [paired],
    by simp [paired, gateWith]⟩, ⟨estate_pairingsSound_none _ _ _ _ _ rfl, by simp [entering, gateWith],
    entering_booksBalance none, by decide +kernel⟩, ⟨takes_of_port (by simp [quiet]) .., hd.2.2.2.2.1, hd.2.2.2.1,
    by simp [gateWith], by simp [quiet]⟩, fun v => ⟨takes_of_port (by simp [quiet]) .., quiet_pairingsSound 0,
    hq.2.2.2.1, by simp [quiet], by simp⟩, takes_estate .., rfl, quiet_pairingsSound 0⟩

/-- Site 128; and site 12, whose one record goes over the allowance of Lockdown. -/
theorem witness_SetSiteAllowanceEvaluatesSite :
    (State.reset.takes .sec 12 (SetSiteAllowanceArgs.encode ⟨128, 0, 0⟩) ∧ 127 < (128#8).toNat) ∧
    (let s := { within .idle with posture := .lockdown };
      s.takes .sec 12 (SetSiteAllowanceArgs.encode ⟨12, 255, 64⟩) ∧ (12#8).toNat = (12 : SiteNo).val ∧
      s.record 0 = some occupied ∧ occupied.room.site = 12 ∧ occupied.overAllowance = false ∧ 0 < occupied.load ∧
      ∀ j o', s.record j = some o' → o'.room.site = 12 → j = 0) := by
  refine ⟨⟨takes_reset .., by decide⟩, takes_of_port (show (within .idle).port .sec = _ from estate_port ..) .., rfl,
    within_record _, rfl, rfl, by decide, fun j o' h _ => ?_⟩
  have h : (within .idle).record j = some o' := h
  simp only [within, estate_record] at h
  split_ifs at h with h0
  exact h0

theorem witness_SetTimingsClampsAndStores :
    State.reset.takes .fac 29 (SetTimingsArgs.encode ⟨0, 255, 14⟩) ∧ Authority.fac ≠ .sec ∧
    State.reset.takes .sec 29 (SetTimingsArgs.encode ⟨0, 255, 14⟩) := ⟨takes_reset .., by decide, takes_reset ..⟩

theorem witness_EstateClearReturnsToPowerOn :
    State.reset.takes .lld 31 [] ∧ ((within .idle).takes .sec 31 [] ∧ ∃ k o, (within .idle).record k = some o) ∧
    ((quiet 0).takes .sec 31 [] ∧ ∀ k, (quiet 0).record k = none) := by
  refine ⟨takes_reset .., ⟨takes_estate .., 0, occupied, by simp [within]⟩, takes_estate .., fun k => ?_⟩
  simp [quiet]

/-! ### Rooms, work orders and permits -/

/-- The test estate with its technician in the home room and revoked, of a work order that is Closing. -/
def leaving (a : Admission) : State :=
  ((within a).setPermit 0 (some { technician (.inside stay) with revoked := true })).setWorkOrder 1
    (some { job 2 with state := .closing .withdrawn })

/-- The last permit inside of a Closing work order, revoked; and with a second one, Inside too. -/
theorem leaving_lastCounted (a : Admission) :
    (leaving a).lastCounted 0 { technician (.inside stay) with revoked := true }
      { job 2 with state := .closing .withdrawn } ∧
    ¬ ((leaving a).setPermit 2 (some { technician (.inside stay) with credential := 21 })).lastCounted 0
      { technician (.inside stay) with revoked := true } { job 2 with state := .closing .withdrawn } := by
  refine ⟨⟨rfl, fun m r hm h hw => ?_⟩, fun h => ?_⟩
  · simp only [leaving, within, State.setWorkOrder_permit, State.setPermit_permit, estate_permit, hm, ↓reduceIte] at h
    split_ifs at h
    obtain rfl : escort .idle = r := by simpa using h
    rfl
  · simpa [technician, PermitState.counted] using
      h.2 2 { technician (.inside stay) with credential := 21 } (by decide) (by simp) rfl

theorem leaving_permitsSound (a : Admission) : (leaving a).permitsSound := by
  intro n p hn
  have hw : ∀ w, (leaving a).workOrder w = if w = 1 then some { job 2 with state := .closing .withdrawn }
      else if w = 0 then some { WorkOrder.escortRoster with party := 0 } else none := fun w => by
    simp only [leaving, within, State.setWorkOrder_workOrder, State.setPermit_workOrder, estate_workOrder]
    split_ifs <;> simp [counted, PermitState.counted]
  simp only [leaving, within, State.setWorkOrder_permit, State.setPermit_permit, estate_permit] at hn
  split_ifs at hn with h0 h1
  · obtain rfl := (by simpa using hn : _ = p)
    exact ⟨by simp [technician], fun _ => rfl, _, hw 1, fun _ => rfl⟩
  · obtain rfl : escort .idle = p := by simpa using hn
    exact ⟨by simp [escort], by simp [escort], _, hw 0, by simp [WorkOrder.isClosing, WorkOrder.escortRoster]⟩

/-- Facilities; a permit that is not Inside; one Inside whose Exit its door is open for; and one Inside, revoked, the
last of a Closing work order. -/
theorem witness_ForceExitTakesPermitOut :
    State.reset.takes .fac 13 (NumberArgs.encode ⟨0⟩) ∧
    (State.reset.takes .sec 13 (NumberArgs.encode ⟨255⟩) ∧
      ∀ q st, State.reset.permit (permitNo 255) = some q → q.state ≠ .inside st) ∧
    (let s := within (.openExit (some 0) none);
      s.takes .sec 13 (NumberArgs.encode ⟨0⟩) ∧ s.recordsSound ∧ permitNo 0 = 0 ∧
      s.permit 0 = some (technician (.inside stay)) ∧ s.record 0 = some occupied ∧ occupied.room = stay.room ∧
      s.workOrder 1 = some (job 2) ∧ ¬ s.lastCounted 0 (technician (.inside stay)) (job 2) ∧
      ¬ s.allowanceAt home occupied.guaranteed occupied.ceiling < occupied.load - 2) ∧
    (let s := leaving .idle;
      s.takes .sec 13 (NumberArgs.encode ⟨0⟩) ∧ s.recordsSound ∧ s.permitsSound ∧
      s.permit 0 = some { technician (.inside stay) with revoked := true } ∧ s.record 0 = some occupied ∧
      s.workOrder 1 = some { job 2 with state := .closing .withdrawn }) := by
  refine ⟨takes_reset .., ⟨takes_reset .., by simp⟩, ⟨takes_estate .., within_recordsSound _, rfl, by simp [within],
    by simp [within], rfl, by simp [within, counted, PermitState.counted], fun h => absurd h.1 (by decide),
    by decide +kernel⟩,
    takes_of_port (by simp [leaving, within]) .., within_recordsSound .idle, leaving_permitsSound _, by simp [leaving], by simp [leaving, within],
    by simp [leaving]⟩

/-- Two options in space 2 of the test estate, the second with a window that ends past midnight. -/
def twoOptions : CreateWorkOrderArgs :=
  ⟨[⟨2, none, 127⟩, ⟨2, some (1439, 1440), 1⟩], ⟨12, 3, 17⟩, 127, 255, 1, 1, 65535, 65535⟩

/-- A work-order table with no unused record. -/
def fullWorkOrders : State := { quiet 0 with workOrders := Vector.replicate 64 (some (job 0)) }

/-- No option at all; Security; an option in a space of another; a full table; and record 2, the lowest unused. -/
theorem witness_CreateWorkOrderTakesOrRefuses :
    (∀ options : List WorkOption, List.Forall₂ carriesOption [] options → ¬ 1 ≤ options.length) ∧
    (List.Forall₂ carriesOption twoOptions.options [⟨2, none, 127⟩, ⟨2, some ⟨1439, 1440⟩, 1⟩] ∧
      carriesRoom twoOptions.home home ∧ twoOptions.requiredMinimum.toNat ≤ 127 ∧ twoOptions.preference.toNat ≤ 1 ∧
      twoOptions.refuseOnShortfall.toNat ≤ 1 ∧ twoOptions.firstDay.toNat ≤ twoOptions.lastDay.toNat) ∧
    (∀ p, (quiet 0).takes p 15 twoOptions.encode) ∧ ((quiet 0).space 2).owner ≠ some .lld ∧
    ((quiet 0).space 2).owner = some .fac ∧
    (fullWorkOrders.takes .fac 15 twoOptions.encode ∧ (∀ n, fullWorkOrders.workOrder n ≠ none) ∧
      (fullWorkOrders.space 2).owner = some .fac) ∧
    ((quiet 0).workOrder 2 = none ∧ ∀ m : WorkOrderNo, m ≠ 0 → m < 2 → (quiet 0).workOrder m ≠ none) := by
  refine ⟨fun options h => ?_, ⟨?_, by simp [carriesRoom, twoOptions, home], by decide⟩, fun p => takes_estate ..,
    by simp [quiet, SpaceRecord.owner], by simp [quiet, SpaceRecord.owner],
    ⟨takes_of_port (show (quiet 0).port .fac = _ from estate_port ..) .., fun n => ?_, ?_⟩, by simp [quiet],
    fun m h0 h2 => ?_⟩
  · cases h
    simp
  · refine .cons ?_ (.cons ?_ .nil) <;> simp [carriesOption]
  · have : fullWorkOrders.workOrder n = some (job 0) := vector_get_replicate ..
    simp [this]
  · show ((quiet 0).space 2).owner = some .fac
    simp [quiet, SpaceRecord.owner]
  · have : m = 1 := by
      have h3 := Fin.lt_def.mp h2
      have h4 : (2 : WorkOrderNo).val = 2 := rfl
      simp only [Fin.ext_iff, ne_eq, Fin.val_zero, Fin.val_one] at *
      omega
    simp [quiet, this]

/-- Work order 64 and value 2; Security, work order 0 and an unused one; the issuer; a Closing one; and Landlord's
endorsement. -/
theorem witness_EndorseWritesOwnFlag :
    ((quiet 0).takes .lld 16 (EndorseArgs.encode ⟨64, 2⟩) ∧ 63 < (64#8).toNat ∧ 1 < (2#8).toNat) ∧
    ((quiet 0).takes .lld 16 (EndorseArgs.encode ⟨63, 1⟩) ∧ (63#8).toNat = (63 : WorkOrderNo).val ∧
      (quiet 0).workOrder 63 = none) ∧
    ((∀ p, (quiet 0).takes p 16 (EndorseArgs.encode ⟨1, 1⟩)) ∧ (1#8).toNat = (1 : WorkOrderNo).val ∧
      (quiet 0).workOrder 1 = some (job 0) ∧ (job 0).issuer = .fac ∧ ∀ cause, (job 0).state ≠ .closing cause) ∧
    ((jobIn (.closing .withdrawn)).takes .lld 16 (EndorseArgs.encode ⟨1, 1⟩) ∧
      (jobIn (.closing .withdrawn)).workOrder 1 = some { job 0 with state := .closing .withdrawn }) ∧
    (let s := (quiet 0).setWorkOrder 1 (some { job 0 with issuer := .lld });
      s.takes .fac 16 (EndorseArgs.encode ⟨1, 0⟩) ∧ s.workOrder 1 = some { job 0 with issuer := .lld }) := by
  refine ⟨⟨takes_estate .., by decide⟩, ⟨takes_estate .., rfl, by simp [quiet]⟩,
    ⟨fun p => takes_estate .., rfl, quiet_job 0, rfl, by simp [job]⟩,
    ⟨takes_of_port (by simp [jobIn, quiet]) .., by simp [jobIn]⟩, takes_of_port (by simp [quiet]) .., by simp⟩

/-- Work order 64; one of another; a Closing one; a best option that meets the required minimum exactly, that misses it
by one, and that is refused for it; and no option eligible; each for a work order that is Active and for one that
is not; and a selection discarded. -/
theorem witness_ActivateSelectsBestOption :
    ((quiet 0).takes .fac 17 (NumberArgs.encode ⟨64⟩) ∧ 63 < (64#8).toNat) ∧
    ((quiet 0).takes .lld 17 (NumberArgs.encode ⟨1⟩) ∧ (1#8).toNat = (1 : WorkOrderNo).val ∧
      ∀ w, (quiet 0).workOrder 1 = some w → w.issuer ≠ .lld) ∧
    ((jobIn (.closing .expired)).takes .fac 17 (NumberArgs.encode ⟨1⟩) ∧
      ({ job 0 with state := .closing .expired } : WorkOrder).isClosing = true) ∧
    (∀ w, (jobWith w).waiting = [] ∧ (jobWith w).takes .fac 17 (NumberArgs.encode ⟨1⟩) ∧ (jobWith w).workOrder 1 = some w ∧
      (jobWith w).clock = some ⟨400, 600, 0⟩ ∧ (jobWith w).meetings = []) ∧
    (∀ x ∈ [(6, true), (7, false), (7, true)], ∀ state ∈ [WorkOrderState.pending, .active, .lapsed],
      let w := { minimum x.1 x.2 with state := state };
      (testOptions (.selection (some .fac) 1 []) (jobWith w).reading w 1 w.options (jobWith w)).2 =
        [.ok onlyCandidate]) ∧
    (onlyCandidate.cap = 6 ∧ ∀ w : WorkOrder, w.bestOf [.ok onlyCandidate] onlyCandidate) ∧
    (∀ state ∈ [WorkOrderState.pending, .active],
      let w := { neverOpen with state := state };
      (testOptions (.selection (some .fac) 1 []) (jobWith w).reading w 1 w.options (jobWith w)).2 =
        [DenyCode.outsideWindow].map .error) ∧
    (let s := { jobWith (job 0) with meetings := [clearing] };
      s.takes .fac 17 (NumberArgs.encode ⟨1⟩) ∧ s.workOrder 1 = some (job 0) ∧
      .discarded ∈ (testOptions (.selection (some .fac) 1 []) s.reading (job 0) 1 (job 0).options (s.reserveReply .fac)).2) := by
  refine ⟨⟨takes_estate .., by decide⟩, ⟨takes_estate .., rfl, fun w h => ?_⟩,
    ⟨takes_of_port (by simp [jobIn, quiet]) .., rfl⟩,
    fun w => ⟨rfl, jobWith_takes .., by simp [jobWith], rfl, rfl⟩, by decide +kernel, ⟨rfl, onlyCandidate_bestOf⟩,
    by decide +kernel, jobWith_takes (job 0) .., show (jobWith (job 0)).workOrder 1 = _ by simp [jobWith], by decide +kernel⟩
  obtain rfl : _ = w := by simpa [quiet] using h
  simp [job]

/-- The grant summary of the home room as an option may find it: with an escort called for, and with two windows. -/
def homeGrants : List GrantSummary :=
  [zoneGrant 0, zoneGrant 2, { zoneGrant 0 with escort := true }, { zoneGrant 0 with windows := [⟨540, 61⟩, ⟨600, 1440⟩] }]

/-- One option: the clock Unset; the days before, at and after the ends of a range; a window that ends at the minute and
one that ends behind it; and rights that fail, that are discarded, and that are granted, in each posture and with each
summary. -/
theorem witness_ActivateSelectsBestOption_test :
    let x : Decision := .selection (some .fac) 1 []
    let rights := fun t : State => (checkRights x 2 home (job 0) none 600 t).2
    State.reset.reading.clock = none ∧ (quiet 0).reading.clock = some ⟨400, 600, 0⟩ ∧
    ((job 0).days = some (400, 402) ∧ ¬ 400 ≤ 399 ∧ 400 ≤ 402 ∧ ¬ 403 ≤ 402 ∧ (job 0).home = some home) ∧
    (Window.contains ⟨540, 60⟩ 600 = false ∧ Window.contains ⟨540, 61⟩ 600 = true) ∧
    rights { quiet 0 with cache := [] } = .error .length ∧ rights { quiet 0 with meetings := [clearing] } = .discarded ∧
    ∀ g ∈ homeGrants, ∀ posture ∈ [Posture.normal, .restricted, .lockdown],
      rights { quiet 0 with posture := posture, cache := [⟨2, 0, .grant g⟩, ⟨0, 0, .overlay zoneOverlay⟩] } =
        .ok (g, zoneOverlay) := by
  decide +kernel

/-- The test estate with other terms in work order 1, at its selection deadline. -/
def dueWith (w : WorkOrder) (clock : Option ClockTime) : State := { jobWith w with count := 86400, clock := clock }

/-- What the options of the work order come to at its deadline. -/
def dueTested (w : WorkOrder) (meetings : List Meetings) : List (Resolution Candidate) :=
  let s := { dueWith w (some ⟨400, 600, 0⟩) with meetings := meetings }
  (testOptions (.selection none 1 []) s.reading w 1 w.options s).2

/-- One second before the selection deadline; and at it, in each outcome of the selection, discarded,
and with the clock Unset. -/
theorem witness_SelectionDeadlineReselectsOrLapses :
    (let s := { quiet 0 with count := 86399 };
      s.workOrder 1 = some (job 0) ∧ (job 0).deadline = some 86400 ∧ s.count < 86400) ∧
    (∀ w clock, (dueWith w clock).waiting = [] ∧ (dueWith w clock).workOrder 1 = some w ∧ (dueWith w clock).clock = clock ∧
      86400 ≤ (dueWith w clock).count) ∧
    (∀ w ∈ [minimum 6 true, minimum 7 false, minimum 7 true], w.state = .active ∧ w.deadline = some 86400 ∧
      (dueTested w []) = [.ok onlyCandidate]) ∧
    (neverOpen.state = .active ∧ neverOpen.deadline = some 86400 ∧
      dueTested neverOpen [] = [DenyCode.outsideWindow].map .error) ∧
    (.discarded ∈ dueTested (job 0) [clearing]) :=
  ⟨⟨quiet_job 0, rfl, by decide⟩, fun w clock =>
    ⟨rfl, show (jobWith w).workOrder 1 = _ by simp [jobWith], rfl, show 86400 ≤ 86400 from le_refl _⟩, by decide +kernel,
    by decide +kernel, by decide +kernel⟩

/-- Work order 64; work order 0; another's; a Closing one; and, for its issuer, one with its technician in the room, and
one whose technician a pairing holds. -/
theorem witness_WithdrawClosesWorkOrder :
    ((quiet 0).takes .fac 18 (NumberArgs.encode ⟨64⟩) ∧ 63 < (64#8).toNat) ∧
    ((quiet 0).takes .lld 18 (NumberArgs.encode ⟨1⟩) ∧ (quiet 0).workOrder 1 = some (job 0) ∧
      (job 0).issuer ≠ .lld ∧ Authority.lld ≠ .sec) ∧
    (jobIn (.closing .expired)).takes .sec 18 (NumberArgs.encode ⟨1⟩) ∧
    (let s := within .idle;
      s.takes .fac 18 (NumberArgs.encode ⟨1⟩) ∧ s.workOrder 1 = some (job 2) ∧ (job 2).issuer = .fac ∧
      (job 2).isClosing = false ∧ s.pairingsSound ∧ s.hasCounted 1 = true ∧
      s.permit 0 = some (technician (.inside stay)) ∧ (technician (.inside stay)).state.counted = true) ∧
    (∀ k x m q, (quiet 0).slot k = some x → x.holds m = true → (quiet 0).permit m = some q → q.workOrder ≠ 1) ∧
    (let s := paired (firstStep 1 (.running 1020)) 2;
      s.takes .fac 18 (NumberArgs.encode ⟨1⟩) ∧ s.workOrder 1 = some (job 0) ∧ s.pairingsSound ∧
      s.slot 0 = some (firstStep 1 (.running 1020)) ∧ (firstStep 1 (.running 1020)).holds 0 = true ∧
      s.permit 0 = some (technician .idle) ∧ (technician .idle).workOrder = 1) := by
  refine ⟨⟨takes_estate .., by decide⟩, ⟨takes_estate .., quiet_job 0, by decide,
    by decide⟩, takes_of_port (by simp [jobIn, quiet]) .., ⟨takes_estate .., by simp [within, counted,
    PermitState.counted], rfl, rfl, estate_pairingsSound_none _ _ _ _ _ rfl, by decide +kernel, by simp [within], rfl⟩,
    by simp [quiet], takes_estate .., by simp [paired, counted, PermitState.counted], paired_pairingsSound .., by simp [paired], rfl,
    by simp [paired], rfl⟩

/-- A permit table with no unused record. -/
def fullPermits : State := { quiet 0 with permits := Vector.replicate 256 (some (technician .idle)) }

/-- Work order 64, credential 0, role 4, and a role that does not fit its work order; an unused work order; a sender not
the issuer; a Closing one; the duplicate told and not told; a full table; and record 2. -/
theorem witness_IssuePermitTakesOrRefuses :
    ((quiet 0).takes .fac 20 (IssuePermitArgs.encode ⟨64, 0, 4⟩) ∧ 63 < (64#8).toNat ∧ 3 < (4#8).toNat) ∧
    ((quiet 0).takes .fac 20 (IssuePermitArgs.encode ⟨63, 4294967295, 2⟩) ∧ (63#8).toNat = (63 : WorkOrderNo).val ∧
      (2 : Byte) = roleValue .supervisor ∧ (4294967295 : Word32) ≠ 0 ∧ (quiet 0).workOrder 63 = none) ∧
    ((quiet 0).takes .lld 20 (IssuePermitArgs.encode ⟨1, 21, 0⟩) ∧ (quiet 0).workOrder 1 = some (job 0) ∧
      (job 0).issuer ≠ .lld) ∧
    ((jobIn (.closing .expired)).takes .fac 20 (IssuePermitArgs.encode ⟨1, 21, 0⟩) ∧
      ({ job 0 with state := .closing .expired } : WorkOrder).isClosing = true) ∧
    ((quiet 0).takes .fac 20 (IssuePermitArgs.encode ⟨1, 20, 0⟩) ∧ (quiet 0).credentialsDistinct ∧
      (quiet 0).permit 0 = some (technician .idle) ∧ (technician .idle).credential = 20 ∧
      (quiet 0).issuer 1 = .fac) ∧
    ((quiet 0).takes .fac 20 (IssuePermitArgs.encode ⟨1, 3, 0⟩) ∧ (quiet 0).permit 1 = some (escort .idle) ∧
      (escort .idle).credential = 3 ∧ (quiet 0).issuer 0 ≠ .fac) ∧
    (fullPermits.takes .fac 20 (IssuePermitArgs.encode ⟨1, 21, 0⟩) ∧ (∀ n, fullPermits.permit n ≠ none) ∧
      ∀ n q, fullPermits.permit n = some q → q.credential ≠ 21) ∧
    ((quiet 0).permit 2 = none ∧ (∀ m < (2 : PermitNo), (quiet 0).permit m ≠ none) ∧
      ∀ n q, (quiet 0).permit n = some q → q.credential ≠ 21) := by
  have hf : ∀ n, fullPermits.permit n = some (technician .idle) := fun n => vector_get_replicate ..
  refine ⟨⟨takes_estate .., by decide⟩, ⟨takes_estate .., rfl, rfl, by decide, by simp [quiet]⟩,
    ⟨takes_estate .., quiet_job 0, by decide⟩,
    ⟨takes_of_port (by simp [jobIn, quiet]) .., rfl⟩,
    ⟨takes_estate .., estate_credentialsDistinct 0 .idle none .idle .idle none, by simp [quiet], rfl, by simp [quiet, State.issuer, job]⟩,
    ⟨takes_estate .., by simp [quiet], rfl, by simp [quiet, State.issuer, WorkOrder.escortRoster]⟩,
    ⟨takes_of_port (show (quiet 0).port .fac = _ from estate_port ..) .., by simp [hf], fun n q h => ?_⟩,
    by simp [quiet], fun m h => ?_, fun n q h => ?_⟩
  · obtain rfl : _ = q := by simpa [hf] using h
    decide
  · have h2 := Fin.lt_def.mp h
    have h4 : (2 : PermitNo).val = 2 := rfl
    have : m = 1 ∨ m = 0 := by
      simp only [Fin.ext_iff, Fin.val_zero, Fin.val_one]
      omega
    rcases this with rfl | rfl <;> simp [quiet]
  · simp only [quiet, estate_permit] at h
    split_ifs at h <;> obtain rfl := (by simpa using h : _ = q) <;> decide

/-- An unused permit; a sender not the issuer; a permit Inside; an Idle one, for its issuer and for Security; and one
that a pairing holds. -/
theorem witness_RevokeFreesOrMarks :
    ((quiet 0).takes .sec 21 (NumberArgs.encode ⟨255⟩) ∧ (quiet 0).permit (permitNo 255) = none) ∧
    ((quiet 0).takes .lld 21 (NumberArgs.encode ⟨0⟩) ∧ (quiet 0).permit (permitNo 0) = some (technician .idle) ∧
      (quiet 0).issuer 1 = .fac) ∧
    ((within .idle).takes .sec 21 (NumberArgs.encode ⟨0⟩) ∧
      (within .idle).permit (permitNo 0) = some (technician (.inside stay)) ∧
      (technician (.inside stay)).state ≠ .idle) ∧
    (∀ k x, (quiet 0).slot k = some x → x.holds (permitNo 0) = false) ∧
    (let s := paired (firstStep 1 (.running 1020)) 2;
      s.takes .fac 21 (NumberArgs.encode ⟨0⟩) ∧ s.permit (permitNo 0) = some (technician .idle) ∧ s.pairingsSound ∧
      s.slot 0 = some (firstStep 1 (.running 1020)) ∧ (firstStep 1 (.running 1020)).holds (permitNo 0) = true) := by
  have h255 : (quiet 0).permit 255 = none := by simp [quiet]
  have hp : (paired (firstStep 1 (.running 1020)) 2).permit 0 = some (technician .idle) := by simp [paired]
  refine ⟨⟨takes_estate .., h255⟩, ⟨takes_estate .., quiet_technician 0, by simp [quiet, State.issuer, job]⟩,
    ⟨takes_estate .., within_technician _, by simp [technician]⟩, by simp [quiet], takes_estate .., hp,
    paired_pairingsSound .., by simp [paired], rfl⟩

/-! ### Doors, lanes and pairings -/

/-- The state once the gate has answered its poll. -/
def answered (s : State) : State := (s.endTurn 0).announce gate

/-- A permit written anew with the same credential leaves credentials distinct. -/
theorem credentialsDistinct_setPermit {s : State} {n : PermitNo} {q p : Permit} (h : s.credentialsDistinct)
    (hn : s.permit n = some q) (hc : p.credential = q.credential) :
    (s.setPermit n (some p)).credentialsDistinct := by
  intro i j a b hi hj hab
  simp only [State.setPermit_permit] at hi hj
  split_ifs at hi hj with h1 h2 h2
  · exact h1.trans h2.symm
  · obtain rfl : p = a := by simpa using hi
    exact h1.trans (h n j q b hn hj (hc ▸ hab))
  · obtain rfl : p = b := by simpa using hj
    exact (h i n a q hi hn (hc ▸ hab)).trans h2.symm
  · exact h i j a b hi hj hab

theorem quiet_credentialsDistinct (category : Nat) : (quiet category).credentialsDistinct :=
  estate_credentialsDistinct category .idle none .idle .idle none

theorem within_credentialsDistinct (a : Admission) : (within a).credentialsDistinct :=
  estate_credentialsDistinct 0 a none (.inside stay) .idle (some occupied)
theorem paired_credentialsDistinct (x : Slot) (level : Nat) : (paired x level).credentialsDistinct :=
  estate_credentialsDistinct level (.pairing 0 (values level)) (some x) .idle .idle none

/-- The numbers past the range, another's records, unused records read by Security, and records in use; and a switch
waiting with 0, 1 and 120 seconds to go. -/
theorem witness_ReadsAnswerAndChangeNothing :
    ((∀ p, (quiet 0).takes p 8 (NumberArgs.encode ⟨64⟩)) ∧ 63 < (64#8).toNat ∧
      ((quiet 0).space 2).owner ≠ some .lld ∧ ((quiet 0).space 63).current = none ∧
      ((quiet 0).space 2).current = some ⟨.fac, .estate, some 0, 1, false⟩ ∧
      ∀ deadline ∈ [1000, 1001, 1120], ∃ w, ((pairedStaged deadline).space 2).waiting = some w ∧
        w.deadline - (pairedStaged deadline).count = deadline - 1000) ∧
    ((∀ p, (quiet 0).takes p 19 (NumberArgs.encode ⟨64⟩)) ∧
      (∀ w, (quiet 0).workOrder 1 = some w → w.issuer ≠ .lld) ∧ (quiet 0).workOrder 63 = none ∧
      (quiet 0).workOrder 1 = some (job 0) ∧ (job 0).issuer = .fac) ∧
    ((∀ p, (quiet 0).takes p 22 (NumberArgs.encode ⟨0⟩)) ∧ (quiet 0).permit (permitNo 0) = some (technician .idle) ∧
      (quiet 0).issuer 1 = .fac ∧ (quiet 0).permit (permitNo 255) = none) ∧
    ((∀ p, (within .idle).takes p 14 (DesignatorArgs.encode ⟨12, 3, 17⟩)) ∧ carriesRoom ⟨12, 3, 17⟩ home ∧
      (within .idle).record 0 = some occupied ∧ carriesRoom ⟨127, 31, 31⟩ ⟨127, 31, 31⟩ ∧ 127 < (128#8).toNat ∧
      31 < (32#8).toNat ∧ ∀ k o, (within .idle).record k = some o → o.room ≠ ⟨127, 31, 31⟩) ∧
    ((∀ p, (quiet 0).takes p 24 (DoorArgs.encode ⟨3, 15⟩)) ∧ carriesDoor ⟨3, 15⟩ ⟨3, 15⟩ ∧ 3 < (4#8).toNat ∧
      15 < (16#8).toNat) ∧ ∀ p, (quiet 0).takes p 30 [] := by
  have h255 : (quiet 0).permit 255 = none := by simp [quiet]
  refine ⟨⟨fun p => takes_estate .., by decide, by simp [quiet, SpaceRecord.owner],
      by simp [quiet, SpaceRecord.unused], by simp [quiet],
      fun deadline _ => ⟨⟨⟨.fac, .estate, some 0, 1, true⟩, deadline⟩, by simp [pairedStaged], rfl⟩⟩,
    ⟨fun p => takes_estate .., fun w h => ?_, by simp [quiet], quiet_job 0, rfl⟩,
    ⟨fun p => takes_estate .., quiet_technician 0, by simp [quiet, State.issuer, job], h255⟩,
    ⟨fun p => takes_estate .., ⟨rfl, rfl, rfl⟩, within_record _, ⟨rfl, rfl, rfl⟩, by decide, by decide,
      fun k o h => ?_⟩,
    ⟨fun p => takes_estate .., ⟨rfl, rfl⟩, by decide⟩, fun p => takes_estate ..⟩
  · obtain rfl : job 0 = w := by simpa [quiet_job] using h
    simp [job]
  · simp only [within, estate_record] at h
    split_ifs at h
    obtain rfl : occupied = o := by simpa using h
    decide

/-- A permit in each state and held by a pairing slot or by none; the record of a room with a member inside; and a door
at Idle, in Pairing with its slot, and in Passage Open for each direction. -/
theorem witness_ReadsAnswerAndChangeNothing_items :
    let slotted := paired (firstStep 2 (.running 1020)) 3
    let leaving := within (.openExit (some 0) none)
    ((∀ p, slotted.takes p 22 (NumberArgs.encode ⟨0⟩)) ∧ slotted.permit (permitNo 0) = some (technician .idle) ∧
      slotted.workOrder 1 = some (job 0) ∧ slotted.slotShown (fun y => y.holds 0) (some (0, gate))) ∧
    (∀ b, (entering b).permit (permitNo 0) = some (technician (.pending home gate false)) ∧
      (entering b).workOrder 1 = some (job 2) ∧ ∀ f, (entering b).slotShown f none) ∧
    ((within .idle).permit (permitNo 0) = some (technician (.inside stay)) ∧ (within .idle).workOrder 1 = some (job 2)) ∧
    ((within .idle).record 0 = some occupied ∧ occupied.room = home ∧
      occupied.inside = [((0 : PermitNo), technician (.inside stay))].map Prod.fst ∧
      occupied.pending = ([] : List (PermitNo × Permit)).map Prod.fst) ∧
    ((∀ p, slotted.takes p 24 (DoorArgs.encode ⟨0, 0⟩)) ∧ carriesDoor ⟨0, 0⟩ gate ∧
      (slotted.door gate).admission = .pairing 0 (values 3) ∧
      slotted.slotShown (fun y => y.door = gate) (some (0, gate))) ∧
    ((quiet 0).door gate).admission = .idle ∧
    (∀ b, ((entering b).door gate).admission = .openEnter [⟨0, [], none⟩] b) ∧
    ((leaving.door gate).admission = .openExit (some 0) none ∧
      leaving.permit 0 = some (technician (.inside stay)) ∧ ∀ f, leaving.slotShown f none) := by
  refine ⟨⟨fun p => takes_estate .., by simp [paired, permitNo], by simp [paired, counted, PermitState.counted],
      ⟨firstStep 2 (.running 1020), by simp [paired], by simp [firstStep, Slot.holds], rfl⟩, fun j y hj => absurd hj (by simp)⟩,
    fun b => ⟨by simp [entering, permitNo], by simp [entering, counted, PermitState.counted],
      fun f k y h => by simp [entering] at h⟩,
    ⟨within_technician _, within_job _⟩, ⟨within_record _, rfl, rfl, rfl⟩,
    ⟨fun p => takes_estate .., ⟨rfl, rfl⟩, by simp [paired, gateWith],
      ⟨firstStep 2 (.running 1020), by simp [paired], by simp [firstStep], rfl⟩, fun j y hj => absurd hj (by simp)⟩,
    by simp [quiet, gateWith], fun b => by simp [entering, gateWith],
    by simp [within, gateWith], within_technician _, fun f k y h => by simp [within] at h⟩

/-- Lane 4; a room of the last numbers; Unbound; and a busy door. -/
theorem witness_BindDoorWritesBinding :
    (State.reset.takes .fac 23 (BindDoorArgs.encode ⟨⟨3, 15⟩, none⟩) ∧ Authority.fac ≠ .sec) ∧
    (State.reset.takes .sec 23 (BindDoorArgs.encode ⟨⟨4, 0⟩, none⟩) ∧ ∀ d, ¬ carriesDoor ⟨4, 0⟩ d) ∧
    (State.reset.takes .sec 23 (BindDoorArgs.encode ⟨⟨3, 15⟩, some (⟨127, 31, 31⟩, 1)⟩) ∧
      carriesDoor ⟨3, 15⟩ ⟨3, 15⟩ ∧ carriesRoom ⟨127, 31, 31⟩ ⟨127, 31, 31⟩ ∧ (1 : Byte) = sideValue .inner ∧
      (State.reset.door ⟨3, 15⟩).admission = .idle) ∧
    ((entering none).takes .sec 23 (BindDoorArgs.encode ⟨⟨0, 0⟩, none⟩) ∧ carriesDoor ⟨0, 0⟩ gate ∧
      ((entering none).door gate).admission ≠ .idle) := by
  refine ⟨⟨takes_reset .., by decide⟩, ⟨takes_reset .., fun d h => ?_⟩,
    ⟨takes_reset .., ⟨rfl, rfl⟩, ⟨rfl, rfl, rfl⟩, rfl, by simp [Door.initial]⟩, takes_estate .., ⟨rfl, rfl⟩,
    by simp [entering, gateWith]⟩
  have h1 : 4 = d.lane.val := h.1
  omega

/-- The test estate with its gate in another presence. -/
def gateIn (presence : Presence) (misses : Nat) : State :=
  (quiet 0).setDoor gate { gateWith .idle with presence := presence, misses := misses }

theorem gate_polled {category : Nat} {a : Admission} {x : Option Slot} {p0 p1 : PermitState}
    {o : Option OccupancyRecord} : ((estate category a x p0 p1 o).lane gate.lane).phase = .polling ∧
      ((estate category a x p0 p1 o).lane gate.lane).position = gate.address := by
  simp [gate]

/-- The gate at its third miss, with what it has waiting to be sent. -/
def thirdMiss (s : State) (a : Admission) (outgoing : List Verdict) : State :=
  s.setDoor gate { gateWith a with misses := 2, outgoing := outgoing }

/-- The Open of an admission that was never sent. -/
def unsentOpen : Verdict := ⟨.admitted, [20], true⟩

theorem thirdMiss_paired_pairingsSound (outgoing : List Verdict) :
    (thirdMiss (paired (firstStep 1 (.running 1020)) 2) (.pairing 0 (values 2)) outgoing).pairingsSound := by
  have hs := paired_pairingsSound 1 (.running 1020) 2
  have hd : ∀ d, ((thirdMiss (paired (firstStep 1 (.running 1020)) 2) (.pairing 0 (values 2)) outgoing).door d).admission =
      ((paired (firstStep 1 (.running 1020)) 2).door d).admission ∧
      ((thirdMiss (paired (firstStep 1 (.running 1020)) 2) (.pairing 0 (values 2)) outgoing).door d).binding =
      ((paired (firstStep 1 (.running 1020)) 2).door d).binding := fun d => by
    rw [thirdMiss, State.setDoor_door]
    split_ifs with h
    · simp [h, paired, gateWith]
    · exact ⟨rfl, rfl⟩
  refine ⟨fun k y h => ?_, hs.2.1, fun d h => hs.2.2.1 d ((hd d).1 ▸ h), fun n => ?_⟩
  · obtain ⟨h1, h2, h3⟩ := hs.1 k y h
    refine ⟨(hd y.door).2 ▸ h1, ?_, h3⟩
    rw [(hd y.door).1]
    exact h2
  · have h : (thirdMiss (paired (firstStep 1 (.running 1020)) 2) (.pairing 0 (values 2)) outgoing).slotsCounted n =
        (paired (firstStep 1 (.running 1020)) 2).slotsCounted n := by
      simp only [State.slotsCounted, fun d => (hd d).1]
      rfl
    rw [h, ← hs.2.2.2 n]
    rfl

/-- A lane between turns; the gate polled while Ready, Unknown and Failed, at a first and a second miss; and at a third,
Idle, with a pairing, and open for an Exit and for an Enter with the Open sent and not. -/
theorem witness_PollsMovePresence :
    (State.reset.lane 0).phase ≠ .polling ∧
    (∀ presence misses, ((gateIn presence misses).lane 0).phase = .polling ∧
      ((gateIn presence misses).lane 0).position = 0 ∧ gate.lane = 0 ∧ gate.address = 0 ∧
      ((gateIn presence misses).door gate).presence = presence ∧ ((gateIn presence misses).door gate).misses = misses) ∧
    (let s := thirdMiss (paired (firstStep 1 (.running 1020)) 2) (.pairing 0 (values 2)) [];
      s.pairingsSound ∧ s.slot 0 = some (firstStep 1 (.running 1020)) ∧ (s.door gate).presence = .ready ∧
      (s.door gate).misses = 2 ∧ ∀ v ∈ (s.door gate).outgoing, v.admits = false) ∧
    (∀ a outgoing, let s := thirdMiss (entering none) a outgoing;
      (s.lane 0).phase = .polling ∧ (s.lane 0).position = 0 ∧ (s.door gate).presence = .ready ∧
      (s.door gate).misses = 2 ∧ (s.door gate).admission = a ∧ (s.door gate).outgoing = outgoing ∧
      (∀ k y, s.slot k = some y → y.door ≠ gate) ∧ s.recordsSound ∧
      s.permit 0 = some (technician (.pending home gate false)) ∧ s.workOrder 1 = some (job 2) ∧
      s.record 0 = some reserved ∧ reserved.room = home) ∧
    (thirdMiss (entering none) (.openEnter [⟨0, [], none⟩] none) [unsentOpen]).booksBalance ∧
    (∃ v ∈ [unsentOpen], v.admits = true) ∧ ∀ v ∈ ([] : List Verdict), v.admits = false := by
  refine ⟨by simp [Lane.initial], fun presence misses => by simp [gateIn, quiet, gate],
    ⟨thirdMiss_paired_pairingsSound [], by simp [thirdMiss, paired], by simp [thirdMiss, gateWith], by simp [thirdMiss],
      by simp [thirdMiss]⟩,
    fun a outgoing => ⟨by simp [thirdMiss, entering], by simp [thirdMiss, entering], by simp [thirdMiss, gateWith],
      by simp [thirdMiss], by simp [thirdMiss, gateWith], by simp [thirdMiss], by simp [thirdMiss, entering],
      estate_recordsSound 0 (.openEnter [⟨0, [], none⟩] none) none (.pending home gate false) .idle (some reserved)
        (by simp [reserved]), by simp [thirdMiss, entering], by simp [thirdMiss, entering, counted, PermitState.counted],
      by simp [thirdMiss, entering], rfl⟩, entering_setDoor_booksBalance rfl, by simp [unsentOpen], by simp⟩

/-- A report with no poll waiting; and while the gate is polled a report of its neighbour, and a PRESENT of credential 0
at it. -/
theorem witness_PollsMovePresence_reports :
    (State.reset.waiting = [] ∧ (State.reset.lane 0).phase ≠ .polling) ∧
    ∀ presence misses, let s := gateIn presence misses;
      s.waiting = [] ∧ (s.lane 0).phase = .polling ∧ (s.lane 0).position = 0 ∧
        (0 : DoorAddress) ≠ (⟨0, 1⟩ : DoorId).address ∧ (0 : Credential) = 0 := by
  refine ⟨⟨rfl, by simp [Lane.initial]⟩, fun presence misses => ?_⟩
  simp [gateIn, quiet]

/-- The gate with messages waiting, at each phase of its lane's turn. -/
def turnAt (phase : LanePhase) (outgoing : List Verdict) (cancel : Bool) : State :=
  ((quiet 0).setDoor gate { gateWith .idle with outgoing := outgoing, cancelPending := cancel }).setLane 0
    ⟨0, false, phase, []⟩

/-- Every phase, and every mix of waiting verdicts and CANCEL. -/
theorem witness_TurnSendsVerdictsThenCancelThenPoll : ∀ phase outgoing cancel,
    ((turnAt phase outgoing cancel).lane 0).phase = phase ∧ ((turnAt phase outgoing cancel).lane 0).position = 0 ∧
    ((turnAt phase outgoing cancel).door gate).presence = .ready ∧
    ((turnAt phase outgoing cancel).door gate).outgoing = outgoing ∧
    ((turnAt phase outgoing cancel).door gate).cancelPending = cancel := by
  intro phase outgoing cancel
  simp [turnAt, gateWith]

/-- The gate after an ESTATE CLEAR that was taken while the frame of a verdict was on the lane: Unknown, with an empty
list; and it stays so while its lane sends. -/
theorem witness_TurnSendsVerdictsThenCancelThenPoll_cleared (v : Verdict) :
    let s := after (.estateClear .sec (.fields {})) (turnAt (.sendingVerdict v) [v] false)
    (s.lane 0).phase = .sendingVerdict v ∧ (s.lane 0).position = 0 ∧ (s.door gate).presence = .unknown ∧
    (s.door gate).outgoing = [] ∧ ∀ w rest, (s.door gate).outgoing = w :: rest →
      w.outcome ≠ v.outcome ∨ w.credentials ≠ v.credentials := by
  refine ⟨rfl, rfl, rfl, rfl, fun w rest h => ?_⟩
  exact absurd (show [] = w :: rest from h) (by simp)

/-- Each of the four events of a turn completes in states of both kinds: where it is due and where it is not. -/
theorem witness_TurnSendsVerdictsThenCancelThenPoll_due (v : Verdict) :
    (∀ outgoing cancel, ((turnAt .between outgoing cancel).lane 0).phase = .between ∧
      ((turnAt (.sendingVerdict v) outgoing cancel).lane 0).phase = .sendingVerdict v ∧
      ((turnAt .sendingCancel outgoing cancel).lane 0).phase = .sendingCancel ∧
      ((turnAt .breaking outgoing cancel).lane 0).phase = .breaking) ∧
    (∀ w rest, ((turnAt (.sendingVerdict v) (w :: rest) true).door gate).outgoing = w :: rest) ∧
    ((turnAt .polling [] false).lane 0).phase ≠ .between ∧ ((turnAt .polling [] false).lane 0).phase ≠ .sendingCancel ∧
    ((turnAt .polling [] false).lane 0).phase ≠ .breaking ∧
    ∀ u, ((turnAt .polling [] false).lane 0).phase ≠ .sendingVerdict u := by
  simp [turnAt]

/-- Each failing check of steps 2 to 4 at the polled gate, with its technician's credential 20 and with credential 99,
which no permit holds. -/
theorem witness_EnterDeniedAtFirstFailingCheck :
    ((20 : Credential) ≠ 0 ∧ (quiet 0).waiting = [] ∧ (quiet 0).credentialsDistinct ∧ ((quiet 0).lane gate.lane).phase = .polling ∧
      ((quiet 0).lane gate.lane).position = gate.address ∧ ((quiet 0).door gate).admission = .idle ∧
      (quiet 0).permit 0 = some (technician .idle) ∧
      ((quiet 0).door gate).binding ≠ none ∧ ((quiet 0).lane gate.lane).held = false ∧
      (quiet 0).clock = some ⟨400, 600, 0⟩ ∧ (quiet 0).posture ≠ .lockdown ∧
      ∀ n q, (quiet 0).permit n = some q → q.credential ≠ 99) ∧
    (let s := (quiet 0).setDoor gate { gateWith .idle with binding := none };
      (s.door gate).binding = none ∧ (s.door gate).admission = .idle ∧ s.credentialsDistinct) ∧
    (let s := (quiet 0).setLane 0 ⟨0, true, .polling, []⟩;
      (s.lane gate.lane).held = true ∧ (s.lane gate.lane).phase = .polling ∧ s.credentialsDistinct) ∧
    (let s := { quiet 0 with clock := none }; s.clock = none ∧ s.credentialsDistinct) ∧
    (let s := { quiet 0 with posture := .lockdown }; s.posture = .lockdown ∧ s.credentialsDistinct) ∧
    (let s := (quiet 0).setPermit 0 (some { technician .idle with revoked := true });
      s.permit 0 = some { technician .idle with revoked := true } ∧ s.credentialsDistinct) ∧
    ((within .idle).permit 0 = some (technician (.inside stay)) ∧ (technician (.inside stay)).state ≠ .idle ∧
      (within .idle).credentialsDistinct) ∧
    (let s := (quiet 0).setSlot 0 (some { firstStep 1 (.running 1020) with door := ⟨0, 1⟩ });
      s.slot 0 = some { firstStep 1 (.running 1020) with door := ⟨0, 1⟩ } ∧ s.credentialsDistinct ∧
      ({ firstStep 1 (.running 1020) with door := ⟨0, 1⟩ } : Slot).holds 0 = true) ∧
    ((jobIn .lapsed).workOrder 1 = some { job 0 with state := .lapsed } ∧ (jobIn .lapsed).credentialsDistinct) ∧
    ((job 0).days = some (400, 402) ∧ 399 < 400 ∧ 402 < 403) := by
  have hc := quiet_credentialsDistinct 0
  refine ⟨⟨by decide, rfl, hc, gate_polled.1, gate_polled.2, by simp [quiet, gateWith], quiet_technician 0,
      by simp [quiet, gateWith], by simp [quiet, gate], rfl, by simp [quiet], fun n q h => ?_⟩,
    ⟨by simp, by simp [gateWith], hc⟩, ⟨by simp [gate], by simp [gate], hc⟩, ⟨rfl, hc⟩, ⟨rfl, hc⟩,
    ⟨by simp, credentialsDistinct_setPermit hc (quiet_technician 0) rfl⟩,
    ⟨within_technician _, by simp [technician], within_credentialsDistinct _⟩, ⟨by simp, hc, rfl⟩,
    ⟨by simp [jobIn], hc⟩, rfl, by decide, by decide⟩
  simp only [quiet, estate_permit] at h
  split_ifs at h <;> obtain rfl := (by simpa using h : _ = q) <;> decide

/-- A state whose occupancy records are all in use, none for the home room. -/
def fullRecords (s : State) : State :=
  { s with occupancy := Vector.replicate 64 (some ⟨⟨1, 1, 1⟩, 1, [9], [], 1, 1, false⟩) }

theorem fullRecords_record (s : State) (k : RecordNo) :
    (fullRecords s).record k = some ⟨⟨1, 1, 1⟩, 1, [9], [], 1, 1, false⟩ := vector_get_replicate ..

/-- The rights to the home room, as the technician's Enter at the gate asks them. -/
def enterRights (w : WorkOrder) (s : State) : State × Resolution (GrantSummary × OverlaySummary) :=
  checkRights (.contractor gate home 0 (technician .idle)) 2 home w none 600 (answered s)

/-- The rights to the home room, as the escort's Enter at the gate asks them in a pairing of the technician. -/
def escortRights (x : Slot) (s : State) : State × Resolution (GrantSummary × OverlaySummary) :=
  checkRights (.escort gate home x 1 1) 1 home WorkOrder.escortRoster none 600 (answered s)

/-- The technician at the Idle gate: denied by each judgement of the rights; discarded; with a cap in force of 1 and
of 2, and a guaranteed number of 1 and of 2, for a weight of 2; and with every record in use. -/
theorem witness_EnterDeniedByRightsPartyOrRoom :
    (let s := quiet 0;
      (20 : Credential) ≠ 0 ∧ s.waiting = [] ∧ s.credentialsDistinct ∧ (s.lane gate.lane).phase = .polling ∧
      (s.lane gate.lane).position = gate.address ∧ (s.door gate).admission = .idle ∧
      (s.door gate).binding = some ⟨home, .outer⟩ ∧
      (s.lane gate.lane).held = false ∧ s.clock = some ⟨400, 600, 0⟩ ∧ s.posture ≠ .lockdown ∧
      s.permit 0 = some (technician .idle) ∧ (∀ j y, s.slot j = some y → y.holds 0 = false) ∧
      s.workOrder 1 = some (job 0) ∧ (job 0).dayPasses 400 = true ∧ (job 0).selectedOption = some ⟨2, none, 20⟩) ∧
    (∀ x ∈ [((zoneGrant 0, overlayOf none), DenyCode.securityBar), (({ zoneGrant 0 with custodian := .landlord },
          zoneOverlay), .custodian), (({ zoneGrant 0 with windows := [⟨0, 600⟩] }, zoneOverlay), .outsideWindow)],
      (enterRights (job 0) (summaries x.1.1 x.1.2)).2 = .error x.2) ∧
    ((enterRights (job 0) { quiet 0 with meetings := [clearing] }).2 = .discarded) ∧
    (∀ n ∈ [1, 2], let s := summaries { zoneGrant 0 with guaranteed := n } zoneOverlay;
      (enterRights (job 0) s).2 =
        .ok ({ zoneGrant 0 with guaranteed := n }, zoneOverlay) ∧
      requirementLevel { zoneGrant 0 with guaranteed := n } zoneOverlay 600 = 0 ∧
      s.loadOf home + 2 = 2 ∧ s.allowanceAt home n 10 = n) ∧
    (∀ n ∈ [1, 2], let w := { job 0 with capInForce := n };
      (jobWith w).workOrder 1 = some w ∧ w.party + 2 = 2 ∧
      (enterRights w (jobWith w)).2 = .ok (zoneGrant 0, zoneOverlay)) ∧
    (let s := fullRecords (quiet 0);
      (enterRights (job 0) s).2 = .ok (zoneGrant 0, zoneOverlay) ∧
      s.loadOf home + 2 ≤ s.allowanceAt home 6 10 ∧ (enterRights (job 0) s).1.occupancy = s.occupancy ∧
      (∀ k o, s.record k = some o → o.room ≠ home) ∧ ∀ k, s.record k ≠ none) := by
  refine ⟨⟨by decide, rfl, quiet_credentialsDistinct 0, gate_polled.1, gate_polled.2, by simp [quiet, gateWith],
      by simp [quiet, gateWith], by simp [quiet, gate], rfl, by simp [quiet],
      quiet_technician 0, by simp [quiet], quiet_job 0, rfl, rfl⟩, by decide +kernel, by decide +kernel, by decide +kernel,
    by decide +kernel, by decide +kernel, by decide +kernel, by decide +kernel, fun k o h => ?_,
    fun k => by simp [fullRecords_record]⟩
  obtain rfl : _ = o := by simpa [fullRecords_record] using h
  decide

/-- The gate in Awaiting Consent, open for an Enter and open for an Exit, with the technician's credential and with
one of no permit. -/
theorem witness_EnterDeniedByRightsPartyOrRoom_doorBusy :
    ((waiting (.running 1060)).credentialsDistinct ∧ ((waiting (.running 1060)).lane gate.lane).phase = .polling ∧
      ((waiting (.running 1060)).lane gate.lane).position = gate.address ∧
      ((waiting (.running 1060)).door gate).admission.state = .awaitingConsent ∧
      (waiting (.running 1060)).permit 0 = some (technician .idle) ∧
      ∀ n q, (waiting (.running 1060)).permit n = some q → q.credential ≠ 99) ∧
    ((entering none).credentialsDistinct ∧ ((entering none).door gate).admission.state = .passageOpen) ∧
    ((within (.openExit none none)).credentialsDistinct ∧
      ((within (.openExit none none)).door gate).admission.state = .passageOpen) := by
  refine ⟨⟨estate_credentialsDistinct 2 (.awaitingConsent 0 (values 2)) _ .idle .idle none, gate_polled.1, gate_polled.2,
    by simp [waiting, gateWith, Admission.state], by simp [waiting], fun n q h => ?_⟩,
    ⟨estate_credentialsDistinct 0 _ none _ .idle _, by simp [entering, gateWith, Admission.state]⟩,
    within_credentialsDistinct _, by simp [within, gateWith, Admission.state]⟩
  simp only [waiting, estate_permit] at h
  split_ifs at h <;> obtain rfl := (by simpa using h : _ = q) <;> decide

/-- The technician admitted at level 0 with no record of the room yet. -/
theorem witness_EnterAdmittedOpensDoor :
    let s := quiet 0
    (20 : Credential) ≠ 0 ∧ s.waiting = [] ∧ s.credentialsDistinct ∧ (s.lane gate.lane).phase = .polling ∧
    (s.lane gate.lane).position = gate.address ∧ (s.door gate).admission = .idle ∧
    (s.door gate).binding = some ⟨home, .outer⟩ ∧
    (s.lane gate.lane).held = false ∧ s.clock = some ⟨400, 600, 0⟩ ∧ s.posture ≠ .lockdown ∧
    s.permit 0 = some (technician .idle) ∧ (∀ j y, s.slot j = some y → y.holds 0 = false) ∧
    s.workOrder 1 = some (job 0) ∧ (job 0).state = .active ∧ (job 0).dayPasses 400 = true ∧
    (job 0).selectedOption = some ⟨2, none, 20⟩ ∧
    (∃ s2, enterRights (job 0) s = (s2, .ok (zoneGrant 0, zoneOverlay))) ∧
    requirementLevel (zoneGrant 0) zoneOverlay 600 = 0 ∧ (job 0).party + 2 ≤ (job 0).capInForce ∧
    s.loadOf home + 2 ≤ s.allowanceAt home 6 10 ∧ (enterRights (job 0) s).1.recordFor home = some 0 := by
  refine ⟨by decide, rfl, quiet_credentialsDistinct 0, gate_polled.1, gate_polled.2, by simp [quiet, gateWith],
    by simp [quiet, gateWith], by simp [quiet, gate], rfl, by simp [quiet], quiet_technician 0, by simp [quiet],
    quiet_job 0, rfl, rfl, rfl, ⟨_, Prod.ext rfl ?_⟩, by decide, by decide, ?_, ?_⟩ <;> decide +kernel

/-- A technician whose room is of level 2, with slot 0 free, and with every slot in use; and a room of level 1 with no
escort inside. -/
theorem witness_EnterBeginsPairing :
    let s := quiet 2
    (s.waiting = [] ∧ s.credentialsDistinct ∧ (s.door gate).admission = .idle ∧ s.permit 0 = some (technician .idle) ∧
      s.workOrder 1 = some (job 0) ∧ 2 ≤ (2 : SpaceNo).val ∧
      (∃ s2, enterRights (job 0) s = (s2, .ok (zoneGrant 2, zoneOverlay))) ∧
      (technician .idle).role ≠ .escort ∧ 2 ≤ requirementLevel (zoneGrant 2) zoneOverlay 600 ∧
      (enterRights (job 0) s).1.slot 0 = none ∧ ∀ j < (0 : SlotNo), (enterRights (job 0) s).1.slot j ≠ none) ∧
    (let full := { s with slots := Vector.replicate 4 (some ⟨⟨3, 3⟩, 7, 1, .escort, none, .running 1020⟩) };
      full.credentialsDistinct ∧ (∀ k, full.slot k ≠ none) ∧ (∀ j y, full.slot j = some y → y.holds 0 = false) ∧
      (enterRights (job 0) full).2 = .ok (zoneGrant 2, zoneOverlay) ∧ ∀ k, (enterRights (job 0) full).1.slot k ≠ none) ∧
    ((enterRights (job 0) (quiet 1)).2 = .ok (zoneGrant 1, zoneOverlay) ∧
      requirementLevel (zoneGrant 1) zoneOverlay 600 = 1 ∧
      (enterRights (job 0) (quiet 1)).1.escortInside home = false) := by
  have hf : ∀ k, ({ quiet 2 with slots := Vector.replicate 4 (some
      ⟨⟨3, 3⟩, 7, 1, .escort, none, .running 1020⟩) } : State).slot k =
      some ⟨⟨3, 3⟩, 7, 1, .escort, none, .running 1020⟩ := fun k => vector_get_replicate ..
  refine ⟨⟨rfl, quiet_credentialsDistinct 2, by simp [quiet, gateWith], quiet_technician 2, quiet_job 2, by decide,
    ⟨_, Prod.ext rfl ?_⟩, by decide, by decide, ?_, by simp⟩,
    ⟨quiet_credentialsDistinct 2, fun k => by simp [hf], fun j y h => ?_, ?_, ?_⟩, ?_, by decide, ?_⟩
  case refine_3 =>
    obtain rfl : _ = y := by simpa [hf] using h
    decide
  all_goals decide +kernel

/-- The test estate with a pairing at the gate in a room of another guaranteed number. -/
def pairedIn (x : Slot) (guaranteed : Nat) : State :=
  estate 2 (.pairing 0 { values 2 with guaranteed := guaranteed }) (some x) .idle .idle none

/-- The slot of a two-round pairing at its last step. -/
def lastStep (timer : SlotTimer) : Slot := { sealedSlot timer with expects := .finalEscort }

theorem pairedIn_sound {x : Slot} (guaranteed : Nat)
    (h : x = firstStep 1 (.running 1020) ∨ x = lastStep (.running 1020)) :
    (pairedIn x guaranteed).workOrdersSound ∧ (pairedIn x guaranteed).permitsSound ∧
      (pairedIn x guaranteed).pairingsSound := by
  have hf : FitsGate (.pairing 0 { values 2 with guaranteed := guaranteed }) x := by
    obtain rfl | rfl := h
    · exact ⟨rfl, rfl, .inl rfl, _, rfl, .inl ⟨by simp [firstStep], rfl⟩⟩
    · exact ⟨rfl, rfl, .inr rfl, _, rfl, .inl ⟨by simp [lastStep], rfl⟩⟩
  have hb := estate_booksBalance (category := 2) (estate_pairingsSound hf)
  exact ⟨hb.2.2.1, hb.2.2.2.1, hb.2.2.2.2.1⟩

/-- The last step of a pairing of one round and of two: with place; with a cap in force of 1 for a technician of
weight 2; in a room of 2 and of 3 places for a weight of 3; and with every record in use. -/
theorem witness_EscortCompletesPairing :
    ((3 : Credential) ≠ 0 ∧ (escort .idle).credential = 3 ∧ (technician .idle).role.weight = 2 ∧
      (escort .idle).role.weight = 1 ∧ (firstStep 1 (.running 1020)).rounds = 1 ∧
      (lastStep (.running 1020)).escort = some ⟨1, 3, []⟩) ∧
    (∀ x, x = firstStep 1 (.running 1020) ∨ x = lastStep (.running 1020) → ∀ g, let s := pairedIn x g;
      s.waiting = [] ∧ s.workOrdersSound ∧ s.permitsSound ∧ s.pairingsSound ∧ s.credentialsDistinct ∧
      (s.lane gate.lane).phase = .polling ∧ (s.lane gate.lane).position = gate.address ∧
      (s.door gate).binding = some ⟨home, .outer⟩ ∧
      (s.door gate).admission = .pairing 0 { values 2 with guaranteed := g } ∧ s.slot 0 = some x ∧
      (s.lane gate.lane).held = false ∧ s.clock = some ⟨400, 600, 0⟩ ∧ s.permit 0 = some (technician .idle) ∧
      s.workOrder 1 = some (job 0) ∧ s.permit 1 = some (escort .idle) ∧ s.workOrder 0 = some WorkOrder.escortRoster ∧
      (s.space 2).go = false) ∧
    (∀ i y, (pairedIn (firstStep 1 (.running 1020)) 6).slot i = some y → y.holds 1 = false) ∧
    (∀ x ∈ [firstStep 1 (.running 1020), lastStep (.running 1020)], ∀ g ∈ [2, 3, 6],
      (escortRights x (pairedIn x g)).2 =
        .ok (zoneGrant 0, zoneOverlay) ∧
      (pairedIn x g).loadOf home + 3 = 3 ∧ (pairedIn x g).allowanceAt home g 10 = g ∧
      (escortRights x (pairedIn x g)).1.recordFor home = some 0) ∧
    ((job 0).party + 2 ≤ (job 0).capInForce ∧
      WorkOrder.escortRoster.party + 1 ≤ WorkOrder.escortRoster.capInForce) ∧
    (let s := (pairedIn (lastStep (.running 1020)) 6).setWorkOrder 1 (some { job 0 with capInForce := 1 });
      (s.workOrdersSound ∧ s.permitsSound ∧ s.pairingsSound) ∧ s.workOrder 1 = some { job 0 with capInForce := 1 } ∧
      ¬ ({ job 0 with capInForce := 1 } : WorkOrder).party + 2 ≤ 1) ∧
    (let s := fullRecords (pairedIn (firstStep 1 (.running 1020)) 3);
      (s.workOrdersSound ∧ s.permitsSound ∧ s.pairingsSound) ∧
      (escortRights (firstStep 1 (.running 1020)) s).2 = .ok (zoneGrant 0, zoneOverlay) ∧
      (escortRights (firstStep 1 (.running 1020)) s).1.recordFor home = none ∧
      s.loadOf home + 3 ≤ s.allowanceAt home 3 10) := by
  refine ⟨by decide, fun x hx g => ?_, fun i y h => ?_, by decide +kernel, by decide,
    ⟨sound_setCap (w := job 0) 1 (by simp [pairedIn, counted, PermitState.counted]) (pairedIn_sound 6 (.inr rfl)), by simp, by decide⟩,
    pairedIn_sound 3 (.inl rfl), by decide +kernel, by decide +kernel, by decide +kernel⟩
  · have h := pairedIn_sound g hx
    refine ⟨rfl, h.1, h.2.1, h.2.2, estate_credentialsDistinct 2 _ _ .idle .idle none, gate_polled.1, gate_polled.2,
      ?_⟩
    simp [pairedIn, gateWith, gate, counted, PermitState.counted, SpaceRecord.go]
    rfl
  · simp only [pairedIn, estate_slot] at h
    split_ifs at h
    obtain rfl : _ = y := by simpa using h
    decide

/-- The first escort of a two-round pairing, and its contractor, on a free lane and on a held one. -/
theorem witness_TwoRoundPairingSteps :
    (let s := paired (firstStep 2 (.running 1020)) 3;
      (3 : Credential) ≠ 0 ∧ s.pairingsSound ∧ s.credentialsDistinct ∧
      (s.door gate).admission = .pairing 0 (values 3) ∧
      s.slot 0 = some (firstStep 2 (.running 1020)) ∧ s.permit 1 = some (escort .idle) ∧
      s.permit 0 = some (technician .idle) ∧ (technician .idle).workOrder = 1 ∧
      (∃ s2, escortRights (firstStep 2 (.running 1020)) s =
        (s2, .ok (zoneGrant 0, zoneOverlay)))) ∧
    (let s := paired (sealedSlot (.running 1008)) 3;
      s.pairingsSound ∧ s.credentialsDistinct ∧ (s.door gate).admission = .pairing 0 (values 3) ∧
      s.slot 0 = some (sealedSlot (.running 1008)) ∧ s.permit 0 = some (technician .idle) ∧
      (s.lane gate.lane).held = false) ∧
    (let s := (paired (sealedSlot (.frozen 4)) 3).setLane 0 ⟨0, true, .polling, []⟩;
      s.pairingsSound ∧ (s.lane gate.lane).held = true ∧ (s.lane gate.lane).phase = .polling) := by
  refine ⟨⟨by decide, paired_pairingsSound .., paired_credentialsDistinct _ _,
    by simp [paired, gateWith],
    by simp [paired], by simp [paired], by simp [paired], rfl, ⟨_, Prod.ext rfl ?_⟩⟩,
    ⟨sealed_pairingsSound .., paired_credentialsDistinct _ _, by simp [paired, gateWith], by simp [paired],
      by simp [paired], by simp [paired, gate]⟩,
    ⟨sealed_pairingsSound (.frozen 4) 3, by simp [gate], by simp [gate]⟩⟩
  all_goals decide +kernel

/-- A pairing at the gate and no other there, at each step, in a state whose clock, cache and meetings are of any kind:
the premises that every step of a pairing shares. -/
theorem witness_TwoRoundPairingSteps_shared (x : Slot) (hx : x.door = gate) (hc : x.contractor = 0)
    (clock : Option ClockTime) (cache : List CacheEntry) (met : List Meetings) :
    let s := { paired x 3 with clock := clock, cache := cache, meetings := met }
    s.waiting = [] ∧ s.credentialsDistinct ∧ (s.lane gate.lane).phase = .polling ∧
    (s.lane gate.lane).position = gate.address ∧ (s.door gate).binding = some ⟨home, .outer⟩ ∧
    (s.door gate).admission = .pairing x.contractor (values 3) ∧ s.slot 0 = some x ∧ x.door = gate ∧
    (∀ i y, s.slot i = some y → y.door = gate → i = 0) ∧ s.permit 0 = some (technician .idle) ∧
    (technician .idle).credential = 20 ∧ s.permit 1 = some (escort .idle) ∧ (escort .idle).credential = 3 ∧
    s.workOrder 0 = some WorkOrder.escortRoster := by
  have h : ∀ i, (paired x 3).slot i = if i = 0 then some x else none := fun i => by simp [paired]
  refine ⟨rfl, paired_credentialsDistinct x 3, show ((paired x 3).lane gate.lane).phase = _ by simp [paired, gate],
    show ((paired x 3).lane gate.lane).position = _ by simp [paired, gate],
    show ((paired x 3).door gate).binding = _ by simp [paired, gateWith],
    show ((paired x 3).door gate).admission = _ by simp [paired, gateWith, hc], h 0, hx, fun i y hi _ => ?_,
    show (paired x 3).permit 0 = _ by simp [paired], rfl, show (paired x 3).permit 1 = _ by simp [paired], rfl, ?_⟩
  · have hi := (h i).symm.trans hi
    by_contra hne
    simp [hne] at hi
  · show (paired x 3).workOrder 0 = _
    simp [paired, counted, PermitState.counted]
    rfl

/-- The escort's own failures at the escort step of one and of two rounds and at the last step: rights in space 1 that
fail, that an ESTATE CLEAR discards, and that pass; and the contractor's step, which passes with the clock Unset. -/
theorem witness_TwoRoundPairingSteps_rights :
    (∀ x ∈ [firstStep 1 (.running 1020), firstStep 2 (.running 1020), lastStep (.running 1008)],
      (x.expects = .escort ∨ (x.expects = .finalEscort ∧ x.escort = some ⟨1, 3, []⟩)) ∧ x.door = gate ∧
      (escortRights x { paired x 3 with cache := [] }).2 = .error .notGranted ∧
      (escortRights x { paired x 3 with meetings := [clearing] }).2 = .discarded ∧
      (escortRights x (paired x 3)).2 = .ok (zoneGrant 0, zoneOverlay)) ∧
    (sealedSlot (.running 1008)).expects = .contractor ∧
    ({ paired (sealedSlot (.running 1008)) 3 with clock := none } : State).clock = none := by
  refine ⟨by decide +kernel, rfl, rfl⟩

/-- An escort that another pairing holds, at the escort step of the gate. -/
theorem witness_TwoRoundPairingSteps_elsewhere :
    let other : Slot := { lastStep (.running 1008) with door := ⟨0, 1⟩, contractor := 9 }
    let s := (paired (firstStep 2 (.running 1020)) 3).setSlot 1 (some other)
    s.waiting = [] ∧ s.credentialsDistinct ∧ s.slot 1 = some other ∧ other.holds 1 = true ∧
    s.slot 0 = some (firstStep 2 (.running 1020)) ∧ ∀ i y, s.slot i = some y → y.door = gate → i = 0 := by
  refine ⟨rfl, paired_credentialsDistinct _ _, by simp, rfl, by simp [State.setSlot_slot, paired], fun i y h hy => ?_⟩
  simp only [State.setSlot_slot, paired, estate_slot] at h
  split_ifs at h with h1 h0
  · obtain rfl := (by simpa using h : _ = y)
    exact absurd hy (by decide)
  · exact h0

/-- The escort's steps on a held lane; and an escort revoked, one Pending, one that a pairing holds, and one whose
rights in space 1 fail. -/
theorem witness_TwoRoundPairingSteps_denied :
    (∀ x, x = firstStep 2 (.frozen 1) ∨ x = lastStep (.frozen 1) →
      let s := (paired x 3).setLane 0 ⟨0, true, .polling, []⟩;
      (s.lane gate.lane).held = true ∧ (s.lane gate.lane).phase = .polling ∧
      (s.lane gate.lane).position = gate.address ∧ s.pairingsSound ∧ s.permit 1 = some (escort .idle)) ∧
    ((firstStep 2 (.frozen 1)).expects = .escort ∧ (lastStep (.frozen 1)).expects = .finalEscort ∧
      (lastStep (.frozen 1)).escort = some ⟨1, 3, []⟩) ∧
    (∀ q, q = { escort .idle with revoked := true } ∨ q = escort (.pending home ⟨1, 1⟩ false) →
      let s := (paired (firstStep 2 (.running 1020)) 3).setPermit 1 (some q);
      s.pairingsSound ∧ s.credentialsDistinct ∧ s.permit 1 = some q) ∧
    ((paired (sealedSlot (.running 1008)) 3).slot 0 = some (sealedSlot (.running 1008)) ∧
      (sealedSlot (.running 1008)).holds 1 = true) ∧
    (let s := { paired (firstStep 2 (.running 1020)) 3 with cache := [] };
      s.pairingsSound ∧ s.credentialsDistinct ∧ s.workOrder 0 = some WorkOrder.escortRoster ∧
      s.permit 0 = some (technician .idle) ∧
      (escortRights (firstStep 2 (.running 1020)) s).2 = .error .notGranted ∧
      (escortRights (firstStep 2 (.running 1020))
        { paired (firstStep 2 (.running 1020)) 3 with meetings := [clearing] }).2 = .discarded) := by
  refine ⟨fun x hx => ?_, ⟨rfl, rfl, rfl⟩, fun q hq => ?_, ⟨by simp [paired], rfl⟩,
    paired_pairingsSound 2 (.running 1020) 3, paired_credentialsDistinct _ _, ?_,
    by decide +kernel, by decide +kernel⟩
  · have hs : (paired x 3).pairingsSound := by
      obtain rfl | rfl := hx
      · exact paired_pairingsSound ..
      · exact estate_pairingsSound ⟨rfl, rfl, .inr rfl, values 3, rfl, .inl ⟨by simp [lastStep], rfl⟩⟩
    exact ⟨by simp [gate], by simp [gate], by simp [gate], hs, by simp [paired]⟩
  · have hn : ∀ k x, (paired (firstStep 2 (.running 1020)) 3).slot k = some x → x.holds 1 = false := fun k x h => by
      simp only [paired, estate_slot] at h
      split_ifs at h
      obtain rfl : _ = x := by simpa using h
      decide
    refine ⟨pairingsSound_setPermit _ (paired_pairingsSound 2 (.running 1020) 3) hn,
      credentialsDistinct_setPermit (paired_credentialsDistinct _ _) (q := escort .idle) (by simp [paired]) ?_, by simp⟩
    obtain rfl | rfl := hq <;> rfl
  · show (paired (firstStep 2 (.running 1020)) 3).workOrder 0 = _
    simp [paired, counted, PermitState.counted]
    rfl

/-- Credential 99, which no permit holds, at each step of a pairing; and a check-in. -/
theorem witness_WrongPresenterBreaksPairing :
    (∀ x, x = firstStep 1 (.running 1020) ∨ x = sealedSlot (.running 1020) ∨ x = lastStep (.running 1020) →
      let s := paired x 2;
      s.waiting = [] ∧ s.pairingsSound ∧ (s.lane gate.lane).phase = .polling ∧ (s.lane gate.lane).position = gate.address ∧
      (s.door gate).admission = .pairing 0 (values 2) ∧
      (s.door gate).binding ≠ none ∧ s.slot 0 = some x ∧ x.contractor = 0 ∧ s.permit 0 = some (technician .idle)) ∧
    ((99 : Credential) ≠ 0 ∧ (firstStep 1 (.running 1020)).expects = .escort ∧
      (sealedSlot (.running 1020)).expects = .contractor ∧ (technician .idle).credential ≠ 99 ∧
      (lastStep (.running 1020)).expects = .finalEscort ∧
      (lastStep (.running 1020)).escort = some ⟨1, 3, []⟩ ∧ (3 : Credential) ≠ 99) ∧
    ∀ n q, (paired (firstStep 1 (.running 1020)) 2).permit n = some q → q.credential = 99 → q.role ≠ .escort := by
  refine ⟨fun x hx => ?_, by decide, fun n q h hq => ?_⟩
  · have hs : (paired x 2).pairingsSound ∧ x.contractor = 0 := by
      obtain rfl | rfl | rfl := hx
      · exact ⟨paired_pairingsSound .., rfl⟩
      · exact ⟨sealed_pairingsSound .., rfl⟩
      · exact ⟨estate_pairingsSound ⟨rfl, rfl, .inr rfl, values 2, rfl, .inl ⟨by simp [lastStep], rfl⟩⟩, rfl⟩
    exact ⟨by simp [paired], hs.1, gate_polled.1, gate_polled.2, by simp [paired, gateWith],
      by simp [paired, gateWith], by simp [paired], hs.2, by simp [paired]⟩
  · simp only [paired, estate_permit] at h
    split_ifs at h <;> obtain rfl := (by simpa using h : _ = q) <;> simp [escort, technician] at hq

/-- The gate Idle with the technician in the room, with and without an Exit of the same permit at another door; with no
such permit; open for the same permit's Exit; busy in each other way; and Unbound. -/
theorem witness_ExitIsAlwaysAnswered :
    ((within .idle).credentialsDistinct ∧ ((within .idle).door gate).admission = .idle ∧
      ((within .idle).door gate).binding = some ⟨home, .outer⟩ ∧
      (within .idle).permit 0 = some (technician (.inside stay)) ∧ stay.room = home ∧
      ∀ e m deadline, e ≠ gate → ((within .idle).door e).admission ≠ .openExit (some m) deadline) ∧
    (let s := (within .idle).setDoor ⟨0, 1⟩ { Door.initial with admission := .openExit (some 0) none };
      s.credentialsDistinct ∧ (s.door ⟨0, 1⟩).admission = .openExit (some 0) none ∧ (⟨0, 1⟩ : DoorId) ≠ gate ∧
      (s.door gate).admission = .idle) ∧
    (∀ n q st, (quiet 0).permit n = some q → q.state ≠ .inside st) ∧
    (let s := within (.openExit (some 0) (some 1010));
      (s.door gate).admission = .openExit (some 0) (some 1010) ∧ s.permit 0 = some (technician (.inside stay)) ∧
      (technician (.inside stay)).credential = 20 ∧ (20 : Credential) ≠ 3) ∧
    (((entering none).door gate).admission = .openEnter [⟨0, [], none⟩] none ∧
      ((within (.openExit none none)).door gate).admission = .openExit none none ∧
      ((waiting (.running 1060)).door gate).admission = .awaitingConsent 0 (values 2)) ∧
    (let s := (quiet 0).setDoor gate { gateWith .idle with binding := none };
      (s.door gate).binding = none ∧ (∀ n q, s.permit n = some q → q.credential ≠ 99) ∧ s.credentialsDistinct ∧
      s.permit 0 = some (technician .idle) ∧ (technician .idle).credential = 20) := by
  refine ⟨⟨within_credentialsDistinct _, by simp [within, gateWith], by simp [within, gateWith],
    within_technician _, rfl, fun e m deadline he => ?_⟩,
    ⟨estate_credentialsDistinct 0 .idle none (.inside stay) .idle (some occupied), by simp, by decide, ?_⟩,
    fun n q st h => ?_, ⟨by simp [within, gateWith], within_technician _, rfl, by decide⟩,
    ⟨by simp [entering, gateWith], by simp [within, gateWith], by simp [waiting, gateWith]⟩, by simp,
    fun n q h => ?_, quiet_credentialsDistinct 0, by simp [quiet], rfl⟩
  · simp [within, he, Door.initial]
  · rw [State.setDoor_door, if_neg (by decide)]
    simp [within, gateWith]
  · simp only [quiet, estate_permit] at h
    split_ifs at h <;> obtain rfl := (by simpa using h : _ = q) <;> simp [escort, technician]
  · simp only [State.setDoor_permit, quiet, estate_permit] at h
    split_ifs at h <;> obtain rfl := (by simpa using h : _ = q) <;> decide

/-- A pairing at the gate whose Exit is presented by a permit Inside its room, and by a credential of no permit. -/
theorem witness_ExitIsAlwaysAnswered_pairing :
    let s := (paired (firstStep 1 (.running 1020)) 2).setPermit 2
      (some { technician (.inside stay) with credential := 21 })
    s.pairingsSound ∧ s.credentialsDistinct ∧ (21 : Credential) ≠ 0 ∧ (s.lane gate.lane).phase = .polling ∧
    (s.lane gate.lane).position = gate.address ∧ (s.door gate).binding = some ⟨home, .outer⟩ ∧ (s.door gate).admission = .pairing 0 (values 2) ∧
    s.slot 0 = some (firstStep 1 (.running 1020)) ∧
    s.permit 2 = some { technician (.inside stay) with credential := 21 } ∧ stay.room = home ∧
    (∀ e m deadline, e ≠ gate → (s.door e).admission ≠ .openExit (some m) deadline) ∧
    ∀ n q, s.permit n = some q → q.credential ≠ 99 := by
  have hn : ∀ k x, (paired (firstStep 1 (.running 1020)) 2).slot k = some x → x.holds 2 = false := fun k x h => by
    simp only [paired, estate_slot] at h
    split_ifs at h
    obtain rfl : _ = x := by simpa using h
    decide
  refine ⟨pairingsSound_setPermit _ (paired_pairingsSound ..) hn, fun i j a b hi hj hab => ?_, by decide,
    by simp [paired, gate], by simp [paired, gate], by simp [paired, gateWith], by simp [paired, gateWith],
    by simp [paired], by simp, rfl, fun e m deadline he => by simp [paired, he, Door.initial], fun n q h => ?_⟩
  · simp only [paired, State.setPermit_permit, estate_permit] at hi hj
    split_ifs at hi hj <;> obtain rfl := (by simpa using hi : _ = a) <;> obtain rfl := (by simpa using hj : _ = b) <;>
      simp_all [technician, escort]
  · simp only [paired, State.setPermit_permit, estate_permit] at h
    split_ifs at h <;> obtain rfl := (by simpa using h : _ = q) <;> simp [technician, escort]

/-- A gate not in Pairing: Unbound; a credential of no permit; a permit that is Idle; and one in the room. -/
theorem witness_CheckInRenewsDeadline :
    (∀ n v, ((quiet 0).door gate).admission ≠ .pairing n v) ∧
    (let s := (quiet 0).setDoor gate { gateWith .idle with binding := none };
      (s.door gate).binding = none ∧ (∀ n v, (s.door gate).admission ≠ .pairing n v) ∧ s.credentialsDistinct ∧
      s.permit 0 = some (technician .idle) ∧ (technician .idle).credential = 20 ∧
      ∀ n q, s.permit n = some q → q.credential ≠ 99) ∧
    (((quiet 0).door gate).binding = some ⟨home, .outer⟩ ∧ (∀ n q, (quiet 0).permit n = some q → q.credential ≠ 99) ∧
      (quiet 0).permit 0 = some (technician .idle) ∧ ∀ st, (technician .idle).state ≠ .inside st) ∧
    ((within .idle).credentialsDistinct ∧ (within .idle).permit 0 = some (technician (.inside stay)) ∧
      stay.room = home ∧ (within .idle).workOrder 1 = some (job 2) ∧ (20 : Credential) ≠ 0 ∧
      ((within .idle).lane gate.lane).phase = .polling ∧ ((within .idle).lane gate.lane).position = gate.address) := by
  have h99 : ∀ n q, (quiet 0).permit n = some q → q.credential ≠ 99 := fun n q h => by
    simp only [quiet, estate_permit] at h
    split_ifs at h <;> obtain rfl := (by simpa using h : _ = q) <;> decide
  refine ⟨by simp [quiet, gateWith], ⟨by simp, by simp [gateWith], quiet_credentialsDistinct 0, by simp [quiet], rfl, h99⟩,
    ⟨by simp [quiet, gateWith], h99, quiet_technician 0, by simp [technician]⟩, within_credentialsDistinct _, within_technician _, rfl, within_job _,
    by decide, gate_polled.1, gate_polled.2⟩

/-- The technician reserved at the gate, alone, with the clock Set and Unset, and with a window that has closed. -/
theorem witness_PassageConfirmsEntry :
    (let s := entering (some 1010);
      (s.lane gate.lane).phase = .polling ∧ (s.lane gate.lane).position = gate.address ∧
      (s.door gate).binding = some ⟨home, .outer⟩ ∧
      (s.door gate).admission = .openEnter [⟨0, [], none⟩] (some 1010) ∧
      (([⟨0, [], none⟩] : List HeldPermit).map HeldPermit.permit).Nodup ∧
      s.permit 0 = some (technician (.pending home gate false)) ∧ s.workOrder 1 = some (job 2) ∧
      s.clock = some ⟨400, 600, 0⟩ ∧ s.recordsSound ∧ s.record 0 = some reserved ∧ reserved.room = home) ∧
    (let s := { entering none with clock := none };
      s.clock = none ∧ (s.door gate).admission = .openEnter [⟨0, [], none⟩] none) ∧
    (let s := (entering none).setDoor gate (gateWith (.openEnter [⟨0, [⟨0, 600⟩], some ⟨600, 1⟩⟩] none));
      (s.door gate).admission = .openEnter [⟨0, [⟨0, 600⟩], some ⟨600, 1⟩⟩] none ∧
      (Window.mk 0 600).contains 600 = false ∧ (Window.mk 600 1).contains 600 = true) := by
  refine ⟨⟨gate_polled.1, gate_polled.2, by simp [entering, gateWith], by simp [entering, gateWith],
    by decide, by simp [entering], by simp [entering, counted, PermitState.counted], rfl,
    estate_recordsSound _ _ _ _ _ _ (by simp [reserved]), by simp [entering], rfl⟩,
    ⟨rfl, ?_⟩, by simp [gateWith], by decide, by decide⟩
  show ((entering none).door gate).admission = _
  simp [entering, gateWith]

/-- The technician leaving through the gate; revoked, and the last inside of a Closing work order, or not the last; a
gate open for an Exit that holds no permit; an Idle gate; and an Unbound one. -/
theorem witness_PassageConfirmsExitOrIsUnrecorded :
    (let s := within (.openExit (some 0) (some 1010));
      (s.lane gate.lane).phase = .polling ∧ (s.lane gate.lane).position = gate.address ∧
      ((answered s).door gate).binding = some ⟨home, .outer⟩ ∧
      ((answered s).door gate).admission = .openExit (some 0) (some 1010) ∧ s.recordsSound ∧
      s.permit 0 = some (technician (.inside stay)) ∧ stay.room = home ∧ s.record 0 = some occupied ∧
      occupied.room = home ∧ s.workOrder 1 = some (job 2) ∧ ¬ s.lastCounted 0 (technician (.inside stay)) (job 2) ∧
      ¬ s.allowanceAt home occupied.guaranteed occupied.ceiling < occupied.load - 2) ∧
    (let s := leaving (.openExit (some 0) none);
      (s.lane gate.lane).phase = .polling ∧ ((answered s).door gate).admission = .openExit (some 0) none ∧ s.recordsSound ∧
      s.permit 0 = some { technician (.inside stay) with revoked := true } ∧ s.record 0 = some occupied ∧
      s.workOrder 1 = some { job 2 with state := .closing .withdrawn }) ∧
    ((answered (within (.openExit none none))).door gate).admission = .openExit none none ∧
    ((answered (quiet 0)).door gate).admission.state ≠ .passageOpen ∧
    ((answered ((quiet 0).setDoor gate { gateWith .idle with binding := none })).door gate).binding = none := by
  refine ⟨⟨gate_polled.1, gate_polled.2, by decide +kernel, by decide +kernel,
    within_recordsSound _, within_technician _, rfl, within_record _, rfl, within_job _, fun h => ?_, by decide +kernel⟩,
    ⟨by simp [leaving, within, gate], by decide +kernel,
      within_recordsSound _, by simp [leaving], by simp [leaving, within], by simp [leaving]⟩,
    by decide +kernel, by decide +kernel, by decide +kernel⟩
  exact absurd h.1 (by decide)

/-- The test estate with its technician reserved and revoked, of a work order that is Closing. -/
def expiring : State :=
  ((entering (some 1000)).setPermit 0 (some { technician (.pending home gate false) with revoked := true })).setWorkOrder
    1 (some { job 2 with state := .closing .expired })

/-- One second before the passage deadline and at it, for an Enter and for an Exit; and for an Enter whose permit was
revoked, the last counted of a Closing work order. -/
theorem witness_PassageDeadlineEndsAdmission :
    (((entering (some 1001)).door gate).admission.deadline = some 1001 ∧ (entering (some 1001)).count < 1001) ∧
    (let s := within (.openExit (some 0) (some 1000));
      (s.door gate).admission = .openExit (some 0) (some 1000) ∧ 1000 ≤ s.count) ∧
    (let s := entering (some 1000);
      (s.door gate).admission = .openEnter [⟨0, [], none⟩] (some 1000) ∧ 1000 ≤ s.count ∧
      s.permit 0 = some (technician (.pending home gate false)) ∧ (technician (.pending home gate false)).revoked =
        false ∧ s.workOrder 1 = some (job 2) ∧ (job 2).isClosing = false ∧ s.recordsSound ∧
      s.record 0 = some reserved ∧ reserved.room = home ∧
      ¬ s.lastCounted 0 (technician (.pending home gate false)) (job 2) ∧ s.booksBalance ∧
      ¬ s.allowanceAt home reserved.guaranteed reserved.ceiling < reserved.load - 2) ∧
    ((expiring.door gate).admission = .openEnter [⟨0, [], none⟩] (some 1000) ∧ 1000 ≤ expiring.count ∧
      expiring.recordsSound ∧ expiring.record 0 = some reserved ∧
      expiring.permit 0 = some { technician (.pending home gate false) with revoked := true } ∧
      expiring.workOrder 1 = some { job 2 with state := .closing .expired } ∧
      expiring.lastCounted 0 { technician (.pending home gate false) with revoked := true }
        { job 2 with state := .closing .expired }) := by
  have hr : (entering (some 1000)).recordsSound := estate_recordsSound _ _ _ _ _ _ (by simp [reserved])
  refine ⟨⟨by simp [entering, gateWith, Admission.deadline], by simp [entering]⟩,
    ⟨by simp [within, gateWith], by simp [within]⟩, ⟨by simp [entering, gateWith], by simp [entering], by simp [entering],
    rfl, by simp [entering, counted, PermitState.counted], rfl, hr, by simp [entering], rfl,
    fun h => absurd h.1 (by decide), entering_booksBalance _, by decide +kernel⟩, by simp [expiring, entering, gateWith],
    by simp [expiring, entering], hr, by simp [expiring, entering], by simp [expiring], by simp [expiring],
    rfl, fun m r hm h hw => ?_⟩
  simp only [expiring, entering, State.setWorkOrder_permit, State.setPermit_permit, estate_permit, hm, ↓reduceIte] at h
  split_ifs at h
  obtain rfl : escort .idle = r := by simpa using h
  rfl

/-- A free slot; a slot a second before its deadline, frozen, and at its deadline; a remote room of level 2; one of
level 3; and a wait for consent. -/
theorem witness_PairingTimesOut :
    (quiet 0).slot 0 = none ∧
    (∀ rounds timer level, (paired (firstStep rounds timer) level).slot 0 = some (firstStep rounds timer) ∧
      (paired (firstStep rounds timer) level).pairingsSound ∧
      ((paired (firstStep rounds timer) level).door gate).admission = .pairing 0 (values level) ∧
      (paired (firstStep rounds timer) level).permit 0 = some (technician .idle)) ∧
    (quiet 0).count < 1001 ∧ 1000 ≤ (quiet 0).count ∧ (values 2).remote = true ∧ (values 2).level ≠ 3 ∧
    (values 3).level = 3 ∧
    ((waiting (.running 1000)).slot 0 = some ⟨gate, 0, 1, .consent, none, .running 1000⟩ ∧
      (waiting (.running 1000)).pairingsSound) := by
  refine ⟨by simp [quiet], fun rounds timer level => ⟨by simp [paired], paired_pairingsSound .., by simp [paired,
    gateWith], by simp [paired]⟩, by simp [quiet], by simp [quiet], rfl, by decide, rfl, by simp [waiting],
    waiting_pairingsSound _⟩

/-- Decision 2 and lane 4; a sender other than Security; a door with no wait; and a wait with place in the room. -/
theorem witness_RemoteConsentDecides :
    ((quiet 0).takes .sec 25 (RemoteConsentArgs.encode ⟨⟨4, 16⟩, 2⟩) ∧ 3 < (4#8).toNat ∧ 15 < (16#8).toNat ∧
      1 < (2#8).toNat) ∧
    ((quiet 0).takes .fac 25 (RemoteConsentArgs.encode ⟨⟨0, 0⟩, 1⟩) ∧ carriesDoor ⟨0, 0⟩ gate) ∧
    ((quiet 0).takes .sec 25 (RemoteConsentArgs.encode ⟨⟨0, 0⟩, 1⟩) ∧
      ∀ n v, ((quiet 0).door gate).admission ≠ .awaitingConsent n v) ∧
    (let s := waiting (.running 1060);
      (∀ decision, s.takes .sec 25 (RemoteConsentArgs.encode ⟨⟨0, 0⟩, decision⟩)) ∧ s.pairingsSound ∧
      (s.door gate).admission = .awaitingConsent 0 (values 2) ∧ (s.door gate).binding = some ⟨home, .outer⟩ ∧
      s.slot 0 = some ⟨gate, 0, 1, .consent, none, .running 1060⟩ ∧ s.permit 0 = some (technician .idle) ∧
      s.workOrder 1 = some (job 0) ∧ (job 0).party + 2 ≤ (job 0).capInForce ∧
      s.loadOf home + 2 ≤ s.allowanceAt home 6 10 ∧ s.recordFor home = some 0) := by
  refine ⟨⟨takes_estate .., by decide⟩, ⟨takes_estate .., rfl, rfl⟩, ⟨takes_estate .., by simp [quiet, gateWith]⟩,
    fun d => takes_estate .., waiting_pairingsSound _, by simp [waiting, gateWith], by simp [waiting, gateWith],
    by simp [waiting], by simp [waiting], by simp [waiting, counted, PermitState.counted], by decide,
    by decide +kernel, by decide +kernel⟩

/-- The wait of the test estate in a room of another guaranteed number. -/
def waitingIn (guaranteed : Nat) : State :=
  estate 2 (.awaitingConsent 0 { values 2 with guaranteed := guaranteed })
    (some ⟨gate, 0, 1, .consent, none, .running 1060⟩) .idle .idle none

theorem waitingIn_pairingsSound (guaranteed : Nat) : (waitingIn guaranteed).pairingsSound :=
  estate_pairingsSound ⟨rfl, rfl, .inl rfl, _, rfl, .inr ⟨rfl, rfl⟩⟩

/-- A consent granted with a cap in force of 1 and of 2 and in a room of 1 and of 2 places, for a weight of 2; and with
every record in use. -/
theorem witness_RemoteConsentDecides_failing :
    (∀ n, let s := (waitingIn 6).setWorkOrder 1 (some { job 0 with capInForce := n });
      s.takes .sec 25 (RemoteConsentArgs.encode ⟨⟨0, 0⟩, 0⟩) ∧ s.pairingsSound ∧
      s.workOrder 1 = some { job 0 with capInForce := n } ∧ (job 0).party + 2 = 2) ∧
    (∀ g, (waitingIn g).takes .sec 25 (RemoteConsentArgs.encode ⟨⟨0, 0⟩, 0⟩) ∧ (waitingIn g).pairingsSound ∧
      ((waitingIn g).door gate).admission = .awaitingConsent 0 { values 2 with guaranteed := g }) ∧
    (∀ g ∈ [1, 2], (waitingIn g).loadOf home + 2 = 2 ∧ (waitingIn g).allowanceAt home g 10 = g) ∧
    (let s := fullRecords (waitingIn 6);
      s.pairingsSound ∧ s.loadOf home + 2 ≤ s.allowanceAt home 6 10 ∧ s.recordFor home = none) := by
  refine ⟨fun n => ⟨takes_of_port (by simp [waitingIn]) .., pairingsSound_setWorkOrder (w := job 0) (waitingIn_pairingsSound 6)
      (by simp [waitingIn, counted, PermitState.counted]) rfl, by simp, rfl⟩,
    fun g => ⟨takes_estate .., waitingIn_pairingsSound g, by simp [waitingIn, gateWith]⟩, by decide +kernel,
    waitingIn_pairingsSound 6, by decide +kernel, by decide +kernel⟩

/-- Facilities; lane 4; and lane 0 held and free, with a slot of its door running and frozen. -/
theorem witness_HoldAndReleaseFreezeSlots :
    ((quiet 0).takes .fac 26 (NumberArgs.encode ⟨0⟩) ∧ (quiet 0).takes .fac 27 (NumberArgs.encode ⟨0⟩)) ∧
    ((quiet 0).takes .sec 26 (NumberArgs.encode ⟨4⟩) ∧ 3 < (4#8).toNat) ∧
    (let s := paired (firstStep 1 (.running 1000)) 2;
      s.takes .sec 26 (NumberArgs.encode ⟨0⟩) ∧ (0#8).toNat = (0 : LaneNo).val ∧ (s.lane 0).held ≠ true ∧
      s.slot 0 = some (firstStep 1 (.running 1000)) ∧ (firstStep 1 (.running 1000)).door.lane = 0 ∧
      (firstStep 1 (.running 1000)).door.lane ≠ 3) ∧
    (let s := (paired (firstStep 1 (.frozen 1)) 2).setLane 0 ⟨0, true, .polling, []⟩;
      s.takes .sec 27 (NumberArgs.encode ⟨0⟩) ∧ (s.lane 0).held ≠ false ∧
      s.slot 0 = some (firstStep 1 (.frozen 1))) := by
  refine ⟨⟨takes_estate .., takes_estate ..⟩, ⟨takes_estate .., by decide⟩,
    ⟨takes_estate .., rfl, by simp [paired], by simp [paired], rfl, by decide⟩,
    takes_of_port (by simp [paired]) .., by simp, by simp [paired]⟩

theorem witness_ResetLaneDropsAndForgets :
    ((quiet 0).takes .lld 28 (NumberArgs.encode ⟨0⟩)) ∧
    ((quiet 0).takes .sec 28 (NumberArgs.encode ⟨4⟩) ∧ 3 < (4#8).toNat) ∧
    (let s := paired (firstStep 1 (.running 1020)) 2;
      s.takes .sec 28 (NumberArgs.encode ⟨0⟩) ∧ (0#8).toNat = (0 : LaneNo).val ∧ s.pairingsSound ∧
      s.slot 0 = some (firstStep 1 (.running 1020)) ∧ (firstStep 1 (.running 1020)).door.lane = 0) ∧
    (let s := entering none;
      s.takes .sec 28 (NumberArgs.encode ⟨3⟩) ∧ (3#8).toNat = (3 : LaneNo).val ∧ s.pairingsSound) ∧
    (let s := (entering none).setDoor gate
        { gateWith (.openEnter [⟨0, [], none⟩] none) with outgoing := [unsentOpen] };
      s.takes .sec 28 (NumberArgs.encode ⟨0⟩) ∧ s.booksBalance ∧ (s.door gate).openWaiting = true) := by
  refine ⟨takes_estate .., ⟨takes_estate .., by decide⟩, ⟨takes_estate .., rfl, paired_pairingsSound ..,
    by simp [paired], rfl⟩, ⟨takes_estate .., rfl, estate_pairingsSound_none _ _ _ _ _ rfl⟩,
    takes_of_port (by simp [entering]) .., entering_setDoor_booksBalance rfl, by simp [Door.openWaiting, unsentOpen]⟩

/-- One second before both deadlines, and at them. -/
theorem witness_PermitDeadlinesRaiseFlags :
    (let s := { within .idle with count := 999 };
      s.permit 0 = some (technician (.inside stay)) ∧ stay.checkInDeadline = some 1000 ∧
      stay.stayDeadline = some 1000 ∧ s.count < 1000) ∧
    ((within .idle).permit 0 = some (technician (.inside stay)) ∧ 1000 ≤ (within .idle).count) :=
  ⟨⟨within_technician .idle, rfl, rfl, by decide⟩, within_technician .idle, by simp [within]⟩

/-! ### Laws of the whole device -/

/-- The test estate in Lockdown with a presentation waiting. -/
theorem witness_LockdownOpensNoDoorForEnter :
    let s := { quiet 0 with posture := .lockdown, pending := [.presentEnter gate 20] }
    s.waiting = [] ∧ s.lockdownQuiet ∧ s.posture = .lockdown ∧ ∃ t, step s = .next t ∧ t.posture = .lockdown := by
  refine ⟨rfl, fun _ => ⟨fun d => ?_, fun l v h => ?_⟩, rfl, _, rfl, by decide +kernel⟩
  case refine_2 =>
    have h : ((quiet 0).lane l).phase = .sendingVerdict v := h
    rw [quiet, estate_lane] at h
    split_ifs at h
    exact LanePhase.noConfusion h
  show (∀ v ∈ ((quiet 0).door d).outgoing, v.outcome ≠ .admitted) ∧ match ((quiet 0).door d).admission with
    | .idle | .openExit .. => True
    | .pairing .. | .awaitingConsent .. | .openEnter .. => False
  simp only [quiet, estate_door]
  split_ifs <;> simp [gateWith, Door.initial]

theorem witness_DeviceBoundsAreKept :
    let s := { quiet 0 with pending := [.presentEnter gate 20] }
    (∃ t, step s = .next t) ∧ s.waiting = [] ∧ s.queuesBounded ∧ s.cacheBounded ∧ s.settingsInRange ∧ s.portsOrdered := by
  have hq : (quiet 0).queuesBounded := fun p => by simp [quiet, Port.initial, Port.routineHeld]
  have hs : ∀ n, ((quiet 0).site n).extra ≤ 127 ∧ ((quiet 0).site n).forced ≤ 63 := fun n => by simp [quiet]
  have hd : ∀ d, ((quiet 0).door d).misses ≤ 3 := fun d => by
    simp only [quiet, estate_door]
    split_ifs <;> simp [gateWith, Door.initial]
  have ho : (quiet 0).portsOrdered := fun p => by simp [quiet, Port.initial]
  refine ⟨⟨_, rfl⟩, rfl, hq, ⟨by decide, ?_⟩, ⟨fun t h => ?_, by decide, hs, hd⟩, ho⟩
  · show (estateCache 0).Pairwise _
    simp [estateCache]
  · obtain rfl : _ = t := by simpa [quiet] using h
    decide

theorem witness_TableLawsAreKept :
    let s := { paired (firstStep 1 (.running 1020)) 2 with pending := [.presentEnter gate 3] }
    (∃ t, step s = .next t) ∧ s.waiting = [] ∧ s.freeBlocksZero ∧ s.topTablesOwned ∧ s.goMeansDraining ∧ s.spacesSound ∧
    s.rosterFixed ∧ s.credentialsDistinct ∧ s.recordsSound := by
  have hb := estate_booksBalance (paired_pairingsSound 1 (.running 1020) 2)
  refine ⟨⟨_, rfl⟩, rfl, fun b h => ?_, fun n d b hd hb => ?_, fun n h => ?_, hb.1, hb.2.1,
    estate_credentialsDistinct 2 (.pairing 0 (values 2)) (some (firstStep 1 (.running 1020))) .idle .idle none,
    hb.2.2.2.2.2.1⟩
  · have hk : ({ paired (firstStep 1 (.running 1020)) 2 with pending := [.presentEnter gate 3] } : State).block b = _ :=
      estate_block 2 (.pairing 0 (values 2)) (some (firstStep 1 (.running 1020))) .idle .idle none b
    rw [hk] at h ⊢
    split_ifs with h0
    · simp [h0] at h
    · rfl
  · have hk : ({ paired (firstStep 1 (.running 1020)) 2 with pending := [.presentEnter gate 3] } : State).space n = _ :=
      estate_space 2 (.pairing 0 (values 2)) (some (firstStep 1 (.running 1020))) .idle .idle none n
    rw [hk] at hd
    simp only [SpaceRecord.describes] at hd
    split_ifs at hd <;> simp [SpaceRecord.unused] at hd <;> subst_vars <;> simp [Descriptor.names] at hb
    subst hb
    decide +kernel
  · have hk : ({ paired (firstStep 1 (.running 1020)) 2 with pending := [.presentEnter gate 3] } : State).space n = _ :=
      estate_space 2 (.pairing 0 (values 2)) (some (firstStep 1 (.running 1020))) .idle .idle none n
    rw [hk] at h
    split_ifs at h <;> simp [SpaceRecord.go, SpaceRecord.unused] at h

/-- A pairing at the gate with its escort's presentation waiting. -/
theorem witness_BooksStayBalanced :
    let s := { paired (firstStep 1 (.running 1020)) 2 with pending := [.presentEnter gate 3] }
    s.waiting = [] ∧ s.booksBalance ∧ s.lockdownQuiet ∧ ∃ t, step s = .next t := by
  refine ⟨rfl, estate_booksBalance (paired_pairingsSound 1 (.running 1020) 2), fun h => ?_, _, rfl⟩
  simp [paired] at h

end Sys2Proof.Tests
end

/-! SUPPORT. An invariant of the device through the service of resolution requests (R38): a property of states that the
rows met on the way and the decisions that wait keep holds after every request, and after the last of them. -/

namespace Sys2Proof.Machine

/-- A property `I` of states, with what it asks of each decision that waits (`E`), that nothing which happens while
requests are served breaks: it does not read the cache or what is to meet requests, it asks no more of the line than `E`
of each decision in it, and it is kept by the rows that meet requests and by the decisions that go on or are discarded. -/
structure KeptByRequests (I : State → Prop) (E : Errand → Prop) : Prop where
  cache : ∀ {s : State} (v : List CacheEntry), I s → I { s with cache := v }
  meetings : ∀ {s : State} (v : List Meetings), I s → I { s with meetings := v }
  cut : ∀ {s : State} {v : List Waiting}, I s → (∀ w ∈ v, w ∈ s.waiting) → I { s with waiting := v }
  waits : ∀ {s : State} {w : Waiting}, I s → w ∈ s.waiting → E w.errand
  wait : ∀ {s : State} {e : Errand} (asks : WaitingFor), I s → E e → I (s.wait e asks)
  resume : ∀ {s : State} {e : Errand} (rights : Resolution (GrantSummary × OverlaySummary)),
    I s → E e → I (s.resume rights e)
  discard : ∀ {s : State} (w : Waiting), I s → I (s.discard w)
  row : ∀ {s t : State} {i : Instr}, I s → rowEffect i s = some t → I t

/-- A fold keeps what each of its rounds keeps. -/
theorem foldl_keeps {σ α : Type} {I : σ → Prop} {f : σ → α → σ} {l : List α} {s : σ} (h : I s)
    (hf : ∀ u a, a ∈ l → I u → I (f u a)) : I (l.foldl f s) := by
  induction l generalizing s with
  | nil => exact h
  | cons a l ih => exact ih (hf s a (by simp) h) fun u b hb => hf u b (by simp [hb])

namespace KeptByRequests

variable {I : State → Prop} {E : Errand → Prop} {s : State} {own kept : List Party} {n : SpaceNo} {r : Designator}
  {met : Meetings} {x : Decision} {y : Progress}

/-! ### One request -/

theorem take (k : KeptByRequests I E) (i : Instr) (h : I y.state) : I (y.take own n r i).state := by
  rcases y.take_cases own n r i with hy | ⟨t, ht, -, -, ⟨-, hy⟩ | ⟨-, -, hy⟩⟩ <;> rw [hy]
  · exact h
  · exact foldl_keeps (k.row h ht) fun u w _ hu => k.discard w hu
  · exact k.row h ht

theorem takeAll (k : KeptByRequests I E) (l : List Instr) (h : I y.state) :
    I (l.foldl (Progress.take own n r) y).state :=
  foldl_keeps (I := fun y : Progress => I y.state) h fun _ i _ hu => k.take i hu

theorem beginRequest (k : KeptByRequests I E) (h : I s) : I (s.beginRequest own n r met).state :=
  k.takeAll (y := ⟨s, false, false⟩) _ h

theorem meet (k : KeptByRequests I E) (h : I y.state) : I (y.meet own n r met).2.state :=
  k.takeAll _ (k.takeAll _ (k.takeAll _ (k.takeAll _ h)))

theorem touch (k : KeptByRequests I E) (e : CacheEntry) (h : I y.state) : I (y.touch e).state := k.cache _ h

theorem fill (k : KeptByRequests I E) (e : CacheEntry) (h : I y.state) : I (y.fill e).state := by
  unfold Progress.fill
  split
  · exact h
  · exact k.cache _ h

theorem serveGrant (k : KeptByRequests I E) (h : I s) : I (Machine.serveGrant own n r met s).1 := by
  have hb := k.beginRequest (own := own) (n := n) (r := r) (met := met) h
  have hy := k.meet (own := own) (n := n) (r := r) (met := met) hb
  unfold Machine.serveGrant
  dsimp only
  split
  · simpa using hy
  · split
    · simpa using k.meet (k.touch _ hb)
    · split
      · simpa using hy
      · simpa using k.fill _ hy

theorem serveOverlay (k : KeptByRequests I E) (h : I s) : I (Machine.serveOverlay own r met s).1 := by
  have hb := k.beginRequest (own := own) (n := 0) (r := r) (met := met) h
  have hy := k.meet (own := own) (n := 0) (r := r) (met := met) hb
  unfold Machine.serveOverlay
  dsimp only
  split
  · simpa using hy
  · split
    · simpa using k.meet (k.touch _ hb)
    · split
      · simpa using hy
      · simpa using k.fill _ hy

/-! ### The line -/

theorem conclude (k : KeptByRequests I E) {e : Errand} (rights : Resolution (GrantSummary × OverlaySummary)) (h : I s)
    (he : E e) : I (s.conclude kept e rights) := by
  unfold State.conclude
  dsimp only
  split
  · exact k.resume rights h he
  · exact k.wait _ h he

theorem serveFront (k : KeptByRequests I E) (h : I s) : I (s.serveFront own kept met).1 := by
  unfold State.serveFront
  split
  · exact h
  · rename_i w rest hw
    have he : E w.errand := k.waits h (by simp [hw])
    have h0 : I { s with waiting := rest } := k.cut h fun v hv => by simp [hw, hv]
    dsimp only
    split
    · have hg := k.serveGrant (own := w.errand.party :: own) (n := w.errand.space) (r := w.errand.party.room)
        (met := met) h0
      split <;> rename_i hq <;> rw [hq] at hg
      · exact k.discard w hg
      · exact k.conclude _ hg he
      · exact k.wait _ hg he
    · have hg := k.serveOverlay (own := w.errand.party :: own) (r := w.errand.party.room) (met := met) h0
      split <;> rename_i hq <;> rw [hq] at hg
      · exact k.discard w hg
      · exact k.conclude _ hg he
      · exact k.conclude _ hg he
    · exact k.conclude _ h0 he

theorem serveAhead (k : KeptByRequests I E) {m : Nat} (h : I s) : I (s.serveAhead own m).1 := by
  induction m generalizing s with
  | zero => exact h
  | succ m ih =>
    unfold State.serveAhead
    have h1 : I (if s.frontAsks then s.served.serveFront own own s.meeting else s.serveFront own own .none).1 := by
      split
      · exact k.serveFront (k.meetings _ h)
      · exact k.serveFront h
    split <;> rename_i hq <;> rw [hq] at h1
    · exact h1
    · exact ih h1

/-! ### The requests of the row in hand -/

theorem resolveGrant (k : KeptByRequests I E) (h : I s) : I (Machine.resolveGrant x n r s).1 := by
  have h1 := k.serveAhead (own := [⟨x, r⟩]) (m := s.waiting.length) h
  unfold Machine.resolveGrant
  split <;> rename_i hq <;> rw [hq] at h1
  · exact h1
  · exact k.serveGrant (k.meetings _ h1)

theorem resolveOverlay (k : KeptByRequests I E) (h : I s) : I (Machine.resolveOverlay x r s).1 := by
  have h1 := k.serveAhead (own := [⟨x, r⟩]) (m := s.waiting.length) h
  unfold Machine.resolveOverlay
  split <;> rename_i hq <;> rw [hq] at h1
  · exact h1
  · exact k.serveOverlay (k.meetings _ h1)

theorem checkRights (k : KeptByRequests I E) {w : WorkOrder} {ow : Option Window} {m : Nat} (h : I s) :
    I (Machine.checkRights x n r w ow m s).1 := by
  have h1 := k.resolveGrant (x := x) (n := n) (r := r) h
  have h2 := k.resolveOverlay (x := x) (r := r) h1
  unfold Machine.checkRights
  rcases hg : Machine.resolveGrant x n r s with ⟨s1, g | c | _⟩ <;> rw [hg] at h1 h2
  · rcases ho : Machine.resolveOverlay x r s1 with ⟨s2, ov | c | _⟩ <;> rw [ho] at h2 <;> simpa [ho] using h2
  all_goals exact h1

theorem testOption (k : KeptByRequests I E) {now : Reading} {w : WorkOrder} {j : Nat} {o : WorkOption} (h : I s) :
    I (Machine.testOption x now w j o s).1 := by
  unfold Machine.testOption
  split
  · exact h
  · exact k.checkRights h

theorem runSelection (k : KeptByRequests I E) {now : Reading} {w : WorkOrder} (h : I s) :
    I (Machine.runSelection x now w s).1 := by
  have tests : ∀ (l : List WorkOption) (j : Nat) (u : State), I u → I (testOptions x now w j l u).1 := by
    intro l
    induction l with
    | nil => exact fun _ _ hu => hu
    | cons o l ih =>
      intro j u hu
      have h1 := k.testOption (x := x) (now := now) (w := w) (j := j) (o := o) hu
      unfold testOptions
      split <;> rename_i hq <;> rw [hq] at h1
      · exact h1
      · exact ih _ _ h1
  exact tests _ _ _ h

/-! ### The requests that still wait -/

theorem endTurns (k : KeptByRequests I E) (h : I s) : I s.endTurns := by
  refine foldl_keeps (k.cut h (by simp)) fun u w hw hu => ?_
  have he : E w.errand := k.waits h hw
  split
  · exact k.resume _ hu he
  · exact k.wait _ hu he
  · exact k.wait _ hu he

theorem serveMet (k : KeptByRequests I E) {p : Option Authority} (l : List Meetings) (h : I s) :
    I (s.serveMet p l) := by
  induction l generalizing s with
  | nil => exact h
  | cons m rest ih =>
    unfold State.serveMet
    split
    · exact h
    · exact ih (k.serveFront (k.meetings _ h))

theorem serveRest (k : KeptByRequests I E) {p : Option Authority} (m : Nat) (h : I s) : I (s.serveRest p m) := by
  induction m generalizing s with
  | zero => exact h
  | succ m ih =>
    unfold State.serveRest
    split
    · exact h
    · exact ih (k.serveFront h)

/-- The requests that still wait are served, and the property holds when none does. -/
theorem settle (k : KeptByRequests I E) {p : Option Authority} (h : I s) : I (s.settle p) := by
  unfold State.settle
  split
  · exact h
  · exact k.serveRest _ (k.serveMet _ (k.endTurns h))

end KeptByRequests

end Sys2Proof.Machine

/-! SUPPORT. The laws of the tables that every step keeps, each by itself (R1, R17, R23, R28, R91, R102, R118): what a
write of each table must respect, and that the shared operations respect it. -/

namespace Sys2Proof.Machine

open State (changesOnly_refl)

/-! ### The laws -/

/-- The laws of the tables that every step keeps, each by itself; and `met`, of what is still to meet requests, which a
row taken while decisions wait leaves as it is, and the service of requests takes from. -/
inductive TableLaw where
  | freeBlocks
  | topTables
  | go
  | spaces
  | roster
  | credentials
  | records
  | met (m : List Meetings)

/-- A selection is for a general work order, and so are those whose turn in the same row is still to come. -/
def Errand.general : Errand → Prop
  | .contractor _ | .escort _ => True
  | .selection e => e.number ≠ 0 ∧ 0 ∉ e.run.later

/-- A law holds of a state. While the forced switch of space `f` is under way the Go flag says nothing of the drain count
of that space (R32). With work order 0 fixed, no selection that waits is for it (R111, R112). -/
def TableLaw.Holds (L : TableLaw) (f : Option SpaceNo) (s : State) : Prop :=
  match L with
  | .freeBlocks => s.freeBlocksZero
  | .topTables => s.topTablesOwned
  | .go => ∀ n, f ≠ some n → (s.space n).go = true → (s.space n).inUse = true ∧ 1 ≤ (s.space n).drain
  | .spaces => s.spacesSound
  | .roster => s.rosterFixed ∧ ∀ w ∈ s.waiting, w.errand.general
  | .credentials => s.credentialsDistinct
  | .records => s.recordsSound
  | .met m => s.meetings = m

/-- What a law asks of a decision that waits. -/
def TableLaw.allows (L : TableLaw) (e : Errand) : Prop := L = .roster → e.general

/-- The parts that a law reads. -/
def TableLaw.fields : TableLaw → List Field
  | .freeBlocks => [.blocks]
  | .topTables => [.blocks, .spaces]
  | .go | .spaces => [.spaces]
  | .roster => [.workOrders, .waiting]
  | .credentials => [.permits]
  | .records => [.occupancy]
  | .met _ => [.meetings]

/-- The parts that no law of the tables reads. -/
def plainFields : List Field :=
  [.cache, .clock, .count, .posture, .sites, .doors, .slots, .lanes, .ports, .timings, .pending]

variable {L : TableLaw} {f : Option SpaceNo} {s t : State} {fs : List Field}

/-- A change outside the parts that a law reads keeps it. -/
theorem TableLaw.Holds.of_changes (h : L.Holds f s) (hc : s.changesOnly fs t) (hf : ∀ g ∈ L.fields, g ∉ fs) :
    L.Holds f t := by
  have same : ∀ g ∈ L.fields, s.same t g := fun g hg => hc g (hf g hg)
  cases L with
  | freeBlocks =>
    have hb : t.block = s.block := congrArg Vector.get (same .blocks (by decide))
    simpa [TableLaw.Holds, State.freeBlocksZero, hb] using h
  | topTables =>
    have hb : t.block = s.block := congrArg Vector.get (same .blocks (by decide))
    have hs : t.space = s.space := congrArg Vector.get (same .spaces (by decide))
    have ho : t.ownedBy = s.ownedBy := by
      funext a b
      simp only [State.ownedBy, State.blockAt, hb]
    simpa [TableLaw.Holds, State.topTablesOwned, hs, ho] using h
  | go =>
    have hs : t.space = s.space := congrArg Vector.get (same .spaces (by decide))
    simpa [TableLaw.Holds, hs] using h
  | spaces =>
    have hs : t.space = s.space := congrArg Vector.get (same .spaces (by decide))
    simpa [TableLaw.Holds, State.spacesSound, hs] using h
  | roster =>
    have ho : t.workOrder = s.workOrder := congrArg Vector.get (same .workOrders (by decide))
    have hw : t.waiting = s.waiting := same .waiting (by decide)
    simpa [TableLaw.Holds, State.rosterFixed, ho, hw] using h
  | credentials =>
    have hp : t.permit = s.permit := congrArg Vector.get (same .permits (by decide))
    simpa [TableLaw.Holds, State.credentialsDistinct, hp] using h
  | records =>
    have hr : t.record = s.record := congrArg Vector.get (same .occupancy (by decide))
    simpa [TableLaw.Holds, State.recordsSound, hr] using h
  | met m => exact (same .meetings (List.mem_singleton_self _)).trans h

theorem TableLaw.notMem_plainFields : ∀ g ∈ L.fields, g ∉ plainFields := by
  cases L <;> simp [TableLaw.fields, plainFields]

/-- A change outside the tables keeps every law. -/
theorem TableLaw.Holds.of_plain (h : L.Holds f s) (hc : s.changesOnly plainFields t) : L.Holds f t :=
  h.of_changes hc TableLaw.notMem_plainFields

/-! ### Writes of one table -/

/-- What spaces 0 and 1, and every other space, may hold (R22, R23, R27), for one record. -/
def SpaceRecord.soundAt (n : SpaceNo) (r : SpaceRecord) : Prop :=
  (n.val ≤ 1 → r.inUse = true) ∧
  (∀ d, r.describes d →
    (n.val ≤ 1 → d.authority = .sec ∧ d.scope = .estate) ∧ (n.val = 0 → d.isPrivate = true) ∧
    (2 ≤ n.val → d.authority ≠ .sec ∧ d.topOrigin ≠ none)) ∧
  ∀ w, r.waiting = some w → r.owner = some w.descriptor.authority

theorem State.spacesSound_iff : s.spacesSound ↔ ∀ n, (s.space n).soundAt n := by
  constructor
  · rintro ⟨h0, h1, hd, hw⟩ n
    refine ⟨fun hn => ?_, hd n, hw n⟩
    obtain rfl | rfl : n = 0 ∨ n = 1 := by simp only [Fin.ext_iff]; omega
    · exact h0
    · exact h1
  · intro h
    exact ⟨(h 0).1 (by decide), (h 1).1 (by decide), fun n => (h n).2.1, fun n => (h n).2.2⟩

/-- A space record may be written where it brings in no descriptor whose top table is not ready, its Go flag has a drain
count, and it is one that the space may hold. -/
theorem TableLaw.Holds.setSpace {n : SpaceNo} {r : SpaceRecord} (h : L.Holds f s)
    (htop : L = .topTables → ∀ d, r.describes d →
      (s.space n).describes d ∨ ∀ b, d.names b = true → s.ownedBy d.authority b = true)
    (hgo : L = .go → f ≠ some n → r.go = true → r.inUse = true ∧ 1 ≤ r.drain)
    (hsound : L = .spaces → r.soundAt n) : L.Holds f (s.setSpace n r) := by
  cases L with
  | topTables =>
    intro m d b hd hb
    show s.ownedBy d.authority b = true
    rw [State.setSpace_space] at hd
    split_ifs at hd with hm
    · rcases htop rfl d hd with hd | ho
      · exact h n d b hd hb
      · exact ho b hb
    · exact h m d b hd hb
  | go =>
    intro m hm hg
    rw [State.setSpace_space] at hg ⊢
    split_ifs at hg ⊢ with hmn
    · exact hgo rfl (hmn ▸ hm) hg
    · exact h m hm hg
  | spaces =>
    refine State.spacesSound_iff.2 fun m => ?_
    rw [State.setSpace_space]
    split_ifs with hm
    · exact hm ▸ hsound rfl
    · exact State.spacesSound_iff.1 h m
  | _ => exact h

/-- A general work order's record may be written, and in the record of work order 0 the party load. -/
theorem TableLaw.Holds.setWorkOrder {n : WorkOrderNo} {x : Option WorkOrder} (h : L.Holds f s)
    (hn : L = .roster → n ≠ 0) : L.Holds f (s.setWorkOrder n x) := by
  cases L with
  | roster =>
    obtain ⟨⟨load, hload⟩, hw⟩ := h
    refine ⟨⟨load, ?_⟩, hw⟩
    rw [State.setWorkOrder_workOrder, if_neg (hn rfl).symm]
    exact hload
  | _ => exact h

theorem TableLaw.Holds.changeParty {n : WorkOrderNo} {g : Nat → Nat} (h : L.Holds f s) :
    L.Holds f (s.changeParty n g) := by
  unfold State.changeParty
  split
  · exact h
  · rename_i r hr
    cases L with
    | roster =>
      obtain ⟨⟨load, hload⟩, hw⟩ := h
      by_cases hn : n = 0
      · subst hn
        rw [hload, Option.some.injEq] at hr
        exact ⟨⟨g load, by simp [← hr]⟩, hw⟩
      · exact TableLaw.Holds.setWorkOrder (L := .roster) (f := f) ⟨⟨load, hload⟩, hw⟩ fun _ => hn
    | _ => exact h

/-- A permit record may be written where its credential is the one it had, or no other permit's. -/
theorem TableLaw.Holds.setPermit {n : PermitNo} {x : Option Permit} (h : L.Holds f s)
    (hx : L = .credentials → ∀ q, x = some q → ∀ m p, s.permit m = some p → p.credential = q.credential → m = n) :
    L.Holds f (s.setPermit n x) := by
  cases L with
  | credentials =>
    intro i j p q hi hj he
    rw [State.setPermit_permit] at hi hj
    split_ifs at hi hj with hin hjn hjn
    · exact hin.trans hjn.symm
    · exact hin.trans (hx rfl p hi j q hj he.symm).symm
    · exact (hx rfl q hj i p hi he).trans hjn.symm
    · exact h i j p q hi hj he
  | _ => exact h

theorem TableLaw.Holds.setPermit_none {n : PermitNo} (h : L.Holds f s) : L.Holds f (s.setPermit n none) :=
  h.setPermit fun _ _ hx => nomatch hx

/-- A permit in use may be written with the credential it has. -/
theorem TableLaw.Holds.setPermit_same {n : PermitNo} {p q : Permit} (h : L.Holds f s) (hp : s.permit n = some p)
    (hq : q.credential = p.credential) : L.Holds f (s.setPermit n (some q)) := by
  refine h.setPermit fun hL x hx m o ho he => ?_
  subst hL
  rw [Option.some.injEq] at hx
  exact h m n o p ho hp (by rw [he, ← hx, hq])

/-- An occupancy record may be put out of use, or written with a permit on its lists for a room that no other has. -/
theorem TableLaw.Holds.setRecord {k : RecordNo} {x : Option OccupancyRecord} (h : L.Holds f s)
    (hx : L = .records → ∀ o, x = some o →
      (o.inside ≠ [] ∨ o.pending ≠ []) ∧ ∀ j p, s.record j = some p → p.room = o.room → j = k) :
    L.Holds f (s.setRecord k x) := by
  cases L with
  | records =>
    obtain ⟨hroom, hlist⟩ := h
    refine ⟨fun i j o p hi hj he => ?_, fun i o hi => ?_⟩
    · rw [State.setRecord_record] at hi hj
      split_ifs at hi hj with hin hjn hjn
      · exact hin.trans hjn.symm
      · exact hin.trans ((hx rfl o hi).2 j p hj he.symm).symm
      · exact ((hx rfl p hj).2 i o hi he).trans hjn.symm
      · exact hroom i j o p hi hj he
    · rw [State.setRecord_record] at hi
      split_ifs at hi
      · exact (hx rfl o hi).1
      · exact hlist i o hi
  | _ => exact h

/-- An occupancy record in use may be written with its room, and its lists not empty. -/
theorem TableLaw.Holds.setRecord_same {k : RecordNo} {o o' : OccupancyRecord} (h : L.Holds f s)
    (ho : s.record k = some o) (hroom : o'.room = o.room)
    (hl : (o.inside ≠ [] ∨ o.pending ≠ []) → o'.inside ≠ [] ∨ o'.pending ≠ []) :
    L.Holds f (s.setRecord k (some o')) := by
  refine h.setRecord fun hL x hx => ?_
  subst hL
  rw [Option.some.injEq] at hx
  subst hx
  exact ⟨hl (h.2 k o ho), fun j p hp he => h.1 j k p o hp ho (he.trans hroom)⟩

/-! ### Ports, doors, slots and lanes -/

theorem TableLaw.Holds.setPort {a : Authority} {x : Port} (h : L.Holds f s) : L.Holds f (s.setPort a x) :=
  h.of_plain ((changesOnly_refl _ s).setPort (by decide))

theorem TableLaw.Holds.setDoor {d : DoorId} {x : Door} (h : L.Holds f s) : L.Holds f (s.setDoor d x) :=
  h.of_plain ((changesOnly_refl _ s).setDoor (by decide))

theorem TableLaw.Holds.setSlot {k : SlotNo} {x : Option Slot} (h : L.Holds f s) : L.Holds f (s.setSlot k x) :=
  h.of_plain ((changesOnly_refl _ s).setSlot (by decide))

theorem TableLaw.Holds.setLane {l : LaneNo} {x : Lane} (h : L.Holds f s) : L.Holds f (s.setLane l x) :=
  h.of_plain ((changesOnly_refl _ s).setLane (by decide))

theorem TableLaw.Holds.notify {a : Authority} {n : Notice} (h : L.Holds f s) : L.Holds f (s.notify a n) := h.setPort

theorem TableLaw.Holds.notifyBoth {a : Authority} {n : Notice} (h : L.Holds f s) : L.Holds f (s.notifyBoth a n) :=
  h.of_plain ((changesOnly_refl _ s).notifyBoth (by decide))

theorem TableLaw.Holds.makeReply {p : Authority} {b : Bool} {r : Reply} (h : L.Holds f s) :
    L.Holds f (s.makeReply p b r) := h.setPort

theorem TableLaw.Holds.addVerdict {d : DoorId} {v : Verdict} (h : L.Holds f s) : L.Holds f (s.addVerdict d v) :=
  h.setDoor

theorem TableLaw.Holds.notifyDenied {d : DoorId} {c : Credential} {code : DenyCode} (h : L.Holds f s) :
    L.Holds f (s.notifyDenied d c code) := h.of_plain ((changesOnly_refl _ s).notifyDenied (by decide))

theorem TableLaw.Holds.denyPresentation {d : DoorId} {c : Credential} {code : DenyCode} (h : L.Holds f s) :
    L.Holds f (s.denyPresentation d c code) := h.addVerdict.notifyDenied

theorem TableLaw.Holds.endAdmission {d : DoorId} (h : L.Holds f s) : L.Holds f (s.endAdmission d) := h.setDoor

/-! ### Rooms -/

theorem TableLaw.Holds.evaluateOver {k : RecordNo} (h : L.Holds f s) : L.Holds f (s.evaluateOver k) := by
  unfold State.evaluateOver
  split
  · exact h
  · rename_i o ho
    dsimp only
    split
    · split
      · exact h
      · exact TableLaw.Holds.notify (h.setRecord_same ho rfl fun hl => hl)
    · exact h.setRecord_same ho (by rfl) fun hl => hl

theorem TableLaw.Holds.evaluateRoom {r : Designator} (h : L.Holds f s) : L.Holds f (s.evaluateRoom r) := by
  unfold State.evaluateRoom
  split
  · exact h
  · exact h.evaluateOver

theorem TableLaw.Holds.evaluateWhere {p : Designator → Bool} (h : L.Holds f s) : L.Holds f (s.evaluateWhere p) :=
  foldl_keeps h fun _ _ _ hu => hu.evaluateOver

theorem TableLaw.Holds.leaveRoom {r : Designator} {n : PermitNo} {k : Nat} (h : L.Holds f s) :
    L.Holds f (s.leaveRoom r n k) := by
  unfold State.leaveRoom
  split
  · exact h
  · rename_i k _
    split
    · exact h
    · rename_i o ho
      refine h.setRecord fun hL x hx => ?_
      subst hL
      split_ifs at hx with he
      rw [Option.some.injEq] at hx
      subst hx
      exact ⟨not_and_or.1 he, fun j p hp hpo => h.1 j k p o hp ho hpo⟩

theorem TableLaw.Holds.moveInside {r : Designator} {n : PermitNo} (h : L.Holds f s) :
    L.Holds f (s.moveInside r n) := by
  unfold State.moveInside
  split
  · exact h
  · split
    · exact h
    · exact h.setRecord_same ‹_› (by rfl) fun _ => .inl (by simp)

/-! ### Permits that leave, enter and are freed -/

theorem TableLaw.Holds.freePermit {n : PermitNo} {c : ReleaseCause} (h : L.Holds f s) :
    L.Holds f (s.freePermit n c) := by
  unfold State.freePermit
  split
  · exact h
  · exact h.setPermit_none.notify

/-- Work order 0 is never Closing, so it is never freed (R102, R116). -/
theorem TableLaw.Holds.freeWorkOrderIfDone {w : WorkOrderNo} (h : L.Holds f s) :
    L.Holds f (s.freeWorkOrderIfDone w) := by
  unfold State.freeWorkOrderIfDone
  split
  · exact h
  · rename_i r hr
    split
    · rename_i cause hc
      split
      · exact h
      · refine TableLaw.Holds.setWorkOrder (foldl_keeps h fun _ _ _ hu => hu.freePermit) fun hL hw => ?_
        subst hL hw
        obtain ⟨⟨load, hload⟩, -⟩ := h
        rw [hload, Option.some.injEq] at hr
        simp [← hr, WorkOrder.escortRoster] at hc
    · exact h

theorem TableLaw.Holds.leave {n : PermitNo} {p : Permit} {r : Designator} {c : ReleaseCause} (h : L.Holds f s)
    (hp : s.permit n = some p) : L.Holds f (s.leave n p r c) := by
  have h1 : L.Holds f ((s.leaveRoom r n p.role.weight).changeParty p.workOrder (· - p.role.weight)) :=
    h.leaveRoom.changeParty
  have hsame : ((s.leaveRoom r n p.role.weight).changeParty p.workOrder (· - p.role.weight)).permit n = some p := by
    have hc : s.changesOnly [.occupancy, .workOrders]
        ((s.leaveRoom r n p.role.weight).changeParty p.workOrder (· - p.role.weight)) :=
      ((changesOnly_refl _ s).leaveRoom (by decide)).changeParty (by decide)
    exact (congrArg (Vector.get · n) (hc .permits (by decide))).trans hp
  unfold State.leave
  dsimp only
  refine TableLaw.Holds.freeWorkOrderIfDone ?_
  split
  · exact h1.freePermit
  · exact h1.setPermit_same hsame (by rfl)

theorem TableLaw.Holds.releasePermit {b : Bool} {n : PermitNo} (h : L.Holds f s) :
    L.Holds f (State.releasePermit b s n) := by
  unfold State.releasePermit
  split
  · split
    · split
      · exact (h.leave ‹_›).evaluateRoom
      · exact h.leave ‹_›
    · exact h
  · exact h

theorem TableLaw.Holds.releaseAll {b : Bool} {ns : List PermitNo} (h : L.Holds f s) : L.Holds f (s.releaseAll b ns) :=
  foldl_keeps h fun _ _ _ hu => hu.releasePermit

theorem TableLaw.Holds.exitPermit {n : PermitNo} (h : L.Holds f s) : L.Holds f (s.exitPermit n) := by
  unfold State.exitPermit
  split
  · split
    · exact (h.leave ‹_›).evaluateRoom
    · exact h
  · exact h

theorem TableLaw.Holds.enterPermit {d : DoorId} {x : HeldPermit} (h : L.Holds f s) : L.Holds f (s.enterPermit d x) := by
  unfold State.enterPermit
  split
  · exact h
  · rename_i p hp
    split
    · rename_i room _ _ _
      dsimp only
      have hsame : (s.moveInside room x.permit).permit x.permit = some p := by
        have hc := (changesOnly_refl [.occupancy] s).moveInside (r := room) (n := x.permit) (by decide)
        exact (congrArg (Vector.get · x.permit) (hc .permits (by decide))).trans hp
      refine TableLaw.Holds.notifyBoth ?_
      split
      · exact (h.moveInside.setPermit_same hsame (by rfl)).notifyBoth
      · exact h.moveInside.setPermit_same hsame (by rfl)
    · exact h

theorem TableLaw.Holds.makePending {r : Designator} {d : DoorId} {b : Bool} {n : PermitNo} (h : L.Holds f s) :
    L.Holds f (s.makePending r d b n) := by
  unfold State.makePending
  split
  · exact h
  · exact (h.setPermit_same ‹_› (by rfl)).changeParty

/-- A reservation takes the room's own record, or with none one out of use, and leaves permits on its list (R92, R94). -/
theorem TableLaw.Holds.reserve {r : Designator} {g c : Nat} {d : DoorId} {b : Bool} {ns : List PermitNo}
    (h : L.Holds f s) (hns : ns ≠ []) : L.Holds f (s.reserve r g c d b ns) := by
  unfold State.reserve
  split
  · exact h
  · rename_i k hk
    dsimp only
    refine foldl_keeps (TableLaw.Holds.evaluateOver (h.setRecord fun hL x hx => ?_)) fun _ _ _ hu => hu.makePending
    subst hL
    rw [Option.some.injEq] at hx
    subst hx
    refine ⟨.inr (by simp [hns]), fun j p hp hpo => ?_⟩
    unfold State.recordFor at hk
    split at hk
    · rename_i k' hk'
      obtain rfl : k' = k := by simpa using hk
      obtain ⟨⟨o, ho, hr⟩, -⟩ := State.recordOf_eq_some.1 hk'
      rw [ho] at hpo
      exact h.1 j k' p o hp ho hpo
    · rename_i hnone
      have hfree : s.record k = none := Option.isNone_iff_eq_none.1 (lowest_eq_some.1 hk).1
      rw [hfree] at hpo
      have hno := lowest_eq_none.1 hnone j
      rw [show s.occupancy.get j = some p from hp] at hno
      exact absurd hpo (of_decide_eq_false hno)

theorem TableLaw.Holds.openEnter {d : DoorId} {r : Designator} {g c : Nat} {b : Bool} {l : List HeldPermit}
    (h : L.Holds f s) (hl : l ≠ []) : L.Holds f (s.openEnter d r g c b l) :=
  TableLaw.Holds.addVerdict (TableLaw.Holds.setDoor (h.reserve (by simpa using hl)))

/-! ### Spaces -/

/-- A switch makes the staged descriptor current, so it brings in no descriptor. -/
theorem SpaceRecord.describes_of_switched {r : SpaceRecord} {w : StagedSwitch} {g : BitVec 8} {k : Nat} {d : Descriptor}
    (hw : r.waiting = some w) (h : (SpaceRecord.mk (some w.descriptor) none g k).describes d) : r.describes d := by
  rcases h with h | ⟨_, h, -⟩
  · exact .inr ⟨w, hw, by simpa using h⟩
  · exact nomatch h

/-- The one switch under way may be left out of account. -/
theorem TableLaw.Holds.weaken (h : L.Holds none s) : L.Holds f s := by
  cases L with
  | go => exact fun n _ => h n (by simp)
  | _ => exact h

/-- A space whose Go flag is clear needs no exception. -/
theorem TableLaw.Holds.of_go_clear {n : SpaceNo} (h : L.Holds (some n) s) (hn : (s.space n).go = false) :
    L.Holds none s := by
  cases L with
  | go =>
    intro m _ hm
    by_cases he : n = m
    · subst he
      rw [hn] at hm
      exact nomatch hm
    · exact h m (by simpa using he) hm
  | _ => exact h

@[simp] theorem State.setSpace_setSpace (n : SpaceNo) (x y : SpaceRecord) :
    (s.setSpace n x).setSpace n y = s.setSpace n y := by
  simp [State.setSpace]

/-- A record with the descriptors it had, but for those that are gone, is one the space may hold while its owner stays. -/
theorem SpaceRecord.soundAt.of_describes {n : SpaceNo} {r r' : SpaceRecord} (h : r.soundAt n)
    (hd : ∀ d, r'.describes d → r.describes d) (hu : n.val ≤ 1 → r'.inUse = r.inUse)
    (hw : ∀ w, r'.waiting = some w → r.waiting = some w ∧ r'.owner = r.owner) : r'.soundAt n := by
  obtain ⟨h1, h2, h3⟩ := h
  refine ⟨fun hn => (hu hn).trans (h1 hn), fun d hd' => h2 d (hd d hd'), fun w hw' => ?_⟩
  obtain ⟨hr, ho⟩ := hw w hw'
  exact ho.trans (h3 w hr)

/-- Writing the record that a switch leaves, with whatever generation and drain count. -/
theorem TableLaw.Holds.setSpace_switched {n : SpaceNo} {w : StagedSwitch} {g : BitVec 8} {k : Nat} (h : L.Holds f s)
    (hw : (s.space n).waiting = some w) : L.Holds f (s.setSpace n ⟨some w.descriptor, none, g, k⟩) := by
  refine h.setSpace (fun _ d hd => .inl (SpaceRecord.describes_of_switched hw hd)) (fun _ _ hg => nomatch hg) fun hL => ?_
  subst hL
  obtain ⟨-, h2, -⟩ := State.spacesSound_iff.1 h n
  exact ⟨fun _ => rfl, fun d hd => h2 d (SpaceRecord.describes_of_switched hw hd), fun _ hw' => nomatch hw'⟩

/-- Writing a record with another drain count. -/
theorem TableLaw.Holds.setSpace_drain {n : SpaceNo} {k : Nat} (h : L.Holds f s)
    (hk : f ≠ some n → (s.space n).go = true → 1 ≤ (s.space n).drain → 1 ≤ k) :
    L.Holds f (s.setSpace n { s.space n with drain := k }) := by
  refine h.setSpace (fun _ d hd => .inl hd) (fun hL hf hg => ?_) fun hL => ?_
  · subst hL
    obtain ⟨hu, hd⟩ := h n hf hg
    exact ⟨hu, hk hf hg hd⟩
  · subst hL
    exact (State.spacesSound_iff.1 h n).of_describes (fun _ hd => hd) (fun _ => rfl) fun _ hw => ⟨hw, rfl⟩

theorem TableLaw.Holds.applySwitch {n : SpaceNo} {c : SwitchCause} {k : Nat} (h : L.Holds f s) :
    L.Holds f (s.applySwitch n c k) := by
  unfold State.applySwitch
  dsimp only
  split
  · exact h
  · exact (h.setSpace_switched ‹_›).notify

/-- With the switch applied the Go flag is clear (R29). -/
theorem State.applySwitch_go {n : SpaceNo} {c : SwitchCause} {k : Nat} :
    ((s.applySwitch n c k).space n).go = false := by
  unfold State.applySwitch
  dsimp only
  split
  · rename_i hw
    simp [SpaceRecord.go, hw]
  · simp [State.notify, SpaceRecord.go]

theorem TableLaw.Holds.raiseDrain {n : SpaceNo} (h : L.Holds f s) : L.Holds f (s.raiseDrain n) :=
  h.setSpace_drain fun _ _ _ => Nat.le_add_left ..

/-- A drain count that reaches 0 under Go applies the switch, but in the space of the forced switch (R31, R32). -/
theorem TableLaw.Holds.lowerDrain {forcing : Option SpaceNo} {n : SpaceNo} (h : L.Holds f s)
    (hf : forcing = none ∨ forcing = f) : L.Holds f (s.lowerDrain forcing n) := by
  unfold State.lowerDrain
  dsimp only
  split
  · unfold State.applySwitch
    rw [State.setSpace_space_self]
    dsimp only
    split
    · rename_i hz _ hw
      simp [SpaceRecord.go, show (s.space n).waiting = none from hw] at hz
    · rw [State.setSpace_setSpace]
      exact (h.setSpace_switched ‹_›).notify
  · rename_i hz
    refine h.setSpace_drain fun hn hg _ => ?_
    have hfn : forcing ≠ some n := by rcases hf with rfl | rfl <;> simp_all
    have : (s.space n).drain - 1 ≠ 0 := fun h0 => hz ⟨h0, hg, hfn⟩
    omega

theorem TableLaw.Holds.endPairing {k : SlotNo} {d : DoorId} {forcing : Option SpaceNo} (h : L.Holds f s)
    (hf : forcing = none ∨ forcing = f) : L.Holds f (s.endPairing k d forcing) := by
  have h1 : L.Holds f ((s.setSlot k none).endAdmission d) := h.setSlot.endAdmission
  unfold State.endPairing
  dsimp only
  split
  · exact h1
  · exact foldl_keeps h1 fun _ _ _ hu => hu.lowerDrain hf

theorem TableLaw.Holds.denyPairing {k : SlotNo} {c : DenyCode} {forcing : Option SpaceNo} {v : Bool} (h : L.Holds f s)
    (hf : forcing = none ∨ forcing = f) : L.Holds f (s.denyPairing k c forcing v) := by
  unfold State.denyPairing
  split
  · exact h
  · dsimp only
    refine foldl_keeps ?_ fun _ _ _ hu => TableLaw.Holds.notifyDenied hu
    split
    · exact (h.endPairing hf).addVerdict
    · exact h.endPairing hf

theorem TableLaw.Holds.cancelPairing {v : Bool} {d : DoorId} (h : L.Holds f s) :
    L.Holds f (s.cancelPairing v d) := by
  unfold State.cancelPairing
  split
  · exact h.denyPairing (.inl rfl)
  · exact h

theorem TableLaw.Holds.abandonHolding {n : PermitNo} (h : L.Holds f s) : L.Holds f (s.abandonHolding n) := by
  unfold State.abandonHolding
  split
  · exact h
  · exact h.denyPairing (.inl rfl)

theorem TableLaw.Holds.breakPairing {k : SlotNo} (h : L.Holds f s) : L.Holds f (s.breakPairing k) :=
  h.denyPairing (.inl rfl)

/-- The forced switch of a space (R32): while its admissions are abandoned the space may stand with Go and drain count
0, and then the switch is applied. -/
theorem TableLaw.Holds.forceSwitch {n : SpaceNo} (h : L.Holds none s) : L.Holds none (s.forceSwitch n) := by
  have hks : ∀ ks : List SlotNo,
      L.Holds (some n) (ks.foldl (fun s k => s.denyPairing k .spaceSwitched (some n) true) s) :=
    fun ks => foldl_keeps h.weaken fun _ _ _ hu => hu.denyPairing (.inr rfl)
  exact (hks _).applySwitch.of_go_clear State.applySwitch_go

/-! ### Work orders that close -/

theorem TableLaw.Holds.closePermit {c : ClosingCause} {n : PermitNo} (h : L.Holds f s) :
    L.Holds f (State.closePermit c s n) := by
  unfold State.closePermit
  split
  · exact h
  · split
    · exact h.setPermit_same ‹_› (by rfl)
    · exact h.abandonHolding.freePermit

theorem TableLaw.Holds.closeWorkOrder {w : WorkOrderNo} {c : ClosingCause} (h : L.Holds f s) (hw : w ≠ 0) :
    L.Holds f (s.closeWorkOrder w c) := by
  have h1 : L.Holds f ((s.permitsOf w).foldl (State.closePermit c) s) := foldl_keeps h fun _ _ _ hu => hu.closePermit
  unfold State.closeWorkOrder
  dsimp only
  split
  · exact h1
  · exact (h1.setWorkOrder fun _ => hw).freeWorkOrderIfDone

theorem mem_generalWorkOrders {n : WorkOrderNo} : n ∈ generalWorkOrders ↔ n ≠ 0 := by
  simp [generalWorkOrders]

/-- A day change expires general work orders alone (R115). -/
theorem TableLaw.Holds.dayChange {day : Nat} (h : L.Holds f s) : L.Holds f (s.dayChange day) := by
  refine foldl_keeps h fun u n hn hu => ?_
  unfold expireOf
  split
  · split
    · exact hu
    · split
      · exact hu.closeWorkOrder (mem_generalWorkOrders.1 hn)
      · exact hu
    · exact hu
  · exact hu

end Sys2Proof.Machine

/-! SUPPORT. The laws of the tables through the events of the doors and lanes, the decisions and the commands. -/

namespace Sys2Proof.Machine

open State (changesOnly_refl)

variable {L : TableLaw} {f : Option SpaceNo} {s t : State}

/-! ### Reports of the doors -/

/-- What a presentation comes to, where it is settled with no request. -/
def EnterStage.Settles (P : State → Prop) : EnterStage → Prop
  | .settled t => P t
  | .contractor _ | .escort _ => True

theorem TableLaw.Holds.enterIdle {d : DoorId} {c : Credential} (h : L.Holds f s) :
    (s.enterIdle d c).Settles (L.Holds f) := by
  have hdeny : ∀ code, (s.settleDeny d c code).Settles (L.Holds f) := fun _ => h.denyPresentation
  unfold State.enterIdle State.enterWithPermit
  repeat' split
  all_goals first
    | exact hdeny _
    | exact trivial

theorem TableLaw.Holds.escortStep {d : DoorId} {k : SlotNo} {x : Slot} {r : Designator} {v : DecisionValues}
    {c : Credential} {n : PermitNo} {p : Permit} (h : L.Holds f s) :
    (s.escortStep d k x r v c n p).Settles (L.Holds f) := by
  have hdeny : ∀ code, (s.settleDeny d c code).Settles (L.Holds f) := fun _ => h.denyPresentation
  unfold State.escortStep
  repeat' split
  all_goals first
    | exact hdeny _
    | exact trivial

theorem TableLaw.Holds.enterPairingDoor {d : DoorId} {v : DecisionValues} {c : Credential} (h : L.Holds f s) :
    (s.enterPairingDoor d v c).Settles (L.Holds f) := by
  have hdeny : ∀ code, (s.settleDeny d c code).Settles (L.Holds f) := fun _ => h.denyPresentation
  have hbreak : ∀ k, ((s.breakPairing k).settleDeny d c .pairingBroken).Settles (L.Holds f) :=
    fun _ => h.breakPairing.denyPresentation
  have hstep : ∀ k x, L.Holds f (s.contractorStep d k x c) := by
    intro k x
    unfold State.contractorStep
    split
    · exact h.denyPresentation
    · exact h.setSlot
  unfold State.enterPairingDoor
  split
  · split
    · exact h
    · split
      · split
        · exact h.escortStep
        · exact hbreak _
      · split
        · exact hstep _ _
        · exact hbreak _
      · split
        · split
          · split
            · exact h.escortStep
            · exact hbreak _
          · exact hbreak _
        · exact hbreak _
      · exact hdeny _
  · exact hdeny _

theorem TableLaw.Holds.enterStage {d : DoorId} {c : Credential} (h : L.Holds f s) :
    (s.enterStage d c).Settles (L.Holds f) := by
  unfold State.enterStage
  split
  · exact h.enterIdle
  · exact h.enterPairingDoor
  all_goals exact h.denyPresentation

theorem TableLaw.Holds.openExit {d : DoorId} {c : Credential} {x : Option PermitNo} {m : OpenMark} (h : L.Holds f s) :
    L.Holds f (s.openExit d c x m) := h.setDoor.addVerdict

theorem TableLaw.Holds.exitIdle {d : DoorId} {b : Binding} {c : Credential} (h : L.Holds f s) :
    L.Holds f (s.exitIdle d b c) := by
  unfold State.exitIdle
  split
  · exact TableLaw.Holds.openExit (foldl_keeps h fun _ _ _ hu => hu.endAdmission)
  · exact h.openExit.notify

theorem TableLaw.Holds.exitBusy {d : DoorId} {b : Binding} {c : Credential} (h : L.Holds f s) :
    L.Holds f (s.exitBusy d b c) := h.addVerdict.notify

theorem TableLaw.Holds.takeExit {d : DoorId} {c : Credential} (h : L.Holds f s) : L.Holds f (s.takeExit d c) := by
  unfold State.takeExit
  split
  · exact h.denyPresentation
  · split
    · exact h.exitIdle
    · split
      · exact h.breakPairing.exitIdle
      · exact h.exitBusy
    · split
      · exact h.addVerdict
      · exact h.exitBusy
    all_goals exact h.exitBusy

theorem TableLaw.Holds.judgeCheckIn {d : DoorId} {c : Credential} (h : L.Holds f s) :
    L.Holds f (s.judgeCheckIn d c) := by
  unfold State.judgeCheckIn
  split
  · exact h.denyPresentation
  · split
    · exact h.denyPresentation
    · split
      · exact h.denyPresentation
      · rename_i p hp
        split
        · split
          · exact TableLaw.Holds.notifyBoth (TableLaw.Holds.setPermit_same h.addVerdict hp rfl)
          · exact h.denyPresentation
        all_goals exact h.denyPresentation

theorem TableLaw.Holds.takeCheckIn {d : DoorId} {c : Credential} (h : L.Holds f s) :
    L.Holds f (s.takeCheckIn d c) := by
  unfold State.takeCheckIn
  split
  · split
    · exact h.breakPairing.denyPresentation
    · exact h.denyPresentation
  all_goals exact h.judgeCheckIn

theorem TableLaw.Holds.passExit {d : DoorId} {n : PermitNo} (h : L.Holds f s) : L.Holds f (s.passExit d n) := by
  unfold State.passExit
  split
  · split
    · exact h.notifyBoth.exitPermit
    · exact h
  · exact h

theorem TableLaw.Holds.takePassage {d : DoorId} (h : L.Holds f s) : L.Holds f (s.takePassage d) := by
  unfold State.takePassage
  split
  · exact TableLaw.Holds.endAdmission (foldl_keeps h fun _ _ _ hu => hu.enterPermit)
  · exact h.passExit.endAdmission
  · exact h.endAdmission
  · exact h.notify

theorem TableLaw.Holds.closePassages {b : Bool} {ds : List DoorId} (h : L.Holds f s) :
    L.Holds f (s.closePassages b ds) := by
  refine foldl_keeps h.releaseAll fun u _ _ hu => ?_
  unfold State.endPassage
  split
  · exact hu.endAdmission
  · exact hu

theorem TableLaw.Holds.lockDoors (h : L.Holds f s) : L.Holds f s.lockDoors := by
  refine foldl_keeps (foldl_keeps (foldl_keeps h fun _ _ _ hu => hu.setDoor) fun u e _ hu => ?_) fun u _ _ hu => ?_
  · unfold State.endForLockdown
    split
    · split
      · exact hu.denyPairing (.inl rfl)
      · exact hu
    · exact hu.releasePermit
  · unfold State.endEntry
    split
    · exact hu.endAdmission
    · exact hu

/-! ### Turns of the lanes -/

theorem TableLaw.Holds.failDoor {d : DoorId} (h : L.Holds f s) : L.Holds f (s.failDoor d) := by
  unfold State.failDoor
  dsimp only
  split
  · exact TableLaw.Holds.closePassages (TableLaw.Holds.setDoor h.setDoor.notify.cancelPairing)
  · exact h.setDoor.notify.cancelPairing

theorem TableLaw.Holds.missPoll {l : LaneNo} (h : L.Holds f s) : L.Holds f (s.missPoll l) := by
  have h1 : L.Holds f (s.endTurn l) := h.setLane
  unfold State.missPoll
  dsimp only
  split
  · exact h1
  · exact h1
  · split
    · exact h1.setDoor
    · exact h1.failDoor

theorem TableLaw.Holds.announce {d : DoorId} (h : L.Holds f s) : L.Holds f (s.announce d) := by
  unfold State.announce
  dsimp only
  split
  · exact h.setDoor
  · exact h.setDoor.notify
  · exact h.setDoor.notify

theorem TableLaw.Holds.answerPoll {d : DoorId} {report : State → State} (h : L.Holds f s)
    (hr : ∀ u, L.Holds f u → L.Holds f (report u)) : L.Holds f (s.answerPoll d report) := by
  unfold State.answerPoll
  split
  · split
    · exact hr _ (TableLaw.Holds.announce h.setLane)
    · exact h.missPoll
  · exact h

theorem TableLaw.Holds.answerPresent {d : DoorId} {c : Credential} {report : State → State} (h : L.Holds f s)
    (hr : ∀ u, L.Holds f u → L.Holds f (report u)) : L.Holds f (s.answerPresent d c report) := by
  unfold State.answerPresent
  split
  · split
    · exact h.missPoll
    · exact h
  · exact h.answerPoll hr

theorem TableLaw.Holds.sendNext {l : LaneNo} (h : L.Holds f s) : L.Holds f (s.sendNext l) :=
  h.of_plain ((changesOnly_refl _ s).sendNext (by decide))

theorem TableLaw.Holds.changePosture {p : Posture} (h : L.Holds f s) : L.Holds f (s.changePosture p) := by
  have h1 : L.Holds f { s with posture := p } := h.of_plain ((changesOnly_refl _ s).posture_update (by decide))
  unfold State.changePosture
  dsimp only
  refine TableLaw.Holds.evaluateWhere ?_
  split
  · exact foldl_keeps h1.lockDoors fun u _ _ hu =>
      hu.of_plain ((changesOnly_refl _ u).withdrawFrame (by decide))
  · exact h1

theorem TableLaw.Holds.resetLaneTo {l : LaneNo} (h : L.Holds f s) : L.Holds f (s.resetLaneTo l) := by
  refine TableLaw.Holds.setLane (foldl_keeps (foldl_keeps (TableLaw.Holds.closePassages ?_) ?_) ?_)
  · exact foldl_keeps h fun _ _ _ hu => hu.setDoor
  · exact fun _ _ _ hu => hu.cancelPairing
  · exact fun _ _ _ hu => hu.setDoor

/-! ### Decisions once their requests are answered -/

theorem TableLaw.Holds.enterPairing {k : Nat} {d : DoorId} {c : Credential} {n : PermitNo} {v : DecisionValues}
    (h : L.Holds f s) : L.Holds f (s.enterPairing k d c n v) := by
  unfold State.enterPairing
  split
  · exact h.denyPresentation
  · exact foldl_keeps (TableLaw.Holds.setDoor h.setSlot) fun _ _ _ hu => hu.raiseDrain

theorem TableLaw.Holds.endContractor {e : ContractorEntry} {rights : Resolution (GrantSummary × OverlaySummary)}
    (h : L.Holds f s) : L.Holds f (s.endContractor e rights) := by
  unfold State.endContractor
  split
  · exact h
  · exact h.denyPresentation
  · unfold State.enterWithRights
    dsimp only
    split
    · split
      · exact h.denyPresentation
      · exact h.openEnter (by simp)
    · exact h.enterPairing

theorem TableLaw.Holds.endEscort {e : EscortEntry} {rights : Resolution (GrantSummary × OverlaySummary)}
    (h : L.Holds f s) : L.Holds f (s.endEscort e rights) := by
  unfold State.endEscort
  split
  · exact h
  · exact h.denyPresentation
  · dsimp only
    split
    · unfold State.completePairing
      split
      · exact h.setSlot.denyPairing (.inl rfl)
      · exact (h.endPairing (.inl rfl)).openEnter (by simp)
    · exact h.setSlot

theorem TableLaw.Holds.applyResult {now : Reading} {n : WorkOrderNo} {w : WorkOrder} {r : SelectionResult}
    (h : L.Holds f s) (hn : L = .roster → n ≠ 0) : L.Holds f (s.applyResult now n w r) := by
  unfold State.applyResult
  split
  · unfold State.applySelection
    dsimp only
    refine TableLaw.Holds.notify ?_
    split
    · exact (h.setWorkOrder hn).notify
    · exact h.setWorkOrder hn
  · split
    · exact (h.setWorkOrder hn).notify
    · exact h
  · exact h

/-! ### Decisions that wait -/

theorem TableLaw.Holds.wait {e : Errand} {asks : WaitingFor} (h : L.Holds f s) (he : L.allows e) :
    L.Holds f (s.wait e asks) := by
  cases L with
  | roster =>
    refine ⟨h.1, fun w hw => ?_⟩
    rcases List.mem_append.1 hw with hw | hw
    · exact h.2 w hw
    · rw [List.mem_singleton] at hw
      subst hw
      exact he rfl
  | _ => exact h

theorem TableLaw.Holds.cut {v : List Waiting} (h : L.Holds f s) (hv : ∀ w ∈ v, w ∈ s.waiting) :
    L.Holds f { s with waiting := v } := by
  cases L with
  | roster => exact ⟨h.1, fun w hw => h.2 w (hv w hw)⟩
  | _ => exact h

theorem TableLaw.Holds.allows_of_mem {w : Waiting} (h : L.Holds f s) (hw : w ∈ s.waiting) : L.allows w.errand := by
  intro hL
  subst hL
  exact h.2 w hw

theorem TableLaw.Holds.selectFrom {run : SelectionRun} {now : Reading} {n : WorkOrderNo} {w : WorkOrder} {index : Nat}
    {left : List WorkOption} {tested : List (Resolution Candidate)} (h : L.Holds f s)
    (hn : L = .roster → n ≠ 0 ∧ 0 ∉ run.later) : L.Holds f (s.selectFrom run now n w index left tested).1 := by
  unfold State.selectFrom
  split
  · exact h.wait hn
  · have h1 := fun r => h.applyResult (now := now) (w := w) (r := r) fun hL => (hn hL).1
    unfold State.endSelection
    dsimp only
    split
    · exact (h1 _).makeReply
    all_goals exact h1 _

theorem TableLaw.Holds.turnOf {b : Bool} {n : WorkOrderNo} {w : WorkOrder} (h : L.Holds f s)
    (hn : L = .roster → n ≠ 0) (ht : s.turnOf b n = some (t, w)) : L.Holds f t := by
  unfold State.turnOf at ht
  split at ht
  · dsimp only at ht
    split_ifs at ht
    · simp only [Option.some.injEq, Prod.mk.injEq] at ht
      exact ht.1 ▸ h.setWorkOrder hn
    · simp only [Option.some.injEq, Prod.mk.injEq] at ht
      exact ht.1 ▸ h
  · exact nomatch ht

theorem TableLaw.Holds.takeTurns {b : Bool} {run : List WorkOrderNo → SelectionRun} {now : Reading}
    {l : List WorkOrderNo} (hrun : ∀ rest, (run rest).later = rest) (h : L.Holds f s) (hl : L = .roster → 0 ∉ l) :
    L.Holds f (s.takeTurns b run now l) := by
  induction l generalizing s with
  | nil => exact h
  | cons n rest ih =>
    have hn : L = .roster → n ≠ 0 ∧ 0 ∉ rest := fun hL => by
      have := hl hL
      simp only [List.mem_cons, not_or] at this
      exact ⟨Ne.symm this.1, this.2⟩
    have hrest := fun hL => (hn hL).2
    unfold State.takeTurns
    split
    · exact ih h hrest
    · rename_i s1 w ht
      have h1 : L.Holds f s1 := h.turnOf (fun hL => (hn hL).1) ht
      have h2 : L.Holds f (s1.beginSelection (run rest) now n w).1 := h1.selectFrom (by rwa [hrun])
      split <;> rename_i hq <;> rw [hq] at h2
      · exact ih h2 hrest
      · exact h2

theorem TableLaw.Holds.goOn {run : SelectionRun} {now : Reading} (h : L.Holds f s) (hl : L = .roster → 0 ∉ run.later) :
    L.Holds f (s.goOn now run) := by
  cases run with
  | activate p b => exact h
  | deadline => exact h
  | minute rest => exact h.takeTurns (fun _ => rfl) hl
  | clockSet b a rest =>
    have h1 : L.Holds f (s.takeTurns true (.clockSet b a) now rest) := h.takeTurns (fun _ => rfl) hl
    unfold State.goOn
    dsimp only
    split
    · exact h1.makeReply
    · exact h1

theorem TableLaw.Holds.resume {e : Errand} {rights : Resolution (GrantSummary × OverlaySummary)} (h : L.Holds f s)
    (he : L.allows e) : L.Holds f (s.resume rights e) := by
  cases e with
  | contractor e => exact h.endContractor
  | escort e => exact h.endEscort
  | selection e =>
    have h1 := h.selectFrom (run := e.run) (now := e.now) (w := e.workOrder) (index := e.index + 1) (left := e.left)
      (tested := e.tested ++ [s.optionResult e.index e.option e.home e.time rights]) he
    unfold State.resume
    dsimp only
    split <;> rename_i hq <;> rw [hq] at h1
    · exact h1.goOn fun hL => (he hL).2
    · exact h1

theorem TableLaw.Holds.discard {w : Waiting} (h : L.Holds f s) : L.Holds f (s.discard w) :=
  h.of_plain ((s.discard_changes w).mono (by decide))

/-! ### Decisions that begin -/

/-- A work order with a selection deadline is not work order 0 (R102). -/
theorem TableLaw.Holds.ne_zero_of_reached {n : WorkOrderNo} {w : WorkOrder} (h : L.Holds f s)
    (hw : s.workOrder n = some w) (hr : s.reached w.deadline = true) (hL : L = .roster) : n ≠ 0 := by
  rintro rfl
  subst hL
  obtain ⟨⟨load, hload⟩, -⟩ := h
  rw [hload, Option.some.injEq] at hw
  simp [← hw, WorkOrder.escortRoster, State.reached] at hr

/-- The entry of a minute reaches general work orders alone (R112). -/
theorem zero_notMem_turnsDue {b : Bool} : (0 : WorkOrderNo) ∉ s.turnsDue b := fun h =>
  mem_generalWorkOrders.1 (List.mem_of_mem_filter h) rfl

/-- An ACTIVATE that is not refused is for a general work order (R110). -/
theorem ne_zero_of_activateOf {p : Authority} {a : NumberArgs} {n : WorkOrderNo} {w : WorkOrder}
    (h : activateOf p a s = .ok (n, w)) : n ≠ 0 := by
  rintro rfl
  unfold activateOf at h
  split at h
  · exact nomatch h
  · rename_i m hm
    split at h
    · exact nomatch h
    · split_ifs at h with hz hc
      simp only [Except.ok.injEq, Prod.mk.injEq] at h
      exact hz (.inl (by simp [h.1]))

theorem TableLaw.Holds.beginEnter {d : DoorId} {c : Credential} (h : L.Holds f s) : L.Holds f (s.beginEnter d c) := by
  have h1 : (s.enterStage d c).Settles (L.Holds f) := h.enterStage
  unfold State.beginEnter
  split <;> rename_i hq
  · rwa [hq] at h1
  · exact h.wait fun _ => trivial
  · exact h.wait fun _ => trivial

theorem TableLaw.Holds.advanceClock (h : L.Holds f s) : L.Holds f s.advanceClock.1 := by
  have h1 : ∀ c, L.Holds f { s with count := s.count + 1, clock := c } := fun _ =>
    h.of_plain (((changesOnly_refl plainFields s).count_update (v := s.count + 1) (by decide)).clock_update (by decide))
  unfold State.advanceClock
  dsimp only
  split
  · exact h1 _
  · exact h1 _
  · exact h1 _
  · simpa only using (h1 _).dayChange

theorem TableLaw.Holds.beginTick (h : L.Holds f s) : L.Holds f s.beginTick := by
  have h1 := h.advanceClock
  unfold State.beginTick
  split <;> rename_i hq <;> rw [hq] at h1
  · exact h1.takeTurns (fun _ => rfl) fun _ => zero_notMem_turnsDue
  · exact h1

theorem TableLaw.Holds.beginDeadline {n : WorkOrderNo} (h : L.Holds f s) : L.Holds f (s.beginDeadline n) := by
  unfold State.beginDeadline
  split
  · exact h
  · rename_i w hw
    split
    · rename_i hr
      exact h.selectFrom fun hL => ⟨h.ne_zero_of_reached hw hr.2 hL, by simp [SelectionRun.later]⟩
    · exact h

theorem TableLaw.Holds.carryOut {p : Authority} {code : Byte} {body : State → State × Answer} (h : L.Holds f s)
    (hb : ∀ u, L.Holds f u → L.Holds f (body u).1) : L.Holds f (Machine.carryOut p code body s) :=
  (hb _ h.setPort).makeReply

theorem TableLaw.Holds.beginActivate {p : Authority} {a : NumberArgs} (h : L.Holds f s) :
    L.Holds f (s.beginActivate p a) := by
  unfold State.beginActivate
  split
  · exact h.carryOut fun _ hu => hu
  · rename_i n w ha
    exact TableLaw.Holds.selectFrom h.setPort fun _ => ⟨ne_zero_of_activateOf ha, by simp [SelectionRun.later]⟩

theorem TableLaw.Holds.setClockTo {c : ClockTime} (h : L.Holds f s) : L.Holds f (s.setClockTo c) := by
  have h1 : L.Holds f { s with clock := some c } := h.of_plain ((changesOnly_refl _ s).clock_update (by decide))
  unfold State.setClockTo
  dsimp only
  split
  · exact h1
  · exact h1.dayChange

theorem TableLaw.Holds.beginSetClock {p : Authority} {a : SetClockArgs} (h : L.Holds f s) :
    L.Holds f (s.beginSetClock p a) := by
  unfold State.beginSetClock
  split
  · exact h.carryOut fun _ hu => hu
  · exact TableLaw.Holds.goOn (TableLaw.Holds.setClockTo h.setPort) fun _ => zero_notMem_turnsDue

end Sys2Proof.Machine

/-! SUPPORT. The rights memory: who owns a block, which blocks the spaces name, and what the block commands do (R15 to
R19). -/

namespace Sys2Proof.Machine

variable {s : State} {p : Authority} {b : BlockNo}

/-! ### Blocks and their owners -/

@[simp] theorem State.blockAt_val (s : State) (b : BlockNo) : s.blockAt b.val = s.block b := by
  simp [State.blockAt]

/-- A block is owned by an authority whatever its kind. -/
theorem State.ownedBy_iff : s.ownedBy p b.val = true ↔ ∃ k, (s.block b).owner = some (p, k) := by
  unfold State.ownedBy
  rw [State.blockAt_val]
  split
  · rename_i o k ho
    simp [ho]
  · rename_i ho
    simp [ho]

/-- No authority owns a block past the last. -/
theorem State.lt_of_ownedBy {n : Nat} (h : s.ownedBy p n = true) : n < 512 := by
  by_contra hn
  simp [State.ownedBy, State.blockAt, hn, Block.free] at h

/-- A space names a block by a descriptor that stands in its record. -/
theorem State.namedBySpace_iff {n : Nat} :
    s.namedBySpace n = true ↔ ∃ m d, (s.space m).describes d ∧ d.names n = true := by
  have hrec : ∀ r : SpaceRecord, ((match r.current with | some d => d.names n | none => false) ||
      (match r.waiting with | some w => w.descriptor.names n | none => false)) = true ↔
      ∃ d, r.describes d ∧ d.names n = true := by
    intro r
    cases hc : r.current <;> cases hw : r.waiting <;> simp [SpaceRecord.describes, hc, hw, or_and_right, exists_or]
  simp only [State.namedBySpace, List.any_eq_true]
  constructor
  · rintro ⟨r, hr, h⟩
    obtain ⟨d, hd, hn⟩ := (hrec r).1 h
    obtain ⟨i, hi, rfl⟩ := List.getElem_of_mem hr
    exact ⟨⟨i, by simpa using hi⟩, d, hd, hn⟩
  · rintro ⟨m, d, hd, hn⟩
    exact ⟨s.space m, by simp [State.space, Vector.get_eq_getElem], (hrec _).2 ⟨d, hd, hn⟩⟩

theorem State.freeRange_block (s : State) (first count : Nat) (b : BlockNo) :
    (s.freeRange first count).block b =
      if first ≤ b.val ∧ b.val < first + count then Block.free else s.block b :=
  Vector.get_ofFn _ b

/-- Freeing blocks and holding the place of a reply do not meet. -/
theorem State.freeRange_reserveReply (s : State) (first count : Nat) :
    (s.reserveReply p).freeRange first count = (s.freeRange first count).reserveReply p := by
  have hb : (s.reserveReply p).block = s.block := rfl
  unfold State.freeRange
  rw [hb]
  generalize (Vector.ofFn _ : Vector Block 512) = v
  rfl

theorem State.freeRange_port (s : State) (first count : Nat) (p : Authority) :
    (s.freeRange first count).port p = s.port p := by
  unfold State.freeRange
  generalize (Vector.ofFn _ : Vector Block 512) = v
  rfl

theorem State.freeRange_changes (s : State) (first count : Nat) :
    s.changesOnly [.blocks] (s.freeRange first count) := (State.changesOnly_refl _ s).blocks_update (by simp)

/-! ### Arguments -/

theorem block?_eq_some {w : Word16} : block? w = some b ↔ w.toNat = b.val := by
  unfold block?
  split
  · simp [Fin.ext_iff]
  · rename_i h
    simp only [reduceCtorEq, false_iff]
    omega

theorem block?_eq_none {w : Word16} : block? w = none ↔ 511 < w.toNat := by
  unfold block?
  split
  · simp only [reduceCtorEq, false_iff]
    omega
  · simp only [true_iff]
    omega

@[simp] theorem kind?_kindCode (k : Kind) : kind? (kindCode (some (p, k))) = some k := by
  cases k <;> rfl

theorem kind?_eq_none {x : Byte} (h : x.toNat = 0 ∨ 3 < x.toNat) : kind? x = none := by
  have hne : ∀ y : Byte, y.toNat ∈ [1, 2, 3] → x ≠ y := by
    rintro y hy rfl
    simp only [List.mem_cons, List.not_mem_nil, or_false] at hy
    omega
  rw [kind?, if_neg (hne 1 (by decide)), if_neg (hne 2 (by decide)), if_neg (hne 3 (by decide))]

/-! ### WRITE BLOCK and READ BLOCK (R15, R16, R19) -/

theorem writeBlock_badArgument {a : WriteBlockArgs} (h : 511 < a.block.toNat ∨ a.kind.toNat = 0 ∨ 3 < a.kind.toNat) :
    writeBlock p a s = (s, .refused .badArgument []) := by
  unfold writeBlock
  split
  · rename_i b k hb hk
    rw [block?_eq_some] at hb
    rcases h with h | h
    · omega
    · rw [kind?_eq_none h] at hk
      exact nomatch hk
  · rfl

theorem writeBlock_notOwner {a : WriteBlockArgs} {k old : Kind} {o : Authority} (hb : a.block.toNat = b.val)
    (hk : a.kind = kindCode (some (p, k))) (ho : (s.block b).owner = some (o, old)) (hne : o ≠ p) :
    writeBlock p a s = (s, .refused .notOwner (num2 b.val)) := by
  simp [writeBlock, block?_eq_some.2 hb, hk, ho, hne]

theorem writeBlock_written {a : WriteBlockArgs} {k : Kind} (hb : a.block.toNat = b.val)
    (hk : a.kind = kindCode (some (p, k))) (ho : ∀ o old, (s.block b).owner = some (o, old) → o = p) :
    writeBlock p a s = (s.setBlock b ⟨some (p, k), a.entries⟩,
      .accepted (num2 b.val ++ [ownerCode (s.block b).owner, kindCode (s.block b).owner])) := by
  simp only [writeBlock, block?_eq_some.2 hb, hk, kind?_kindCode]
  split
  · rename_i o old h
    simp [h, ho o old h]
  · rename_i h
    simp [h]

theorem readBlock_badArgument {a : ReadBlockArgs} (h : 511 < a.block.toNat) :
    readBlock a s = (s, .refused .badArgument []) := by
  simp [readBlock, block?_eq_none.2 h, refuse]

theorem readBlock_read {a : ReadBlockArgs} (h : a.block.toNat = b.val) :
    readBlock a s = (s, .accepted
      ([ownerCode (s.block b).owner, kindCode (s.block b).owner] ++ (s.block b).bytes.toList)) := by
  simp [readBlock, block?_eq_some.2 h]

/-- Settles O7: each clause is a command taken at its port (`runCommand_fields`) that leaves the port to its reply
(`carryOut_of_frame`), with what the block commands do to the table. -/
theorem blocksAreWrittenAndRead : Obligations.BlocksAreWrittenAndRead := by
  unfold Obligations.BlocksAreWrittenAndRead
  refine ⟨fun s p a => ⟨fun bytes ht => ?_, fun ht => ?_⟩, fun s p a ht => ?_⟩
  · exact (runCommand_malformed (encode := WriteBlockArgs.encode) ht).trans (congrArg _ (carryOut_read rfl))
  · have hout : exec (.writeBlock p (.fields a)) s = .next (carryOut p 1 (writeBlock p a) s) := runCommand_fields ht
    rw [hout]
    refine ⟨fun h => ?_, fun b k hb hk => ⟨fun o old ho hne => ?_, fun ho => ?_⟩⟩
    · exact congrArg _ (carryOut_read (writeBlock_badArgument h))
    · exact congrArg _ (carryOut_read (writeBlock_notOwner (s := s.reserveReply p) hb hk ho hne))
    · exact congrArg _ (carryOut_of_frame (t := s.setBlock b ⟨some (p, k), a.entries⟩) rfl
        (writeBlock_written (s := s.reserveReply p) hb hk ho))
  · have hout : exec (.readBlock p (.fields a)) s = .next (carryOut p 3 (readBlock a) s) := runCommand_fields ht
    rw [hout]
    have hread : ∀ b : BlockNo, a.block.toNat = b.val → carryOut p 3 (readBlock a) s = s.answered p 3 (.accepted
        ([ownerCode (s.block b).owner, kindCode (s.block b).owner] ++ (s.block b).bytes.toList)) :=
      fun b hb => carryOut_read (readBlock_read (s := s.reserveReply p) hb)
    refine ⟨fun h => congrArg _ (carryOut_read (readBlock_badArgument h)), fun b hb => ⟨congrArg _ (hread b hb), ?_⟩⟩
    intro hzero hfree
    rw [hread b hb, hzero b hfree]
    rfl

/-! ### FREE BLOCKS (R17, R18) -/

theorem freeBlocks_badArgument {a : FreeBlocksArgs} (h : a.count.toNat = 0 ∨ 512 < a.first.toNat + a.count.toNat) :
    freeBlocks p a s = (s, .refused .badArgument []) := by
  have h' : a.count.toNat = 0 ∨ 511 < a.first.toNat + a.count.toNat - 1 := by omega
  simp only [freeBlocks, h', if_true]
  rfl

/-- The lowest block of a range that passes a test, as a number of the table. -/
theorem find_range'_eq_some {first count : Nat} {q : Nat → Bool} :
    (List.range' first count).find? q = some b.val ↔ q b.val = true ∧ (first ≤ b.val ∧ b.val < first + count) ∧
      ∀ c : BlockNo, first ≤ c.val → c < b → q c.val = false := by
  rw [List.find?_range'_eq_some, List.mem_range'_1]
  refine and_congr_right fun _ => and_congr_right fun _ => ⟨fun h c hf hc => ?_, fun h j hf hj => ?_⟩
  · simpa using h c.val hf hc
  · simpa using h ⟨j, by omega⟩ hf hj

theorem find_range'_eq_none {first count : Nat} {q : Nat → Bool} (hr : first + count ≤ 512) :
    (List.range' first count).find? q = none ↔
      ∀ b : BlockNo, first ≤ b.val ∧ b.val < first + count → q b.val = false := by
  rw [List.find?_range'_eq_none]
  refine ⟨fun h b hb => by simpa using h b.val hb.1 hb.2, fun h i hf hc => ?_⟩
  simpa using h ⟨i, by omega⟩ ⟨hf, hc⟩

section
variable {a : FreeBlocksArgs} (hrange : a.first.toNat + a.count.toNat ≤ 512)
include hrange

/-- A range inside the table is refused at its lowest block that is not the sender's (R17). -/
theorem freeBlocks_notOwner (hb : a.first.toNat ≤ b.val ∧ b.val < a.first.toNat + a.count.toNat)
    (hn : ¬ ∃ k, (s.block b).owner = some (p, k))
    (hlow : ∀ c : BlockNo, a.first.toNat ≤ c.val → c < b → ∃ k, (s.block c).owner = some (p, k)) :
    freeBlocks p a s = (s, .refused .notOwner (num2 b.val)) := by
  have hin : ¬ (a.count.toNat = 0 ∨ 511 < a.first.toNat + a.count.toNat - 1) := by omega
  have hfind : ((List.range' a.first.toNat a.count.toNat).find? fun b => !s.ownedBy p b) = some b.val := by
    rw [← State.ownedBy_iff] at hn
    refine find_range'_eq_some.2 ⟨by simpa using hn, hb, fun c hf hc => ?_⟩
    simpa using State.ownedBy_iff.2 (hlow c hf hc)
  simp only [freeBlocks, hin, if_false, hfind]

variable (hown : ∀ b : BlockNo, a.first.toNat ≤ b.val ∧ b.val < a.first.toNat + a.count.toNat →
  ∃ k, (s.block b).owner = some (p, k))
include hown

theorem find_notOwned_eq_none :
    ((List.range' a.first.toNat a.count.toNat).find? fun b => !s.ownedBy p b) = none :=
  (find_range'_eq_none hrange).2 fun b hb => by simpa using State.ownedBy_iff.2 (hown b hb)

/-- A range that is the sender's is refused at its lowest block that a space names (R17). -/
theorem freeBlocks_inUse (hb : a.first.toNat ≤ b.val ∧ b.val < a.first.toNat + a.count.toNat)
    (hn : ∃ n d, (s.space n).describes d ∧ d.names b.val = true)
    (hlow : ∀ c : BlockNo, a.first.toNat ≤ c.val → c < b → ¬ ∃ n d, (s.space n).describes d ∧ d.names c.val = true) :
    freeBlocks p a s = (s, .refused .inUse (num2 b.val)) := by
  have hin : ¬ (a.count.toNat = 0 ∨ 511 < a.first.toNat + a.count.toNat - 1) := by omega
  have hfind : ((List.range' a.first.toNat a.count.toNat).find? fun b => s.namedBySpace b) = some b.val :=
    find_range'_eq_some.2 ⟨State.namedBySpace_iff.2 hn, hb, fun c hf hc =>
      Bool.eq_false_iff.2 fun h => hlow c hf hc (State.namedBySpace_iff.1 h)⟩
  simp only [freeBlocks, hin, if_false, find_notOwned_eq_none hrange hown, hfind]

/-- A range that is the sender's, and that no space names, is freed (R18). -/
theorem freeBlocks_freed (hcount : a.count.toNat ≠ 0)
    (hn : ∀ b : BlockNo, a.first.toNat ≤ b.val ∧ b.val < a.first.toNat + a.count.toNat →
      ¬ ∃ n d, (s.space n).describes d ∧ d.names b.val = true) :
    freeBlocks p a s =
      (s.freeRange a.first.toNat a.count.toNat, .accepted (num2 a.first.toNat ++ num2 a.count.toNat)) := by
  have hin : ¬ (a.count.toNat = 0 ∨ 511 < a.first.toNat + a.count.toNat - 1) := by omega
  have hfind : ((List.range' a.first.toNat a.count.toNat).find? fun b => s.namedBySpace b) = none :=
    (find_range'_eq_none hrange).2 fun b hb => Bool.eq_false_iff.2 fun h => hn b hb (State.namedBySpace_iff.1 h)
  simp only [freeBlocks, hin, if_false, find_notOwned_eq_none hrange hown, hfind]

end

/-- Settles O8. -/
theorem freeBlocksTakesOrRefuses : Obligations.FreeBlocksTakesOrRefuses := by
  unfold Obligations.FreeBlocksTakesOrRefuses
  intro s p a ht
  have hout : exec (.freeBlocks p (.fields a)) s = .next (carryOut p 2 (freeBlocks p a) s) := runCommand_fields ht
  dsimp only
  rw [hout]
  refine ⟨fun h => congrArg _ (carryOut_read (freeBlocks_badArgument h)), fun hc hr =>
    ⟨fun b hb hn hlow => ?_, fun hown => ⟨fun b hb hn hlow => ?_, fun hn => ?_⟩⟩⟩
  · exact congrArg _ (carryOut_read (freeBlocks_notOwner (s := s.reserveReply p) hr hb hn
      fun c hf hcb => hlow c ⟨hf, lt_trans (Fin.lt_def.1 hcb) hb.2⟩ hcb))
  · exact congrArg _ (carryOut_read (freeBlocks_inUse (s := s.reserveReply p) hr hown hb hn
      fun c hf hcb => hlow c ⟨hf, lt_trans (Fin.lt_def.1 hcb) hb.2⟩ hcb))
  · refine ⟨s.freeRange a.first.toNat a.count.toNat, s.freeRange_changes _ _, fun b hb => ?_, fun b hb => ?_, ?_⟩
    · rw [State.freeRange_block, if_pos hb]
    · rw [State.freeRange_block, if_neg hb]
    · have hfreed := freeBlocks_freed (s := s.reserveReply p) hr hown hc hn
      rw [State.freeRange_reserveReply] at hfreed
      exact congrArg _ (carryOut_of_frame (s.freeRange_port _ _ p) hfreed)

end Sys2Proof.Machine

/-! SUPPORT. The laws of the tables through the commands, through every row of the opcode table and through a step. -/

namespace Sys2Proof.Machine

open State (changesOnly_refl)

variable {L : TableLaw} {f : Option SpaceNo} {s t : State} {p : Authority}

/-! ### The rights memory -/

/-- A block may be written with its owner, or taken where it is Free. -/
theorem TableLaw.Holds.setBlock {b : BlockNo} {a : Authority} {k : Kind} {v : Vector Byte 64} (h : L.Holds f s)
    (ho : ∀ o old, (s.block b).owner = some (o, old) → o = a) : L.Holds f (s.setBlock b ⟨some (a, k), v⟩) := by
  cases L with
  | freeBlocks =>
    intro c hc
    rw [State.setBlock_block] at hc ⊢
    split_ifs at hc ⊢
    exact h c hc
  | topTables =>
    intro n d c hd hc
    have hs : s.ownedBy d.authority c = true := h n d c hd hc
    obtain ⟨c, rfl⟩ : ∃ c' : BlockNo, c = c'.val := ⟨⟨c, State.lt_of_ownedBy hs⟩, rfl⟩
    rw [State.ownedBy_iff] at hs ⊢
    rw [State.setBlock_block]
    split_ifs with hcb
    · obtain ⟨old, hold⟩ := hs
      exact ⟨k, by simp [ho _ _ (hcb ▸ hold)]⟩
    · exact hs
  | _ => exact h

theorem TableLaw.Holds.writeBlock {a : WriteBlockArgs} (h : L.Holds f s) : L.Holds f (Machine.writeBlock p a s).1 := by
  unfold Machine.writeBlock
  split
  · split
    · rename_i o old ho
      split
      · rename_i hop
        exact h.setBlock fun o' old' ho' => by simp_all
      · exact h
    · rename_i ho
      exact h.setBlock fun o' old' ho' => by simp [ho] at ho'
  · exact h

/-- Blocks that no space names may be freed. -/
theorem TableLaw.Holds.freeRange {first count : Nat} (h : L.Holds f s)
    (hn : ∀ b : BlockNo, first ≤ b.val ∧ b.val < first + count → s.namedBySpace b.val = false) :
    L.Holds f (s.freeRange first count) := by
  cases L with
  | freeBlocks =>
    intro b hb
    rw [State.freeRange_block] at hb ⊢
    split_ifs at hb ⊢
    · rfl
    · exact h b hb
  | topTables =>
    intro n d b hd hb
    have hn' : (s.freeRange first count).space n = s.space n :=
      congrArg (Vector.get · n) (s.freeRange_changes first count .spaces (by decide))
    rw [hn'] at hd
    have hs : s.ownedBy d.authority b = true := h n d b hd hb
    obtain ⟨b, rfl⟩ : ∃ b' : BlockNo, b = b'.val := ⟨⟨b, State.lt_of_ownedBy hs⟩, rfl⟩
    rw [State.ownedBy_iff, State.freeRange_block, if_neg]
    · exact State.ownedBy_iff.1 hs
    · intro hr
      exact Bool.eq_false_iff.1 (hn b hr) (State.namedBySpace_iff.2 ⟨n, d, hd, hb⟩)
  | met m => exact h.of_changes (s.freeRange_changes first count) (by simp [TableLaw.fields])
  | _ => exact h.of_changes (s.freeRange_changes first count) (by decide)

theorem TableLaw.Holds.freeBlocks {a : FreeBlocksArgs} (h : L.Holds f s) : L.Holds f (Machine.freeBlocks p a s).1 := by
  unfold Machine.freeBlocks
  dsimp only
  split
  · exact h
  · rename_i hr
    split
    · exact h
    · split
      · exact h
      · rename_i hn
        exact h.freeRange ((find_range'_eq_none (by omega)).1 hn)

/-! ### The space directory -/

/-- A descriptor that passes the readiness check names blocks of its authority alone (R24). -/
theorem State.ownedBy_of_ready {d : Descriptor} {b : Nat} (h : s.unreadyBlock d = none) (hb : d.names b = true) :
    s.ownedBy d.authority b = true := by
  unfold Descriptor.names at hb
  unfold State.unreadyBlock at h
  split at hb
  · exact nomatch hb
  · rename_i o ho
    simp only [ho, List.find?_range'_eq_none] at h
    simp only [Bool.and_eq_true, decide_eq_true_eq] at hb
    have hown : (s.blockAt b).owner = some (d.authority, d.scope.kind) := by simpa using h b hb.1 hb.2
    simp [State.ownedBy, hown]

/-- A descriptor that a command carries names the sender. -/
theorem authority_of_descriptor? {a : DescriptorArgs} {d : Descriptor} (h : descriptor? p a = some d) :
    d.authority = p := by
  unfold descriptor? at h
  split at h
  · split_ifs at h
    · simp only [Option.some.injEq] at h
      exact h ▸ rfl
    · split at h
      · exact nomatch h
      · split_ifs at h
        simp only [Option.some.injEq] at h
        exact h ▸ rfl
  · exact nomatch h

theorem TableLaw.Holds.defineSpace {a : DescriptorArgs} (h : L.Holds f s) :
    L.Holds f (Machine.defineSpace p a s).1 := by
  unfold Machine.defineSpace
  split
  · exact h
  · rename_i d hd
    split
    · exact h
    · rename_i horigin
      split
      · exact h
      · rename_i hsec
        split
        · exact h
        · rename_i hready
          split
          · exact h
          · rename_i n hn
            obtain ⟨hn2, -, -⟩ := lowestFrom_eq_some.1 hn
            have hone : ∀ g d', (SpaceRecord.mk (some d) none g 0).describes d' → d' = d := by
              rintro g d' (hc | ⟨_, hw, -⟩)
              · simpa using hc.symm
              · exact nomatch hw
            dsimp only
            refine h.setSpace (fun _ d' hd' => .inr fun b hb => ?_) (fun _ _ hg => nomatch hg) fun _ => ⟨?_, ?_, ?_⟩
            · obtain rfl := hone _ _ hd'
              exact State.ownedBy_of_ready hready hb
            · intro h1
              omega
            · intro d' hd'
              obtain rfl := hone _ _ hd'
              exact ⟨fun h1 => by omega, fun h0 => by omega,
                fun _ => ⟨by rwa [authority_of_descriptor? hd], horigin⟩⟩
            · exact fun _ hw => nomatch hw

/-- A record with a descriptor staged is one the space may hold where the descriptor may be staged there by the space's
owner (R22, R23, R27). -/
theorem SpaceRecord.soundAt.staged {n : SpaceNo} {r : SpaceRecord} {w : StagedSwitch} (h : r.soundAt n)
    (ho : r.owner = some w.descriptor.authority) (hst : stageable n w.descriptor = true) :
    SpaceRecord.soundAt n { r with waiting := some w } := by
  obtain ⟨h1, h2, -⟩ := h
  obtain ⟨c, hc, hca⟩ := Option.map_eq_some_iff.1 ho
  obtain ⟨hlow, -, hhigh⟩ := h2 c (.inl hc)
  refine ⟨h1, fun d hd => ?_, fun w' hw' => ?_⟩
  · rcases hd with hd | ⟨w', hw', rfl⟩
    · exact h2 d (.inl hd)
    · obtain rfl : w = w' := by simpa using hw'
      unfold stageable at hst
      refine ⟨fun hn => ⟨hca ▸ (hlow hn).1, ?_⟩, fun hn => ?_, fun hn => ⟨hca ▸ (hhigh hn).1, ?_⟩⟩
      · split_ifs at hst with hn0 hn1
        · simp only [Bool.and_eq_true, decide_eq_true_eq] at hst
          exact hst.1
        · simpa using hst
        · omega
      · simp only [hn, if_true, Bool.and_eq_true] at hst
        exact hst.2
      · rw [if_neg (by omega), if_neg (by omega)] at hst
        exact Option.isSome_iff_ne_none.1 hst
  · obtain rfl : w = w' := by simpa using hw'
    exact ho

/-- With drain count 0 the staged descriptor becomes current at once, so Go is never left set with nothing to drain
(R28, R29). -/
theorem TableLaw.Holds.stageSpace {a : StageSpaceArgs} (h : L.Holds none s) :
    L.Holds none (Machine.stageSpace p a s).1 := by
  unfold Machine.stageSpace
  split
  · rename_i n d hn hd
    split
    · exact h
    · rename_i hst
      split
      · exact h
      · rename_i howner
        rw [ne_eq, not_not] at howner
        split
        · exact h
        · split
          · exact h
          · rename_i hready
            have hauth := authority_of_descriptor? hd
            have hstaged : ∀ f', (f' = some n ∨ (s.space n).drain ≠ 0) →
                L.Holds f' (s.setSpace n { s.space n with waiting := some ⟨d, s.count + 120⟩ }) := by
              intro f' hf'
              refine h.weaken.setSpace (fun _ d' hd' => ?_) (fun _ hne _ => ?_) fun hL => ?_
              · rcases hd' with hd' | ⟨w, hw, rfl⟩
                · exact .inl (.inl hd')
                · simp only [Option.some.injEq] at hw
                  subst hw
                  exact .inr fun b hb => State.ownedBy_of_ready hready hb
              · obtain ⟨c, hc, -⟩ := Option.map_eq_some_iff.1 howner
                exact ⟨by simp [SpaceRecord.inUse, hc], Nat.one_le_iff_ne_zero.2 (hf'.resolve_left hne)⟩
              · subst hL
                exact (State.spacesSound_iff.1 h n).staged (by rw [howner, hauth]) (by simpa using hst)
            dsimp only
            split
            · exact (hstaged (some n) (.inl rfl)).applySwitch.of_go_clear State.applySwitch_go
            · rename_i hdrain
              exact hstaged none (.inr hdrain)
  · exact h

theorem TableLaw.Holds.cancelStage {a : NumberArgs} (h : L.Holds f s) : L.Holds f (Machine.cancelStage p a s).1 := by
  unfold Machine.cancelStage
  split
  · exact h
  · rename_i n hn
    split
    · exact h
    · split
      · exact h
      · have hsub : ∀ d, ({ s.space n with waiting := none } : SpaceRecord).describes d → (s.space n).describes d := by
          rintro d (hd | ⟨_, hw, -⟩)
          · exact .inl hd
          · exact nomatch hw
        refine h.setSpace (fun _ d hd => .inl (hsub d hd)) (fun _ _ hg => nomatch hg) fun hL => ?_
        subst hL
        exact (State.spacesSound_iff.1 h n).of_describes hsub (fun _ => rfl) fun _ hw => nomatch hw

theorem TableLaw.Holds.retireSpace {a : NumberArgs} (h : L.Holds f s) : L.Holds f (Machine.retireSpace p a s).1 := by
  unfold Machine.retireSpace
  split
  · exact h
  · rename_i n hn
    split
    · exact h
    · rename_i hown
      split
      · exact h
      · rename_i hgo
        split
        · exact h
        · have hw : (s.space n).waiting = none := by simpa [SpaceRecord.go] using hgo
          have hsub : ∀ d, ({ s.space n with current := none } : SpaceRecord).describes d → (s.space n).describes d := by
            rintro d (hd | hd)
            · exact nomatch hd
            · exact .inr hd
          refine h.setSpace (fun _ d hd => .inl (hsub d hd)) (fun _ _ hg => absurd hg hgo) fun hL => ?_
          subst hL
          refine (State.spacesSound_iff.1 h n).of_describes hsub (fun hle => absurd (.inl hle) hown) fun w hw' => ?_
          rw [hw] at hw'
          exact nomatch hw'

/-! ### Work orders and permits -/

theorem TableLaw.Holds.createWorkOrder {a : CreateWorkOrderArgs} (h : L.Holds f s) :
    L.Holds f (Machine.createWorkOrder p a s).1 := by
  unfold Machine.createWorkOrder
  split
  · exact h
  · split
    · exact h
    · split
      · exact h
      · split
        · exact h
        · rename_i n hn
          obtain ⟨h1, -, -⟩ := lowestFrom_eq_some.1 hn
          exact h.setWorkOrder fun _ h0 => by simp [h0] at h1

theorem TableLaw.Holds.endorse {a : EndorseArgs} (h : L.Holds f s) : L.Holds f (Machine.endorse p a s).1 := by
  unfold Machine.endorse
  split
  · split
    · exact h
    · split
      · exact h
      · rename_i hr
        split
        · exact h
        · exact h.setWorkOrder fun _ h0 => hr (.inr (.inl (by simp [h0])))
  · exact h

theorem TableLaw.Holds.withdraw {a : NumberArgs} (h : L.Holds f s) : L.Holds f (Machine.withdraw p a s).1 := by
  unfold Machine.withdraw
  split
  · exact h
  · split
    · exact h
    · split
      · exact h
      · rename_i hr
        split
        · exact h
        · exact h.closeWorkOrder fun h0 => hr (.inl (by simp [h0]))

/-- A permit is issued to a credential that no permit in use has (R120). -/
theorem TableLaw.Holds.issuePermit {a : IssuePermitArgs} (h : L.Holds f s) :
    L.Holds f (Machine.issuePermit p a s).1 := by
  unfold Machine.issuePermit
  split
  · split
    · exact h
    · split
      · exact h
      · split
        · exact h
        · split
          · exact h
          · split
            · exact h
            · rename_i hfresh
              split
              · exact h
              · refine h.setPermit fun _ q hq m o ho he => ?_
                rw [Option.some.injEq] at hq
                subst hq
                exact absurd he (State.permitOf_eq_none.1 hfresh m o ho)
  · exact h

theorem TableLaw.Holds.revoke {a : NumberArgs} (h : L.Holds f s) : L.Holds f (Machine.revoke p a s).1 := by
  unfold Machine.revoke
  dsimp only
  split
  · exact h
  · rename_i r hr
    split
    · exact h
    · unfold State.revokePermit
      dsimp only
      split
      · exact TableLaw.Holds.setPermit_same h hr rfl
      · split
        · exact h.abandonHolding.setPermit_none
        · exact h.abandonHolding.freePermit

theorem TableLaw.Holds.forceExit {a : NumberArgs} (h : L.Holds f s) : L.Holds f (Machine.forceExit p a s).1 := by
  unfold Machine.forceExit
  split
  · exact h
  · dsimp only
    split
    · exact h
    · split
      · refine TableLaw.Holds.exitPermit (TableLaw.Holds.notifyBoth (foldl_keeps h fun u d _ hu => ?_))
        unfold dropExitHold
        dsimp only
        split
        · split
          · exact hu.setDoor
          · exact hu
        · exact hu
      all_goals exact h

/-! ### Doors and lanes -/

theorem TableLaw.Holds.bindDoor {a : BindDoorArgs} (h : L.Holds f s) : L.Holds f (Machine.bindDoor p a s).1 := by
  unfold Machine.bindDoor
  split
  · exact h
  · split
    · dsimp only
      split
      · exact h
      · exact h.setDoor
    · exact h

theorem TableLaw.Holds.remoteConsent {a : RemoteConsentArgs} (h : L.Holds f s) :
    L.Holds f (Machine.remoteConsent p a s).1 := by
  unfold Machine.remoteConsent
  split
  · exact h
  · split
    · exact h
    · split
      · exact h
      · split
        · dsimp only
          split
          · unfold State.grantConsent
            split
            · exact h.denyPairing (.inl rfl)
            · exact (h.endPairing (.inl rfl)).openEnter (by simp)
          · exact h.denyPairing (.inl rfl)
        · exact h

theorem TableLaw.Holds.setHold {hold : Bool} {g : Nat → Slot → Slot} {a : NumberArgs} (h : L.Holds f s) :
    L.Holds f (Machine.setHold hold g p a s).1 := by
  unfold Machine.setHold
  split
  · exact h
  · split
    · exact h
    · dsimp only
      split
      · exact h
      · exact h.of_plain (((changesOnly_refl plainFields s).setLane (by decide)).slots_update (by decide))

theorem TableLaw.Holds.resetLane {a : NumberArgs} (h : L.Holds f s) : L.Holds f (Machine.resetLane p a s).1 := by
  unfold Machine.resetLane
  split
  · exact h
  · split
    · exact h
    · exact h.resetLaneTo

/-! ### The whole device -/

theorem TableLaw.Holds.setPosture {a : SetPostureArgs} (h : L.Holds f s) : L.Holds f (Machine.setPosture p a s).1 := by
  unfold Machine.setPosture
  split
  · exact h
  · split
    · exact h
    · exact h.changePosture

theorem TableLaw.Holds.setSiteAllowance {a : SetSiteAllowanceArgs} (h : L.Holds f s) :
    L.Holds f (Machine.setSiteAllowance p a s).1 := by
  unfold Machine.setSiteAllowance
  split
  · exact h
  · split
    · exact h
    · exact TableLaw.Holds.evaluateWhere (h.of_plain ((changesOnly_refl _ s).setSite (by decide)))

theorem TableLaw.Holds.setTimings {a : SetTimingsArgs} (h : L.Holds f s) : L.Holds f (Machine.setTimings p a s).1 := by
  unfold Machine.setTimings
  split
  · exact h
  · exact h.of_plain ((changesOnly_refl _ s).timings_update (by decide))

theorem TableLaw.Holds.purge {a : PurgeArgs} (h : L.Holds f s) : L.Holds f (Machine.purge p a s).1 :=
  h.of_plain ((changesOnly_refl _ s).purge (by decide))

/-- Every law of the tables holds right after power-on: the only spaces in use name no top table, and nothing else is in
use but work order 0 (R179). -/
theorem TableLaw.holds_reset (hL : .meetings ∉ L.fields) : L.Holds none State.reset := by
  have hd : ∀ n d, (State.reset.space n).describes d →
      d.topOrigin = none ∧ n.val ≤ 1 ∧ d.authority = .sec ∧ d.scope = .estate ∧ (n.val = 0 → d.isPrivate = true) := by
    intro n d hd
    rw [reset_space] at hd
    have hsec : ∀ b, (SpaceRecord.security b).describes d → ⟨.sec, .estate, none, 1, b⟩ = d := by
      rintro b (hc | ⟨_, hw, -⟩)
      · simpa [SpaceRecord.security] using hc
      · exact nomatch hw
    split_ifs at hd with h1 h0
    · simp [← hsec _ hd, h1]
    · simp [← hsec _ hd, h0]
    · rcases hd with hc | ⟨_, hw, -⟩
      · exact nomatch hc
      · exact nomatch hw
  have hw : ∀ n, (State.reset.space n).waiting = none := by
    intro n
    rw [reset_space]
    split_ifs <;> rfl
  cases L with
  | freeBlocks => exact fun b _ => reset_block b
  | topTables =>
    intro n d b hd' hb
    simp [Descriptor.names, (hd n d hd').1] at hb
  | go =>
    intro n _ hg
    simp [SpaceRecord.go, hw] at hg
  | spaces =>
    refine ⟨by decide, by decide, fun n d hd' => ?_, fun n w hw' => ?_⟩
    · obtain ⟨-, hn, ha, hs, hp⟩ := hd n d hd'
      exact ⟨fun _ => ⟨ha, hs⟩, hp, fun h2 => by omega⟩
    · rw [hw] at hw'
      exact nomatch hw'
  | roster => exact ⟨⟨0, reset_workOrder 0⟩, fun _ hw => nomatch hw⟩
  | credentials =>
    intro m n q r hq
    simp at hq
  | records =>
    refine ⟨fun j k o o' ho => ?_, fun k o ho => ?_⟩
    · simp at ho
    · simp at ho
  | met m => exact absurd (List.mem_singleton_self _) hL

/-- A state whose tables and line are those of power-on, with what is still to meet requests left. -/
theorem TableLaw.Holds.of_reset (h : L.Holds f s) (hm : t.meetings = s.meetings)
    (hc : State.reset.changesOnly (.meetings :: plainFields) t) : L.Holds f t := by
  by_cases hL : .meetings ∈ L.fields
  · cases L with
    | met m => exact hm.trans h
    | _ => exact absurd hL (by decide)
  · refine (TableLaw.holds_reset hL).weaken.of_changes hc fun g hg hgs => ?_
    rcases List.mem_cons.1 hgs with rfl | hgs
    · exact hL hg
    · exact TableLaw.notMem_plainFields g hg hgs

theorem TableLaw.Holds.estateClear {a : NoArgs} (h : L.Holds f s) : L.Holds f (Machine.estateClear p a s).1 := by
  unfold Machine.estateClear
  split
  · exact h
  · split
    · exact h
    · refine h.of_reset rfl fun g hg => ?_
      cases g <;> first
        | rfl
        | exact absurd (by decide) hg

end Sys2Proof.Machine

/-! SUPPORT. The laws of the tables through every row of the opcode table, and through a step. -/

namespace Sys2Proof.Machine

open State (changesOnly_refl)

variable {L : TableLaw} {s t : State} {p : Authority} {i : Instr}

/-! ### Commands that only read -/

@[simp] theorem readBlock_state (a : ReadBlockArgs) (s : State) : (readBlock a s).1 = s := by
  unfold readBlock
  split <;> rfl

@[simp] theorem readSpace_state (p : Authority) (a : NumberArgs) (s : State) : (readSpace p a s).1 = s := by
  unfold readSpace
  split
  · rfl
  · split <;> rfl

@[simp] theorem readRoom_state (p : Authority) (a : DesignatorArgs) (s : State) : (readRoom p a s).1 = s := by
  unfold readRoom
  split <;> rfl

@[simp] theorem readWorkOrder_state (p : Authority) (a : NumberArgs) (s : State) : (readWorkOrder p a s).1 = s := by
  unfold readWorkOrder
  split
  · rfl
  · split <;> split <;> rfl

@[simp] theorem readPermit_state (p : Authority) (a : NumberArgs) (s : State) : (readPermit p a s).1 = s := by
  unfold readPermit
  dsimp only
  split <;> split <;> rfl

@[simp] theorem readDoor_state (p : Authority) (a : DoorArgs) (s : State) : (readDoor p a s).1 = s := by
  unfold readDoor
  split <;> rfl

@[simp] theorem readStatus_state (p : Authority) (a : NoArgs) (s : State) : (readStatus p a s).1 = s := rfl

/-! ### Commands at their ports -/

theorem TableLaw.Holds.judgePayload {α : Type} {a : Payload α} {body : α → State → State × Answer} (h : L.Holds none s)
    (hb : ∀ x, L.Holds none (body x s).1) : L.Holds none (Machine.judgePayload a body s).1 := by
  cases a with
  | fields x => exact hb x
  | malformed _ => exact h

/-- A command that makes no request keeps the laws. -/
theorem TableLaw.Holds.plainCommand {body : State → State × Answer} (h : L.Holds none s)
    (hb : plainCommand i = some body) : L.Holds none (body s).1 := by
  cases i with
  | writeBlock p a => cases hb; exact h.judgePayload fun _ => h.writeBlock
  | freeBlocks p a => cases hb; exact h.judgePayload fun _ => h.freeBlocks
  | readBlock p a => cases hb; exact h.judgePayload fun x => by rwa [readBlock_state]
  | defineSpace p a => cases hb; exact h.judgePayload fun _ => h.defineSpace
  | stageSpace p a => cases hb; exact h.judgePayload fun _ => h.stageSpace
  | cancelStage p a => cases hb; exact h.judgePayload fun _ => h.cancelStage
  | retireSpace p a => cases hb; exact h.judgePayload fun _ => h.retireSpace
  | readSpace p a => cases hb; exact h.judgePayload fun x => by rwa [readSpace_state]
  | purge p a => cases hb; exact h.judgePayload fun _ => h.purge
  | setPosture p a => cases hb; exact h.judgePayload fun _ => h.setPosture
  | setSiteAllowance p a => cases hb; exact h.judgePayload fun _ => h.setSiteAllowance
  | forceExit p a => cases hb; exact h.judgePayload fun _ => h.forceExit
  | readRoom p a => cases hb; exact h.judgePayload fun x => by rwa [readRoom_state]
  | createWorkOrder p a => cases hb; exact h.judgePayload fun _ => h.createWorkOrder
  | endorse p a => cases hb; exact h.judgePayload fun _ => h.endorse
  | withdraw p a => cases hb; exact h.judgePayload fun _ => h.withdraw
  | readWorkOrder p a => cases hb; exact h.judgePayload fun x => by rwa [readWorkOrder_state]
  | issuePermit p a => cases hb; exact h.judgePayload fun _ => h.issuePermit
  | revoke p a => cases hb; exact h.judgePayload fun _ => h.revoke
  | readPermit p a => cases hb; exact h.judgePayload fun x => by rwa [readPermit_state]
  | bindDoor p a => cases hb; exact h.judgePayload fun _ => h.bindDoor
  | readDoor p a => cases hb; exact h.judgePayload fun x => by rwa [readDoor_state]
  | remoteConsent p a => cases hb; exact h.judgePayload fun _ => h.remoteConsent
  | holdLane p a => cases hb; exact h.judgePayload fun _ => h.setHold
  | releaseLane p a => cases hb; exact h.judgePayload fun _ => h.setHold
  | resetLane p a => cases hb; exact h.judgePayload fun _ => h.resetLane
  | setTimings p a => cases hb; exact h.judgePayload fun _ => h.setTimings
  | readStatus p a => cases hb; exact h.judgePayload fun x => by rwa [readStatus_state]
  | estateClear p a => cases hb; exact h.judgePayload fun _ => h.estateClear
  | unknownCommand p code bytes => cases hb; exact h
  | setClock p a => cases a <;> cases hb; exact h
  | activate p a => cases a <;> cases hb; exact h
  | _ => cases hb

theorem TableLaw.Holds.takeCommand {code : Byte} {payload : List Byte} {body : State → State × Answer}
    (h : L.Holds none s) (hb : ∀ u, L.Holds none u → L.Holds none (body u).1) :
    L.Holds none (Machine.takeCommand p code payload body s) := by
  unfold Machine.takeCommand
  dsimp only
  split
  · split
    · exact h.setPort
    · exact h.carryOut hb
  · exact h

/-- A port takes a command, up to the first request of one that makes any. -/
theorem TableLaw.Holds.beginCommand {code : Byte} (h : L.Holds none s) : L.Holds none (s.beginCommand p code i) := by
  unfold State.beginCommand
  split
  · exact h.beginSetClock
  · exact h.beginActivate
  · refine h.carryOut fun u hu => ?_
    cases hb : Machine.plainCommand i with
    | none => exact hu
    | some body => exact hu.plainCommand hb

/-- The rows of commands that make no request: the command of the row is taken at its port. -/
theorem rowEffect_of_plainCommand {body : State → State × Answer} (hb : plainCommand i = some body)
    (hr : makesRequests i = false) (h : rowEffect i s = some t) :
    t = s ∨ ∃ p code payload, t = takeCommand p code payload body s := by
  cases i with
  | unknownCommand p code bytes =>
    cases hb
    obtain rfl := Option.some.inj h
    split
    · exact .inl rfl
    · exact .inr ⟨_, _, _, rfl⟩
  | setClock p a => exact Bool.noConfusion hr
  | activate p a => exact Bool.noConfusion hr
  | _ => cases hb <;> exact .inr ⟨_, _, _, (Option.some.inj h).symm⟩

/-! ### Events -/

/-- A deadline of a door or a slot that is reached, or nothing. -/
theorem TableLaw.Holds.stepTimeout {n : SlotNo} {k : Slot} (h : L.Holds none s) : L.Holds none (s.stepTimeout n k) := by
  unfold State.stepTimeout
  split
  · split
    · exact TableLaw.Holds.notify (TableLaw.Holds.setDoor h.setSlot)
    · exact h.denyPairing (.inl rfl)
  · exact h.denyPairing (.inl rfl)

theorem TableLaw.Holds.execCheckinDeadline {n : PermitNo} (h : L.Holds none s)
    (ht : Machine.execCheckinDeadline n s = .next t) : L.Holds none t := by
  obtain rfl := Host.Outcome.next.inj ht
  split
  · exact h
  · rename_i p hp
    split
    · split
      · exact TableLaw.Holds.notifyBoth (TableLaw.Holds.setPermit_same h hp rfl)
      · exact h
    all_goals exact h

theorem TableLaw.Holds.execStayDeadline {n : PermitNo} (h : L.Holds none s)
    (ht : Machine.execStayDeadline n s = .next t) : L.Holds none t := by
  obtain rfl := Host.Outcome.next.inj ht
  split
  · exact h
  · rename_i p hp
    split
    · split
      · exact TableLaw.Holds.notifyBoth (TableLaw.Holds.setPermit_same h hp rfl)
      · exact h
    all_goals exact h

theorem TableLaw.Holds.execVerdictSent {l : LaneNo} (h : L.Holds none s)
    (ht : Machine.execVerdictSent l s = .next t) : L.Holds none t := by
  obtain rfl := Host.Outcome.next.inj ht
  split
  · rename_i v _
    have hv : L.Holds none (s.verdictGone l v) := by
      unfold State.verdictGone
      dsimp only
      split
      · split
        · exact h.setDoor
        · exact h
      · exact h
    exact TableLaw.Holds.sendNext hv.setLane
  all_goals exact h

/-- An event that makes no request keeps the laws. -/
theorem TableLaw.Holds.exec_event (h : L.Holds none s) (hb : Machine.plainCommand i = none)
    (hr : makesRequests i = false) (ht : exec i s = .next t) : L.Holds none t := by
  cases i with
  | powerOn =>
    obtain rfl := Host.Outcome.next.inj ht
    refine h.of_reset rfl fun g hg => ?_
    cases g <;> first
      | rfl
      | exact absurd (by decide) hg
  | frameGapTimeout p => obtain rfl := Host.Outcome.next.inj ht; exact h.setPort
  | portBreak p => obtain rfl := Host.Outcome.next.inj ht; exact h.setPort
  | readyLineAsserted p => obtain rfl := Host.Outcome.next.inj ht; exact h.setPort
  | framingError p => obtain rfl := Host.Outcome.next.inj ht; exact h.setPort
  | badLength p n =>
    obtain rfl := Host.Outcome.next.inj ht
    split
    · exact h.setPort
    · exact h
  | passageDeadline d =>
    obtain rfl := Host.Outcome.next.inj ht
    repeat' split
    all_goals first
      | exact h
      | exact h.closePassages
  | stepDeadline k =>
    obtain rfl := Host.Outcome.next.inj ht
    split
    · exact h
    · split
      · exact h.stepTimeout
      · exact h
  | consentDeadline k =>
    obtain rfl := Host.Outcome.next.inj ht
    split
    · exact h
    · split
      · exact h.denyPairing (.inl rfl)
      · exact h
  | checkinDeadline n => exact h.execCheckinDeadline ht
  | stayDeadline n => exact h.execStayDeadline ht
  | switchDeadline n =>
    obtain rfl := Host.Outcome.next.inj ht
    split
    · exact h
    · split
      · exact h.forceSwitch
      · exact h
  | pollTurn l =>
    obtain rfl := Host.Outcome.next.inj ht
    split
    · exact TableLaw.Holds.sendNext h.setLane
    · exact h
  | verdictSent l => exact h.execVerdictSent ht
  | cancelSent l =>
    obtain rfl := Host.Outcome.next.inj ht
    split
    · exact TableLaw.Holds.setLane h.setDoor
    · exact h
  | pollUnanswered l =>
    obtain rfl := Host.Outcome.next.inj ht
    split
    · exact h.missPoll
    · exact h
  | presentExit d c =>
    obtain rfl := Host.Outcome.next.inj ht
    exact h.answerPresent fun _ hu => hu.takeExit
  | presentCheckin d c =>
    obtain rfl := Host.Outcome.next.inj ht
    exact h.answerPresent fun _ hu => hu.takeCheckIn
  | passage d =>
    obtain rfl := Host.Outcome.next.inj ht
    exact h.answerPoll fun _ hu => hu.takePassage
  | nothing d =>
    obtain rfl := Host.Outcome.next.inj ht
    exact h.answerPoll fun _ hu => hu
  | laneBreakEnd l =>
    obtain rfl := Host.Outcome.next.inj ht
    split
    · exact h.setLane
    · exact h
  | setClock p a => exact Bool.noConfusion hr
  | activate p a => exact Bool.noConfusion hr
  | presentEnter d c => exact Bool.noConfusion hr
  | selectionDeadline n => exact Bool.noConfusion hr
  | secondTick => exact Bool.noConfusion hr
  | commandFrameReceived p bytes => exact Bool.noConfusion hr
  | frameFinished p ready => exact Bool.noConfusion hr
  | _ => cases hb

/-- A row that makes no request, taken at any time, keeps the laws. -/
theorem TableLaw.Holds.exec_plain (h : L.Holds none s) (hr : makesRequests i = false) (ht : exec i s = .next t) :
    L.Holds none t := by
  cases hb : Machine.plainCommand i with
  | none => exact h.exec_event hb hr ht
  | some body =>
    have hrow : rowEffect i s = some t := by
      cases i with
      | powerOn => cases hb
      | commandFrameReceived p bytes => cases hb
      | setClock p a => exact Bool.noConfusion hr
      | activate p a => exact Bool.noConfusion hr
      | presentEnter d c => exact Bool.noConfusion hr
      | selectionDeadline n => exact Bool.noConfusion hr
      | secondTick => exact Bool.noConfusion hr
      | frameFinished p ready => exact Bool.noConfusion hr
      | _ => exact stateAfter_eq.2 ht
    rcases rowEffect_of_plainCommand hb hr hrow with rfl | ⟨p, code, payload, rfl⟩
    · exact h
    · exact h.takeCommand fun _ hu => hu.plainCommand hb

/-! ### Rows that make requests, up to the first -/

theorem TableLaw.Holds.finishFrame {ready : Bool} (h : L.Holds none s) (ht : s.finishFrame p ready = some t) :
    L.Holds none t := by
  unfold State.finishFrame at ht
  split at ht
  · exact nomatch ht
  · obtain rfl := Option.some.inj ht
    exact h.setPort

theorem TableLaw.Holds.beginFrameFinished {ready : Bool} (h : L.Holds none s) :
    L.Holds none (s.beginFrameFinished p ready) := by
  unfold State.beginFrameFinished
  split
  · exact h
  · rename_i t ht
    split
    · exact h.finishFrame ht
    · exact (h.finishFrame ht).beginCommand

/-- A row taken while decisions wait keeps the laws. -/
theorem TableLaw.Holds.rowEffect (h : L.Holds none s) (ht : Machine.rowEffect i s = some t) : L.Holds none t := by
  cases hr : makesRequests i with
  | false => exact h.exec_plain hr (exec_of_rowEffect hr ht)
  | true =>
    cases i with
    | setClock p a => obtain rfl := Option.some.inj ht; exact h.beginCommand
    | activate p a => obtain rfl := Option.some.inj ht; exact h.beginCommand
    | secondTick => obtain rfl := Option.some.inj ht; exact h.beginTick
    | selectionDeadline n => obtain rfl := Option.some.inj ht; exact h.beginDeadline
    | frameFinished p ready => obtain rfl := Option.some.inj ht; exact h.beginFrameFinished
    | presentEnter d c =>
      obtain rfl := Option.some.inj ht
      exact h.answerPresent fun _ hu => hu.beginEnter
    | commandFrameReceived p bytes => exact nomatch ht
    | _ => exact Bool.noConfusion hr

/-- The service of requests keeps the laws. -/
theorem TableLaw.keptByRequests (hL : .meetings ∉ L.fields) : KeptByRequests (L.Holds none) L.allows where
  cache v h := h.of_plain ((changesOnly_refl _ _).cache_update (by decide))
  meetings v h := h.of_changes ((changesOnly_refl [.meetings] _).meetings_update (by decide)) 
    fun g hg hm => hL (List.mem_singleton.1 hm ▸ hg)
  cut h hv := h.cut hv
  waits h hw := h.allows_of_mem hw
  wait _ h he := h.wait he
  resume _ h he := h.resume he
  discard _ h := h.discard
  row h ht := h.rowEffect ht

/-! ### Rows that make requests -/

section

variable (k : KeptByRequests (L.Holds none) L.allows)
include k

theorem TableLaw.Holds.runTurns {now : Reading} {l : List WorkOrderNo} (h : L.Holds none s) (hl : L = .roster → 0 ∉ l)
    (p : Option Authority) : L.Holds none (s.runTurns p now l) := by
  induction l generalizing s with
  | nil => exact h
  | cons n rest ih =>
    have hn : L = .roster → n ≠ 0 := fun hL hn => hl hL (by simp [hn])
    refine ih ?_ fun hL hm => hl hL (List.mem_cons_of_mem _ hm)
    split
    · exact h
    · rename_i s1 w ht
      exact (k.runSelection (h.turnOf hn ht)).applyResult hn

theorem TableLaw.Holds.enterMinute (h : L.Holds none s) (p : Option Authority) : L.Holds none (s.enterMinute p) :=
  h.runTurns k (fun _ => zero_notMem_turnsDue) p

theorem TableLaw.Holds.setClock {a : SetClockArgs} (h : L.Holds none s) : L.Holds none (Machine.setClock p a s).1 := by
  unfold Machine.setClock
  split
  · exact h
  · exact h.setClockTo.enterMinute k _

theorem TableLaw.Holds.activate {a : NumberArgs} (h : L.Holds none s) : L.Holds none (Machine.activate p a s).1 := by
  unfold Machine.activate
  split
  · exact h
  · rename_i n w ha
    exact (k.runSelection h).applyResult fun _ => ne_zero_of_activateOf ha

theorem TableLaw.Holds.tick (h : L.Holds none s) : L.Holds none s.tick := by
  have h1 := h.advanceClock
  unfold State.tick
  split <;> rename_i hq <;> rw [hq] at h1
  · exact h1.enterMinute k _
  · exact h1

theorem TableLaw.Holds.takeEnter {d : DoorId} {c : Credential} (h : L.Holds none s) : L.Holds none (s.takeEnter d c) := by
  have h1 : (s.enterStage d c).Settles (L.Holds none) := h.enterStage
  unfold State.takeEnter
  split <;> rename_i hq
  · rwa [hq] at h1
  · exact (k.checkRights h).endContractor
  · exact (k.checkRights h).endEscort

theorem TableLaw.Holds.commandEffect (h : L.Holds none s) : L.Holds none (commandEffect i s).1 := by
  unfold Machine.commandEffect
  split
  · exact h.judgePayload fun _ => h.setClock k
  · exact h.judgePayload fun _ => h.activate k
  · cases hb : Machine.plainCommand i with
    | none => exact h
    | some body => exact h.plainCommand hb

theorem TableLaw.Holds.takeHeld (h : L.Holds none s) : L.Holds none (s.takeHeld p) := by
  unfold State.takeHeld
  split
  · exact k.settle (h.carryOut fun _ hu => hu.commandEffect k)
  · exact h

/-- Every row keeps the laws. -/
theorem TableLaw.Holds.exec (h : L.Holds none s) (ht : Machine.exec i s = .next t) : L.Holds none t := by
  cases hr : makesRequests i with
  | false => exact h.exec_plain hr ht
  | true =>
    have settles := fun (p : Option Authority) (u : State) (hu : L.Holds none u) =>
      k.settle (p := p) hu
    cases i with
    | setClock p a =>
      obtain rfl := Host.Outcome.next.inj ht
      exact settles _ _ (h.takeCommand fun _ hu => hu.judgePayload fun _ => hu.setClock k)
    | activate p a =>
      obtain rfl := Host.Outcome.next.inj ht
      exact settles _ _ (h.takeCommand fun _ hu => hu.judgePayload fun _ => hu.activate k)
    | secondTick =>
      obtain rfl := Host.Outcome.next.inj ht
      exact settles _ _ (h.tick k)
    | selectionDeadline n =>
      obtain rfl := Host.Outcome.next.inj ht
      refine settles _ _ ?_
      split
      · exact h
      · rename_i w hw
        split
        · rename_i hd
          exact (k.runSelection h).applyResult (h.ne_zero_of_reached hw hd.2)
        · exact h
    | presentEnter d c =>
      obtain rfl := Host.Outcome.next.inj ht
      exact settles _ _ (h.answerPresent fun _ hu => hu.takeEnter k)
    | commandFrameReceived p bytes =>
      obtain rfl := Host.Outcome.next.inj ht
      exact foldl_keeps h fun _ _ _ hu => TableLaw.Holds.takeHeld k hu.setPort
    | frameFinished p ready =>
      obtain rfl := Host.Outcome.next.inj ht
      split
      · exact h
      · rename_i t ht
        exact (h.finishFrame ht).takeHeld k
    | _ => exact Bool.noConfusion hr

/-- Every step keeps the laws. -/
theorem TableLaw.Holds.step (h : L.Holds none s) (ht : Machine.step s = .next t) : L.Holds none t := by
  unfold Machine.step at ht
  split at ht
  · obtain rfl := Host.Outcome.next.inj ht
    exact h
  · rename_i c rest _
    have h1 : L.Holds none { s with pending := rest } := h.of_plain fun g hg => by
      cases g <;> first
        | rfl
        | exact absurd (by decide) hg
    exact h1.exec k ht

end

/-- Settles O58: each law is one of `TableLaw`, with nothing waiting and no forced switch under way. -/
theorem tableLawsAreKept : Obligations.TableLawsAreKept := by
  unfold Obligations.TableLawsAreKept
  refine ⟨fun s t _ ht => ⟨fun h => ?_, fun h => ?_, fun h => ?_, fun h => ?_⟩,
    fun s t hw ht => ⟨fun h => ?_, fun h => ?_, fun h => ?_⟩⟩
  · exact TableLaw.Holds.step (L := .freeBlocks) (TableLaw.keptByRequests (by decide)) h ht
  · exact TableLaw.Holds.step (L := .topTables) (TableLaw.keptByRequests (by decide)) h ht
  · have hgo : TableLaw.go.Holds none s := fun n _ => h n
    exact fun n => hgo.step (TableLaw.keptByRequests (by decide)) ht n (by simp)
  · exact TableLaw.Holds.step (L := .spaces) (TableLaw.keptByRequests (by decide)) h ht
  · have hroster : TableLaw.roster.Holds none s := ⟨h, by simp [hw]⟩
    exact (hroster.step (TableLaw.keptByRequests (by decide)) ht).1
  · exact TableLaw.Holds.step (L := .credentials) (TableLaw.keptByRequests (by decide)) h ht
  · exact TableLaw.Holds.step (L := .records) (TableLaw.keptByRequests (by decide)) h ht

end Sys2Proof.Machine

/-! SUPPORT. The walks of the rights tables: the fields of an entry, the read of one level, and what each level of a grant
walk and of an overlay walk comes to (R11 to R13, R40 to R58). -/

namespace Sys2Proof.Machine

/-! ### The fields of an entry (R11) -/

theorem Block.byte_eq (b : Block) (i : Nat) : b.byte i = b.bytes.toList.getD i 0 := by
  unfold Block.byte
  split
  · rename_i h
    simp [Vector.get_eq_getElem, List.getD_eq_getElem?_getD, h]
  · rename_i h
    simp [List.getD_eq_getElem?_getD, h]

theorem word16_toNat (hi lo : Byte) : (word16 hi lo).toNat = 256 * hi.toNat + lo.toNat := by
  rw [word16, BitVec.toNat_append, ← Nat.shiftLeft_add_eq_or_of_lt lo.isLt, Nat.shiftLeft_eq]
  omega

/-- A bit of a byte, read from its number. -/
theorem getLsbD_iff (x : Byte) (i : Nat) : x.getLsbD i = true ↔ x.toNat / 2 ^ i % 2 = 1 := by
  rw [BitVec.getLsbD, Nat.testBit_eq_decide_div_mod_eq, decide_eq_true_iff]

/-- The most significant bit of a byte. -/
theorem getLsbD_seven_iff (x : Byte) : x.getLsbD 7 = true ↔ x.toNat / 128 = 1 := by
  have := x.isLt
  rw [getLsbD_iff]
  omega

/-- The low bits of a byte as a number. -/
theorem extractLsb'_zero_toNat (x : Byte) (n : Nat) : (x.extractLsb' 0 n).toNat = x.toNat % 2 ^ n := by
  simp

/-- The fields of an entry stand in its eight bytes as R11 places them. -/
theorem Block.entry_fields (b : Block) (pos : Nat) :
    let e := b.entry pos
    let byte := fun k : Nat => (b.bytes.toList.getD (8 * pos + k) 0).toNat
    (e.valid = true ↔ byte 0 / 128 = 1) ∧ (e.blanket = true ↔ byte 0 / 64 % 2 = 1) ∧
    (e.common = true ↔ byte 0 / 32 % 2 = 1) ∧ (e.escort = true ↔ byte 0 / 16 % 2 = 1) ∧
    (e.remote = true ↔ byte 0 / 8 % 2 = 1) ∧
    e.window = (if byte 0 / 4 % 2 = 1 then some ⟨256 * byte 1 + byte 2, 256 * byte 3 + byte 4⟩ else none) ∧
    e.origin = 256 * byte 5 + byte 6 ∧ e.length = byte 7 ∧
    (e.custodian = .landlord ↔ byte 5 / 128 = 1) ∧ e.category = byte 5 % 4 ∧ e.guaranteed = byte 6 % 64 ∧
    e.ceiling = byte 7 % 128 := by
  simp only [Block.entry, ← Block.byte_eq]
  refine ⟨getLsbD_seven_iff _, getLsbD_iff _ 6, getLsbD_iff _ 5, getLsbD_iff _ 4, getLsbD_iff _ 3, ?_,
    word16_toNat _ _, trivial, ?_, extractLsb'_zero_toNat _ 2, extractLsb'_zero_toNat _ 6, extractLsb'_zero_toNat _ 7⟩
  · simp only [word16_toNat]
    exact if_congr (getLsbD_iff _ 2) rfl rfl
  · rw [← getLsbD_seven_iff]
    split <;> simp_all

/-! ### One level (R42 to R45) -/

/-- A read judges LENGTH, TABLE_FREE, FOREIGN_TABLE and TABLE_KIND in that order. -/
theorem readEntry_level (s : State) (owner : Option Authority) (kind : Kind) (origin length index : Nat) :
    let read := readEntry s owner kind origin length index
    (8 * length ≤ index → read = .error .length) ∧
    ∀ b : BlockNo, index < 8 * length → b.val = origin + index / 8 →
      ((s.block b).owner = none → read = .error .tableFree) ∧
      ∀ o k, (s.block b).owner = some (o, k) →
        ((∃ a, owner = some a ∧ a ≠ o) → read = .error .foreignTable) ∧
        ((∀ a, owner = some a → a = o) → k ≠ kind → read = .error .tableKind) ∧
        ((∀ a, owner = some a → a = o) → k = kind → read = .ok ((s.block b).entry (index % 8))) := by
  refine ⟨fun h => if_pos h, fun b hi hb => ?_⟩
  have hat : s.blockAt (origin + index / 8) = s.block b := by rw [← hb, State.blockAt_val]
  simp only [readEntry, Nat.not_le.2 hi, if_false, hat]
  refine ⟨fun ho => by simp [ho], fun o k ho => ?_⟩
  simp only [ho]
  refine ⟨?_, fun hown hk => ?_, fun hown hk => ?_⟩
  · rintro ⟨a, rfl, ha⟩
    simp [ha]
  · have hany : (owner.any fun a => a != o) = false := by simpa [Option.any_eq_false] using hown
    simp [hany, hk]
  · have hany : (owner.any fun a => a != o) = false := by simpa [Option.any_eq_false] using hown
    simp [hany, hk]

/-! ### Entries as judged at use (R12, R13, R47 to R49) -/

/-- The windows that a valid entry adds to a path, a length above 1440 taken as 1440 (R12). -/
def Entry.windows (e : Entry) : List Window := e.window.toList.map fun w => Window.mk w.start (min w.length 1440)

/-- The fault with which a grant entry ends its walk, in the order in which it is judged: valid, window, common in a
space closed to what is common where the entry carries that bit, and the pointer where the entry points on (R47, R48, R49). -/
def Entry.fault (isPrivate : Bool) (e : Entry) (common points : Bool) : Option DenyCode :=
  if e.valid = false then some DenyCode.notGranted
  else if e.window.any fun w => decide (1440 ≤ w.start) then some .entryInvalid
  else if isPrivate ∧ common ∧ e.common then some .privateConflict
  else if points ∧ (e.length = 0 ∨ 4 < e.length) then some .entryInvalid
  else if points ∧ 512 < e.origin + e.length then some .badOrigin
  else none

variable {e : Entry} {c : DenyCode} {isPrivate common : Bool}

theorem Entry.judgeWindow_late (h : e.window.any (fun w => decide (1440 ≤ w.start)) = true) :
    e.judgeWindow = .error .entryInvalid := by
  unfold Entry.judgeWindow
  split <;> rename_i hw
  · simp [hw] at h
  · rw [hw] at h
    exact if_pos (by simpa using h)

theorem Entry.judgeWindow_ok (h : e.window.any (fun w => decide (1440 ≤ w.start)) = false) :
    ∃ w, e.judgeWindow = .ok w ∧ w.toList = e.windows ∧ w = e.window.map fun w => ⟨w.start, min w.length 1440⟩ := by
  unfold Entry.judgeWindow Entry.windows
  split <;> rename_i hw
  · exact ⟨none, rfl, by simp [hw], by simp [hw]⟩
  · rename_i w
    rw [hw] at h
    refine ⟨some ⟨w.start, min w.length 1440⟩, if_neg ?_, by simp [hw], by simp [hw]⟩
    simpa using h

/-- The pointer is judged by its length and by the end of its range. -/
theorem Entry.pointerFault_eq (e : Entry) : e.pointerFault =
    if e.length = 0 ∨ 4 < e.length then some .entryInvalid
    else if 512 < e.origin + e.length then some .badOrigin
    else none := by
  unfold Entry.pointerFault
  split_ifs <;> first
    | rfl
    | omega

theorem Entry.pointerFault_eq_none :
    e.pointerFault = none ↔ ¬ (e.length = 0 ∨ 4 < e.length ∨ 512 < e.origin + e.length) := by
  rw [Entry.pointerFault_eq]
  split_ifs <;> simp <;> omega

/-- An entry that points on is judged as one that does not, and then by its pointer. -/
theorem Entry.fault_points : e.fault isPrivate common true = (e.fault isPrivate common false).or e.pointerFault := by
  rw [Entry.pointerFault_eq]
  simp only [Entry.fault, true_and, Bool.false_eq_true, false_and, if_false]
  split_ifs <;> rfl

/-- Judging an entry ends the walk with its fault. -/
theorem Path.take_fault (p : Path) (h : e.fault isPrivate common false = some c) :
    p.take isPrivate common e = .error c := by
  unfold Path.take
  simp only [Entry.fault, Bool.false_eq_true, false_and, if_false] at h
  split_ifs at h with hv hw hc <;> obtain rfl := Option.some.inj h
  · simp [hv]
  · simp [hv, Entry.judgeWindow_late hw]
  · obtain ⟨w, hw, -, -⟩ := Entry.judgeWindow_ok (Bool.eq_false_iff.2 hw)
    simp [hv, hw, hc]

/-- An entry with no fault adds its escort bit, its window and its common bit to the path. -/
theorem Path.take_ok (p : Path) (h : e.fault isPrivate common false = none) :
    p.take isPrivate common e =
      .ok ⟨p.escort || e.escort, p.windows ++ e.windows, p.common || (common && e.common)⟩ := by
  unfold Path.take
  simp only [Entry.fault, Bool.false_eq_true, false_and, if_false] at h
  split_ifs at h with hv hw hc
  obtain ⟨w, hw, hl, -⟩ := Entry.judgeWindow_ok (Bool.eq_false_iff.2 hw)
  have hc' : (isPrivate && common && e.common) = false := by
    rw [Bool.eq_false_iff]
    simpa [and_assoc] using hc
  simp [hv, hw, hc', hl]

/-! ### The levels of a grant walk (R50, R51, R52) -/

/-- The owner asked of a block behind a path (R44). -/
def Descriptor.asked (d : Descriptor) (path : Bool) : Option Authority := if path then none else some d.authority

/-- The summary of a terminal entry behind a path (R52). -/
def Designator.summary (r : Designator) (e : Entry) (room : Option RoomNo) (escort : Bool) (windows : List Window)
    (common : Bool) : GrantSummary :=
  GrantSummary.mk ⟨r.site, r.zone, room⟩ e.category e.custodian e.guaranteed e.ceiling e.remote escort windows common

section
variable (see : Kind → State) (d : Descriptor) (r : Designator)

/-- What a walk comes to from its zone level on, behind a path: a fault of the read, a fault of the entry, or the summary
of the entry for the one room (R51). -/
def ZoneLevel (walk : Except DenyCode GrantSummary) (origin length : Nat) (escort : Bool) (windows : List Window)
    (path : Bool) : Prop :=
  (∀ c, readEntry (see .zone) (d.asked path) .zone origin length r.room.val = .error c → walk = .error c) ∧
  ∀ e, readEntry (see .zone) (d.asked path) .zone origin length r.room.val = .ok e →
    (∀ c, e.fault d.isPrivate false false = some c → walk = .error c) ∧
    (e.fault d.isPrivate false false = none →
      walk = .ok (r.summary e (some r.room) (escort || e.escort) (windows ++ e.windows) path))

/-- What a walk comes to from its site level on, behind a path: a fault of the read, a fault of the entry, the zone-wide
summary of a Blanket entry, or what the zone level comes to (R50, R51). -/
def SiteLevel (walk : Except DenyCode GrantSummary) (origin length : Nat) (escort : Bool) (windows : List Window)
    (path : Bool) : Prop :=
  (∀ c, readEntry (see .site) (d.asked path) .site origin length r.zone.val = .error c → walk = .error c) ∧
  ∀ e, readEntry (see .site) (d.asked path) .site origin length r.zone.val = .ok e →
    (∀ c, e.fault d.isPrivate true (!e.blanket) = some c → walk = .error c) ∧
    (e.fault d.isPrivate true (!e.blanket) = none →
      (e.blanket = true →
        walk = .ok (r.summary e none (escort || e.escort) (windows ++ e.windows) (path || e.common))) ∧
      (e.blanket = false →
        ZoneLevel see d r walk e.origin e.length (escort || e.escort) (windows ++ e.windows) (path || e.common)))

variable (origin length : Nat) (escort : Bool) (windows : List Window) (path : Bool)

theorem walkZone_level :
    ZoneLevel see d r (walkZone see d r origin length ⟨escort, windows, path⟩) origin length escort windows path := by
  have hown : (Path.mk escort windows path).mustOwn d = d.asked path := rfl
  refine ⟨fun c h => by simp [walkZone, hown, h], fun e h => ⟨fun c hf => ?_, fun hf => ?_⟩⟩
  · simp [walkZone, hown, h, Path.take_fault _ hf]
  · simp [walkZone, hown, h, Path.take_ok _ hf, grantSummary, Designator.summary]

theorem walkSite_level :
    SiteLevel see d r (walkSite see d r origin length ⟨escort, windows, path⟩) origin length escort windows path := by
  have hown : (Path.mk escort windows path).mustOwn d = d.asked path := rfl
  refine ⟨fun c h => by simp [walkSite, hown, h], fun e h => ?_⟩
  cases hb : e.blanket with
  | true =>
    refine ⟨fun c hf => ?_, fun hf => ⟨fun _ => ?_, fun hb => nomatch hb⟩⟩
    · simp [walkSite, hown, h, Path.take_fault _ hf]
    · simp [walkSite, hown, h, Path.take_ok _ hf, hb, grantSummary, Designator.summary]
  | false =>
    rw [Bool.not_false, Entry.fault_points]
    cases hf : e.fault d.isPrivate true false with
    | some c' => simp [walkSite, hown, h, Path.take_fault _ hf]
    | none =>
      cases hp : e.pointerFault with
      | some c' => simp [walkSite, hown, h, Path.take_ok _ hf, hb, hp]
      | none =>
        have hw : walkSite see d r origin length ⟨escort, windows, path⟩ =
            walkZone see d r e.origin e.length ⟨escort || e.escort, windows ++ e.windows, path || e.common⟩ := by
          simp [walkSite, hown, h, Path.take_ok _ hf, hb, hp]
        rw [hw]
        exact ⟨fun _ hc => (nomatch hc), fun _ => ⟨fun hb => (nomatch hb), fun _ => walkZone_level ..⟩⟩

/-- What a walk from an Estate scope comes to: a fault of the read, a fault of the estate entry, or what the site level
comes to (R50). -/
theorem walkEstate_level :
    let walk := walkEstate see d r origin length .start
    (∀ c, readEntry (see .estate) (some d.authority) .estate origin length r.site.val = .error c → walk = .error c) ∧
    ∀ e, readEntry (see .estate) (some d.authority) .estate origin length r.site.val = .ok e →
      (∀ c, e.fault d.isPrivate true true = some c → walk = .error c) ∧
      (e.fault d.isPrivate true true = none →
        SiteLevel see d r walk e.origin e.length e.escort e.windows e.common) := by
  have hown : Path.start.mustOwn d = some d.authority := rfl
  refine ⟨fun c h => by simp [walkEstate, hown, h], fun e h => ?_⟩
  rw [Entry.fault_points]
  cases hf : e.fault d.isPrivate true false with
  | some c' => simp [walkEstate, hown, h, Path.take_fault _ hf]
  | none =>
    have htake : Path.start.take d.isPrivate true e = .ok ⟨e.escort, e.windows, e.common⟩ := Path.take_ok _ hf
    cases hp : e.pointerFault with
    | some c' => simp [walkEstate, hown, h, htake, hp]
    | none =>
      have hw : walkEstate see d r origin length .start =
          walkSite see d r e.origin e.length ⟨e.escort, e.windows, e.common⟩ := by
        simp [walkEstate, hown, h, htake, hp]
      rw [hw]
      exact ⟨fun _ hc => (nomatch hc), fun _ => walkSite_level ..⟩

end

/-- Settles O15: the fields of an entry, the read of one level, and the levels of a grant walk one behind the other, from
the level at which its scope begins. -/
theorem walkJudgesBlockInOrder : Obligations.WalkJudgesBlockInOrder := by
  unfold Obligations.WalkJudgesBlockInOrder
  refine ⟨fun b pos _ => b.entry_fields pos, readEntry_level, fun see d r => ?_⟩
  refine ⟨fun h => by simp [grantWalk, h], fun o ho => ⟨fun hs => ?_, fun st hs => ⟨fun h => ?_, fun h => ?_⟩,
    fun st z hs => ⟨fun h => ?_, fun h1 h2 => ?_⟩⟩⟩
  · have hw : grantWalk see d r = walkEstate see d r o.val d.topLength .start := by simp [grantWalk, ho, hs]
    rw [hw]
    exact walkEstate_level see d r o.val d.topLength
  · simp [grantWalk, ho, hs, h]
  · have hw : grantWalk see d r = walkSite see d r o.val d.topLength .start := by simp [grantWalk, ho, hs, h]
    rw [hw]
    exact walkSite_level see d r o.val d.topLength false [] false
  · simp [grantWalk, ho, hs, not_and_or.2 h]
  · have hw : grantWalk see d r = walkZone see d r o.val d.topLength .start := by simp [grantWalk, ho, hs, h1, h2]
    rw [hw]
    exact walkZone_level see d r o.val d.topLength false [] false

/-! ### The overlay walk (R54 to R58) -/

/-- An overlay entry faults where it is valid and its window is out of range, or where it points on and its pointer is out
of range (R12, R13, R58). -/
def Entry.overlayFaults (e : Entry) (points : Bool) : Prop :=
  e.valid = true ∧ ((∃ w, e.window = some w ∧ 1440 ≤ w.start) ∨
    (points = true ∧ (e.length = 0 ∨ 4 < e.length ∨ 512 < e.origin + e.length)))

/-- The item that an overlay entry contributes, if any (R55). -/
def Entry.overlayItem (e : Entry) : List OverlayItem :=
  if e.valid ∧ (e.common ∨ e.escort) then
    [OverlayItem.mk e.common e.escort (e.window.map fun w => ⟨w.start, min w.length 1440⟩)] else []

theorem Entry.windowLate_iff :
    (e.window.any fun w => decide (1440 ≤ w.start)) = true ↔ ∃ w, e.window = some w ∧ 1440 ≤ w.start := by
  simp [Option.any_eq_true]

/-- Taking an entry faults where its window is out of range. -/
theorem overlayTake_fault (items : List OverlayItem) (h : ∃ w, e.window = some w ∧ 1440 ≤ w.start) :
    overlayTake items e = .error .entryInvalid := by
  simp [overlayTake, Entry.judgeWindow_late (Entry.windowLate_iff.2 h)]

/-- Taking a valid entry adds its item. -/
theorem overlayTake_ok (items : List OverlayItem) (hv : e.valid = true)
    (h : ¬ ∃ w, e.window = some w ∧ 1440 ≤ w.start) : overlayTake items e = .ok (items ++ e.overlayItem) := by
  rw [← Entry.windowLate_iff] at h
  obtain ⟨w, hw, -, rfl⟩ := Entry.judgeWindow_ok (Bool.eq_false_iff.2 h)
  by_cases hc : e.common = true ∨ e.escort = true
  · simp [overlayTake, hw, Entry.overlayItem, hv, hc]
  · simp [overlayTake, hw, Entry.overlayItem, hv, hc]

section
variable (see : Kind → State) (r : Designator) (origin length : Nat) (items : List OverlayItem)

/-- The zone level of an overlay walk speaks for the one room (R57). -/
theorem overlayZone_level :
    let walk := overlayZone see r origin length items
    (∀ c, readEntry (see .zone) none .zone origin length r.room.val = .error c → ∃ c', walk = .error c') ∧
    ∀ z, readEntry (see .zone) none .zone origin length r.room.val = .ok z →
      (z.overlayFaults false → ∃ c, walk = .error c) ∧
      (¬ z.overlayFaults false → walk = .ok ⟨⟨r.site, r.zone, some r.room⟩, items ++ z.overlayItem⟩) := by
  refine ⟨fun c h => ⟨c, by simp [overlayZone, h]⟩, fun z h => ⟨?_, fun hf => ?_⟩⟩
  · rintro ⟨hv, hw | hp⟩
    · exact ⟨_, by simp [overlayZone, h, hv, overlayTake_fault _ hw]; rfl⟩
    · exact nomatch hp.1
  · cases hv : z.valid with
    | false => simp [overlayZone, h, hv, Entry.overlayItem]
    | true =>
      have hw : ¬ ∃ w, z.window = some w ∧ 1440 ≤ w.start := fun hw => hf ⟨hv, .inl hw⟩
      simp [overlayZone, h, hv, overlayTake_ok _ hv hw]

/-- The site level of an overlay walk ends it, zone-wide, at an entry that is not valid or Blanket, and else leads to the
zone level (R55, R56). -/
theorem overlaySite_level :
    let walk := overlaySite see r origin length items
    (∀ c, readEntry (see .site) none .site origin length r.zone.val = .error c → ∃ c', walk = .error c') ∧
    ∀ f, readEntry (see .site) none .site origin length r.zone.val = .ok f →
      (f.overlayFaults (!f.blanket) → ∃ c, walk = .error c) ∧
      (¬ f.overlayFaults (!f.blanket) →
        ((f.valid = false ∨ f.blanket = true) → walk = .ok ⟨⟨r.site, r.zone, none⟩, items ++ f.overlayItem⟩) ∧
        (f.valid = true → f.blanket = false →
          walk = overlayZone see r f.origin f.length (items ++ f.overlayItem))) := by
  refine ⟨fun c h => ⟨c, by simp [overlaySite, h]⟩, fun f h => ⟨?_, fun hf => ?_⟩⟩
  · rintro ⟨hv, hbad⟩
    by_cases hw : ∃ w, f.window = some w ∧ 1440 ≤ w.start
    · exact ⟨.entryInvalid, by simp [overlaySite, h, hv, overlayTake_fault _ hw]⟩
    · obtain ⟨hb, hp⟩ := hbad.resolve_left hw
      rw [Bool.not_eq_true'] at hb
      obtain ⟨c, hc⟩ := Option.ne_none_iff_exists'.1 (mt Entry.pointerFault_eq_none.1 (not_not.2 hp))
      exact ⟨c, by simp [overlaySite, h, hv, overlayTake_ok _ hv hw, hb, hc]⟩
  · cases hv : f.valid with
    | false => simp [overlaySite, h, hv, Entry.overlayItem]
    | true =>
      have hw : ¬ ∃ w, f.window = some w ∧ 1440 ≤ w.start := fun hw => hf ⟨hv, .inl hw⟩
      cases hb : f.blanket with
      | true => simp [overlaySite, h, hv, overlayTake_ok _ hv hw, hb]
      | false =>
        have hp : f.pointerFault = none := Entry.pointerFault_eq_none.2 fun hp => hf ⟨hv, .inr ⟨by simp [hb], hp⟩⟩
        simp [overlaySite, h, hv, overlayTake_ok _ hv hw, hb, hp]

/-- The estate level of an overlay walk ends it, zone-wide and with no item, at an entry that is not valid, and else leads
to the site level (R54, R55). -/
theorem overlayEstate_level :
    let walk := overlayEstate see r origin length
    (∀ c, readEntry (see .estate) none .estate origin length r.site.val = .error c → ∃ c', walk = .error c') ∧
    ∀ e, readEntry (see .estate) none .estate origin length r.site.val = .ok e →
      (e.overlayFaults true → ∃ c, walk = .error c) ∧
      (¬ e.overlayFaults true →
        (e.valid = false → walk = .ok ⟨⟨r.site, r.zone, none⟩, []⟩) ∧
        (e.valid = true → walk = overlaySite see r e.origin e.length e.overlayItem)) := by
  refine ⟨fun c h => ⟨c, by simp [overlayEstate, h]⟩, fun e h => ⟨?_, fun hf => ⟨fun hv => ?_, fun hv => ?_⟩⟩⟩
  · rintro ⟨hv, hbad⟩
    by_cases hw : ∃ w, e.window = some w ∧ 1440 ≤ w.start
    · exact ⟨.entryInvalid, by simp [overlayEstate, h, hv, overlayTake_fault _ hw]⟩
    · obtain ⟨-, hp⟩ := hbad.resolve_left hw
      obtain ⟨c, hc⟩ := Option.ne_none_iff_exists'.1 (mt Entry.pointerFault_eq_none.1 (not_not.2 hp))
      exact ⟨c, by simp [overlayEstate, h, hv, overlayTake_ok _ hv hw, hc]⟩
  · simp [overlayEstate, h, hv]
  · have hw : ¬ ∃ w, e.window = some w ∧ 1440 ≤ w.start := fun hw => hf ⟨hv, .inl hw⟩
    have hp : e.pointerFault = none := Entry.pointerFault_eq_none.2 fun hp => hf ⟨hv, .inr ⟨rfl, hp⟩⟩
    simp [overlayEstate, h, hv, overlayTake_ok _ hv hw, hp]

end

/-- Settles O16: any fault of the levels is OVERLAY_FAULT, and what the levels answer is the answer of the walk. -/
theorem overlayWalkGathersItems : Obligations.OverlayWalkGathersItems := by
  unfold Obligations.OverlayWalkGathersItems
  intro see d r
  refine ⟨fun h => by simp [overlayWalk, h], fun o ho => ?_⟩
  have hfault : (∃ c, overlayEstate see r o.val d.topLength = .error c) → overlayWalk see d r = .error .overlayFault := by
    rintro ⟨c, hc⟩
    simp [overlayWalk, ho, hc]
  have hanswer : ∀ x, overlayEstate see r o.val d.topLength = .ok x → overlayWalk see d r = .ok x := fun x hx => by
    simp [overlayWalk, ho, hx]
  obtain ⟨hread, hentry⟩ := overlayEstate_level see r o.val d.topLength
  refine ⟨fun c hc => hfault (hread c hc), fun e he => ?_⟩
  obtain ⟨hbad, hgood⟩ := hentry e he
  refine ⟨fun h => hfault (hbad h), fun h => ⟨fun hv => hanswer _ ((hgood h).1 hv), fun hv => ?_⟩⟩
  rw [(hgood h).2 hv] at hfault hanswer
  obtain ⟨hread, hentry⟩ := overlaySite_level see r e.origin e.length e.overlayItem
  refine ⟨fun c hc => hfault (hread c hc), fun f hf => ?_⟩
  obtain ⟨hbad, hgood⟩ := hentry f hf
  refine ⟨fun h => hfault (hbad h), fun h => ⟨fun hend => hanswer _ ((hgood h).1 hend), fun hv hb => ?_⟩⟩
  rw [(hgood h).2 hv hb] at hfault hanswer
  obtain ⟨hread, hentry⟩ := overlayZone_level see r f.origin f.length (e.overlayItem ++ f.overlayItem)
  refine ⟨fun c hc => hfault (hread c hc), fun z hz => ?_⟩
  obtain ⟨hbad, hgood⟩ := hentry z hz
  exact ⟨fun h => hfault (hbad h), fun h => hanswer _ (hgood h)⟩

end Sys2Proof.Machine

/-! SUPPORT. Resolution requests and the cache (R38, R64 to R68, R72, R73): a row that meets a request, the two forms of
request as one, and where a lookup finds its entry. -/

namespace Sys2Proof.Machine

variable {s b u : State} {x : Decision} {n : SpaceNo} {r : Designator} {d : Descriptor} {i : Instr}
  {own : List Party}

/-! ### A row that may meet a request -/

theorem State.anyRecord_eq_false (s : State) : s.occupancy.toList.any Option.isSome = false ↔ ∀ j, s.record j = none := by
  rw [Vector.any_toList, Vector.any_eq_false]
  simp only [Option.not_isSome_iff_eq_none]
  exact ⟨fun h j => h j.val j.isLt, fun h j hj => h ⟨j, hj⟩⟩

theorem space?_eq_some {a : Byte} : space? a = some n ↔ a.toNat = n.val := by
  simp only [space?, Option.dite_none_right_eq_some, Option.some.injEq, Fin.ext_iff]
  exact ⟨fun ⟨_, h⟩ => h, fun h => ⟨h ▸ n.isLt, h⟩⟩

theorem site?_eq_some {a : Byte} {k : SiteNo} : site? a = some k ↔ a.toNat = k.val := by
  simp only [site?, Option.dite_none_right_eq_some, Option.some.injEq, Fin.ext_iff]
  exact ⟨fun ⟨_, h⟩ => h, fun h => ⟨h ▸ k.isLt, h⟩⟩

/-- Security may send every form of PURGE, and the owner of a space that of the space (R70). -/
theorem State.mayPurge_iff {p : Authority} {f : PurgeForm} :
    s.mayPurge p f = true ↔ p = .sec ∨ ∃ m, f = .space m ∧ (s.space m).owner = some p := by
  cases p <;> cases f <;> simp [State.mayPurge]

/-- The forms of PURGE that are accepted and cover a request (R70, R72). -/
theorem exists_purgeForm_covers {p : Authority} {a : PurgeArgs} (hd : (s.space n).current = some d) :
    (∃ f, purgeForm? a = some f ∧ s.mayPurge p f = true ∧ f.coversRequest n r = true) ↔
      (a.form = 0 ∧ p = .sec) ∨ (a.form = 1 ∧ a.argument.toNat = n.val ∧ (p = .sec ∨ d.authority = p)) ∨
        (a.form = 2 ∧ a.argument.toNat = r.site.val ∧ p = .sec) := by
  have howner : (s.space n).owner = some d.authority := by simp [SpaceRecord.owner, hd]
  unfold purgeForm?
  split_ifs with h0 h1 h2
  · simp [h0, State.mayPurge_iff, PurgeForm.coversRequest]
  · simp [h1, State.mayPurge_iff, PurgeForm.coversRequest, space?_eq_some, howner]
  · simp [h2, State.mayPurge_iff, PurgeForm.coversRequest, site?_eq_some]
  · simp only [h0, h1, h2, false_and, or_false, exists_false]


section

variable (hm : x.mayMeet b i u)
include hm

theorem Decision.mayMeet.rowEffect : Machine.rowEffect i b = some u := by
  obtain ⟨he, hpower, hframe, -, -, -⟩ := hm
  split at he
  · exact he
  · rename_i hr
    cases i with
    | powerOn => exact absurd rfl hpower
    | commandFrameReceived p bytes => exact absurd rfl (hframe p bytes)
    | presentEnter | activate | selectionDeadline | setClock | secondTick | frameFinished => exact absurd rfl hr
    | _ => exact stateAfter_eq.2 he

theorem Decision.mayMeet.leavesFree : x.leavesFree b i = true := by
  obtain ⟨-, -, -, -, hport, hline⟩ := hm
  rw [Decision.leavesFree, Bool.and_eq_true, Option.all_eq_true, Option.all_eq_true]
  refine ⟨fun c hc => ?_, fun p hp => decide_eq_true (hline p hp)⟩
  obtain ⟨hb, hr, hx⟩ := hport _ _ _ hc
  simp [State.portFree, hb, hr, hx]

/-- A row that is not FRAME_FINISHED has a port take no command but itself. -/
theorem Decision.mayMeet.commandTaken : b.commandTaken i = some i := by
  obtain ⟨-, -, -, hfinish, -, -⟩ := hm
  cases i with
  | frameFinished p ready => exact absurd rfl (hfinish p ready)
  | _ => rfl

/-- What is still to meet requests is left as it is. -/
theorem Decision.mayMeet.meetings : u.meetings = b.meetings :=
  TableLaw.Holds.rowEffect (L := .met b.meetings) (s := b) rfl hm.rowEffect

theorem Decision.mayMeet.clearedBy_iff : b.clearedBy i = true ↔ b.clears i := by
  unfold State.clearedBy
  rw [hm.commandTaken]
  cases i with
  | estateClear p a =>
    cases a with
    | fields a =>
      simp only [Bool.and_eq_true, decide_eq_true_iff, Bool.not_eq_true', State.anyRecord_eq_false]
      constructor
      · rintro ⟨rfl, h⟩
        exact ⟨⟨a, rfl⟩, h⟩
      · rintro ⟨⟨_, h'⟩, h⟩
        cases h'
        exact ⟨rfl, h⟩
    | malformed bytes => simp [State.clears]
  | _ => simp [State.clears]

/-- An ESTATE CLEAR leaves no entry in the cache (R173). -/
theorem Decision.mayMeet.cache_of_clears (hc : b.clears i) : u.cache = [] := by
  obtain ⟨⟨a, rfl⟩, hrooms⟩ := hc
  obtain ⟨hb, hr, -⟩ := hm.2.2.2.2.1 _ _ _ rfl
  have he : exec (.estateClear .sec (.fields a)) b = .next (carryOut .sec 31 (estateClear .sec a) b) :=
    runCommand_fields ⟨.inl hb, hr⟩
  obtain rfl := Host.Outcome.next.inj (he.symm.trans hm.1)
  have hnone : (b.reserveReply .sec).occupancy.toList.any Option.isSome = false := b.anyRecord_eq_false.2 hrooms
  simp [carryOut, estateClear, hnone, State.makeReply, State.cleared]

/-- The PURGE of a row that is accepted and covers the request (R70, R72). -/
theorem Decision.mayMeet.purgedBy_iff (hd : (b.space n).current = some d) :
    b.purgedBy n r i = true ↔ purgeCovers n r d i := by
  unfold State.purgedBy
  rw [hm.commandTaken]
  cases i with
  | purge p a =>
    cases a with
    | fields a =>
      simp only [Option.any_eq_true, Bool.and_eq_true, exists_purgeForm_covers hd]
      constructor
      · exact fun h => ⟨p, a, rfl, h⟩
      · rintro ⟨p', a', h', h⟩
        cases h'
        exact h
    | malformed bytes => simp [purgeCovers]
  | _ => simp [purgeCovers]

variable (hw : b.waiting = [])
include hw

/-- Taken, an ESTATE CLEAR discards the request (R38, R73). -/
theorem Decision.mayMeet.take_of_clears (hc : b.clears i) :
    Progress.take [⟨x, r⟩] n r ⟨b, false, false⟩ i = ⟨u, b.purgedBy n r i, true⟩ := by
  simp [Progress.take, State.parties, hw, hm.leavesFree, hm.rowEffect, hm.clearedBy_iff.2 hc]

/-- A row that leaves the decision as it is, is taken (R134). -/
theorem Decision.mayMeet.take_of_leftBy (hc : ¬ b.clears i) (hl : x.leftBy r i b u) :
    Progress.take [⟨x, r⟩] n r ⟨b, false, false⟩ i = ⟨u, b.purgedBy n r i, false⟩ := by
  obtain ⟨hk, hs, ha⟩ := hl
  have hbegun : u.parties.all (fun z => x.apart z.decision) = true := List.all_eq_true.2 ha
  have hparties : b.parties = [] := by simp [State.parties, hw]
  have hclear : b.clearedBy i = false := Bool.eq_false_iff.2 (mt hm.clearedBy_iff.1 hc)
  simp [Progress.take, hparties, hw, hm.leavesFree, hm.rowEffect, hclear, hk, hs, hbegun]

/-- A row that does not is taken before the decision or after it (R77, R134). -/
theorem Decision.mayMeet.take_of_not_leftBy (hc : ¬ b.clears i) (hl : ¬ x.leftBy r i b u) :
    Progress.take [⟨x, r⟩] n r ⟨b, false, false⟩ i = ⟨b, false, false⟩ := by
  rcases Progress.take_cases [⟨x, r⟩] n r ⟨b, false, false⟩ i with h | ⟨t, ht, -, -, ⟨hclear, -⟩ | ⟨-, hk, -⟩⟩
  · exact h
  · exact absurd (hm.clearedBy_iff.1 hclear) hc
  · obtain rfl : t = u := Option.some.inj (ht.symm.trans hm.rowEffect)
    obtain ⟨hkeeps, hspared, hapart⟩ := hk ⟨x, r⟩ (by simp)
    simp only [hw, List.length_nil, List.drop_zero] at hapart
    exact absurd ⟨hkeeps, hspared, hapart⟩ hl

end

end Sys2Proof.Machine

/-! SUPPORT. The two forms of resolution request as one (R38, R46, R64 to R68, R72, R73): served alone, after a row that
is taken before the lookup, and around one that is taken after it. -/

namespace Sys2Proof.Machine

variable {α : Type} {s b u : State} {x : Decision} {n : SpaceNo} {r : Designator} {d : Descriptor} {i : Instr}
  {own : List Party} {y : Progress} {k : Option Kind}

/-! ### One row at a point of a request -/

@[simp] theorem State.beginRequest_first (s : State) (own : List Party) (n : SpaceNo) (r : Designator) (i : Instr) :
    s.beginRequest own n r (.first i) = { Progress.take own n r ⟨s, false, false⟩ i with purged := false } := rfl

@[simp] theorem State.beginRequest_only (s : State) (own : List Party) (n : SpaceNo) (r : Designator) (i : Instr)
    (k : Option Kind) : s.beginRequest own n r (.only i k) = ⟨s, false, false⟩ := by
  rcases k with _ | _ | _ | _ <;> rfl

@[simp] theorem Progress.meet_first (y : Progress) (own : List Party) (n : SpaceNo) (r : Designator) (i : Instr) :
    y.meet own n r (.first i) = (fun _ => y.state, y) :=
  y.meet_none own n r

@[simp] theorem Progress.meet_only (y : Progress) (own : List Party) (n : SpaceNo) (r : Designator) (i : Instr)
    (k : Option Kind) :
    y.meet own n r (.only i k) = (seenAround y.state (y.take own n r i).state k, y.take own n r i) := by
  refine Prod.ext (funext fun l => ?_) ?_
  · rcases k with _ | _ | _ | _ <;> cases l <;> rfl
  · rcases k with _ | _ | _ | _ <;> rfl

/-- Where a row changes nothing the walk's reads find the device as it was. -/
@[simp] theorem seenAround_self (s : State) (k : Option Kind) : seenAround s s k = fun _ => s := by
  funext l
  rcases k with _ | _ | _ | _ <;> cases l <;> rfl

/-! ### Discarded requests -/

/-- A request that an ESTATE CLEAR has met makes no fill. -/
theorem Progress.fill_of_cleared (e : CacheEntry) (hy : y.cleared = true) : y.fill e = y := by
  simp [Progress.fill, hy]

theorem Progress.handOver_of_cleared (o : Except DenyCode α) (hy : y.cleared = true) :
    y.handOver o = (y.state, .discarded) := by
  simp [Progress.handOver, hy]

theorem cachePick_nil (g : BitVec 8) (isPrivate : Bool) : cachePick n g isPrivate r [] = none := by
  simp [cachePick]

/-! ### A form of request -/

/-- A form of request: its walk, the summary that it fills, how it reads a summary of the cache, and its answer in a
space with no descriptor. -/
structure RequestForm (α : Type) where
  walk : (Kind → State) → Descriptor → Designator → Except DenyCode α
  summary : α → Summary
  read : Summary → Except DenyCode α
  unheld : Designator → Except DenyCode α

/-- What is filled is read again, and the walk reads no line and nothing of what meets requests. -/
structure RequestForm.Sound (F : RequestForm α) : Prop where
  read_summary (a : α) : F.read (F.summary a) = .ok a
  walk_line (s : State) (m : List Meetings) (w : List Waiting) (d : Descriptor) (r : Designator) :
    F.walk (fun _ => { s with meetings := m, waiting := w }) d r = F.walk (fun _ => s) d r

/-- Grant requests (R47 to R52). -/
def RequestForm.grant : RequestForm GrantSummary where
  walk := grantWalk
  summary := .grant
  read e := match e with | .grant g => .ok g | .overlay _ => .error .notGranted
  unheld _ := .error .notGranted

/-- Overlay requests, in space 0 (R54 to R58). -/
def RequestForm.overlay : RequestForm OverlaySummary where
  walk := overlayWalk
  summary := .overlay
  read e := match e with | .overlay o => .ok o | .grant _ => .error .overlayFault
  unheld r := .ok ⟨⟨r.site, r.zone, none⟩, []⟩

theorem RequestForm.grant_walk : RequestForm.grant.walk = grantWalk := rfl

theorem RequestForm.overlay_walk : RequestForm.overlay.walk = overlayWalk := rfl

theorem RequestForm.grant_sound : RequestForm.grant.Sound where
  read_summary _ := rfl
  walk_line _ _ _ _ _ := rfl

theorem RequestForm.overlay_sound : RequestForm.overlay.Sound where
  read_summary _ := rfl
  walk_line _ _ _ _ _ := rfl

/-- The end of a request that walked: a summary is filled and answered, a fault is answered. -/
def RequestForm.finish (F : RequestForm α) (n : SpaceNo) (generation : BitVec 8) (y : Progress) :
    Except DenyCode α → State × Resolution α
  | .error c => y.handOver (.error c)
  | .ok a => (y.fill ⟨n, generation, F.summary a⟩).handOver (.ok a)

theorem RequestForm.finish_cleared {F : RequestForm α} {g : BitVec 8} {result : Except DenyCode α}
    (hy : y.cleared = true) : F.finish n g y result = (y.state, .discarded) := by
  cases result <;> simp only [RequestForm.finish, Progress.fill_of_cleared _ hy, Progress.handOver_of_cleared _ hy]

/-- A request from its lookup on. -/
def RequestForm.serve (F : RequestForm α) (own : List Party) (n : SpaceNo) (r : Designator) (met : Meetings)
    (y : Progress) : State × Resolution α :=
  match (y.state.space n).current with
  | none => (y.meet own n r met).2.handOver (F.unheld r)
  | some d =>
    match cachePick n (y.state.space n).generation d.isPrivate r y.state.cache with
    | some e => ((y.touch e).meet own n r met).2.handOver (F.read e.summary)
    | none =>
      F.finish n (y.state.space n).generation (y.meet own n r met).2 (F.walk (y.meet own n r met).1 d r)

/-- A decision's request of the form, with nothing waiting ahead of it. -/
def RequestForm.Resolves (F : RequestForm α) (x : Decision) (n : SpaceNo) (r : Designator)
    (resolve : State → State × Resolution α) : Prop :=
  ∀ s, s.waiting = [] →
    resolve s = F.serve [⟨x, r⟩] n r s.meeting (s.served.beginRequest [⟨x, r⟩] n r s.meeting)

theorem State.serveAhead_of_idle (hw : s.waiting = []) : s.serveAhead own s.waiting.length = (s, false) := by
  rw [hw]
  rfl

theorem serveGrant_eq (met : Meetings) :
    serveGrant own n r met s = RequestForm.grant.serve own n r met (s.beginRequest own n r met) := by
  unfold serveGrant RequestForm.serve
  dsimp only
  generalize s.beginRequest own n r met = y
  cases (y.state.space n).current with
  | none => rfl
  | some d =>
    dsimp only
    cases cachePick n (y.state.space n).generation d.isPrivate r y.state.cache with
    | some e => rfl
    | none =>
      rw [RequestForm.grant_walk]
      cases grantWalk (y.meet own n r met).1 d r <;> rfl

theorem serveOverlay_eq (met : Meetings) :
    serveOverlay own r met s = RequestForm.overlay.serve own 0 r met (s.beginRequest own 0 r met) := by
  unfold serveOverlay RequestForm.serve
  dsimp only
  generalize s.beginRequest own 0 r met = y
  cases (y.state.space 0).current with
  | none => rfl
  | some d =>
    dsimp only
    cases cachePick 0 (y.state.space 0).generation d.isPrivate r y.state.cache with
    | some e => rfl
    | none =>
      rw [RequestForm.overlay_walk]
      cases overlayWalk (y.meet own 0 r met).1 d r <;> rfl

theorem RequestForm.grant_resolves (x : Decision) (n : SpaceNo) (r : Designator) :
    RequestForm.grant.Resolves x n r (resolveGrant x n r) := by
  intro s hw
  simp only [resolveGrant, State.serveAhead_of_idle hw, serveGrant_eq]

theorem RequestForm.overlay_resolves (x : Decision) (r : Designator) :
    RequestForm.overlay.Resolves x 0 r (resolveOverlay x r) := by
  intro s hw
  simp only [resolveOverlay, State.serveAhead_of_idle hw, serveOverlay_eq]

/-! ### From the lookup on -/

section

variable {F : RequestForm α} {met : Meetings} {e : CacheEntry}

theorem RequestForm.serve_first : F.serve own n r (.first i) y = F.serve own n r .none y := by
  simp only [RequestForm.serve, Progress.meet_first, Progress.meet_none]

theorem RequestForm.serve_unheld (hd : (y.state.space n).current = none) :
    F.serve own n r met y = (y.meet own n r met).2.handOver (F.unheld r) := by
  simp only [RequestForm.serve, hd]

variable (hd : (y.state.space n).current = some d)
include hd

theorem RequestForm.serve_hit (he : cachePick n (y.state.space n).generation d.isPrivate r y.state.cache = some e) :
    F.serve own n r met y = ((y.touch e).meet own n r met).2.handOver (F.read e.summary) := by
  simp only [RequestForm.serve, hd, he]

theorem RequestForm.serve_miss (hmiss : cachePick n (y.state.space n).generation d.isPrivate r y.state.cache = none) :
    F.serve own n r met y =
      F.finish n (y.state.space n).generation (y.meet own n r met).2 (F.walk (y.meet own n r met).1 d r) := by
  simp only [RequestForm.serve, hd, hmiss]

end

/-- A request discarded before its lookup, with the cache cleared, changes nothing more. -/
theorem RequestForm.serve_cleared {F : RequestForm α} (hy : y.cleared = true) (hcache : y.state.cache = []) :
    F.serve own n r .none y = (y.state, .discarded) := by
  unfold RequestForm.serve
  rw [hcache]
  simp only [Progress.meet_none, cachePick_nil]
  split
  · exact Progress.handOver_of_cleared _ hy
  · exact RequestForm.finish_cleared hy

/-- While nothing more meets the request it neither reads the line nor what is to meet other requests. -/
theorem RequestForm.Sound.serve_line {F : RequestForm α} (hF : F.Sound) (s : State) (m : List Meetings)
    (w : List Waiting) :
    F.serve own n r .none ⟨{ s with meetings := m, waiting := w }, false, false⟩ =
      ({ (F.serve own n r .none ⟨s, false, false⟩).1 with meetings := m, waiting := w },
        (F.serve own n r .none ⟨s, false, false⟩).2) := by
  have hline := fun d => hF.walk_line s m w d r
  generalize hv : { s with meetings := m, waiting := w } = v at hline
  have hspace : v.space n = s.space n := hv ▸ rfl
  have hcache : v.cache = s.cache := hv ▸ rfl
  cases hd : (s.space n).current with
  | none =>
    rw [serve_unheld (y := ⟨v, _, _⟩) (hspace ▸ hd), serve_unheld (y := ⟨s, _, _⟩) hd]
    simp only [Progress.meet_none]
    subst hv
    cases F.unheld r <;> rfl
  | some d =>
    cases he : cachePick n (s.space n).generation d.isPrivate r s.cache with
    | some e =>
      rw [serve_hit (y := ⟨v, _, _⟩) (hspace ▸ hd) (hspace ▸ hcache ▸ he), serve_hit (y := ⟨s, _, _⟩) hd he]
      simp only [Progress.meet_none]
      subst hv
      cases F.read e.summary <;> rfl
    | none =>
      rw [serve_miss (y := ⟨v, _, _⟩) (hspace ▸ hd) (hspace ▸ hcache ▸ he), serve_miss (y := ⟨s, _, _⟩) hd he]
      simp only [Progress.meet_none, hline, hspace]
      subst hv
      cases F.walk (fun _ => s) d r <;> rfl

/-! ### A decision's request -/

section

variable {F : RequestForm α} {resolve : State → State × Resolution α} (hF : F.Sound) (hR : F.Resolves x n r resolve)
  (hw : s.waiting = [])

include hR hw

theorem RequestForm.Resolves.met {m : Meetings} {rest : List Meetings} (hm : s.meetings = m :: rest) :
    resolve s = F.serve [⟨x, r⟩] n r m ({ s with meetings := rest }.beginRequest [⟨x, r⟩] n r m) := by
  simpa [State.meeting, State.served, hm] using hR s hw

theorem RequestForm.Resolves.unmet (hm : s.meetings = []) :
    resolve s = F.serve [⟨x, r⟩] n r .none ⟨s, false, false⟩ := by
  have hs : s.served = s := by
    cases s
    cases hm
    rfl
  simpa [State.meeting, hs, hm] using hR s hw

include hF

/-- A request that nothing meets (R64, R66, R67, R68). -/
theorem RequestForm.Resolves.servesAlone (hd : (s.space n).current = some d) (hm : s.meetings = []) :
    s.servesAlone resolve (fun see => F.walk see d r) F.summary n r d := by
  refine ⟨fun e a blocks he ha => ?_, fun a hlen hmiss hwalk => ?_, fun c hmiss hwalk => ?_⟩
  · rw [hR.unmet (s := { s with blocks := blocks }) hw hm, RequestForm.serve_hit hd he, ha, hF.read_summary,
      Progress.meet_none]
    rfl
  · refine ⟨{ s with cache := cacheFill ⟨n, (s.space n).generation, F.summary a⟩ s.cache }, ?_, ?_, ?_, rfl,
      fun h => List.take_of_length_le h, fun h => ?_⟩
    · rw [hR.unmet hw hm, RequestForm.serve_miss hd hmiss, Progress.meet_none]
      exact congrArg (F.finish n (s.space n).generation ⟨s, false, false⟩) hwalk
    · exact (State.changesOnly_refl _ s).cache_update (by simp)
    · simp [cacheFill]
    · simp [cacheFill, List.dropLast_eq_take, h]
  · rw [hR.unmet hw hm, RequestForm.serve_miss hd hmiss, Progress.meet_none]
    exact congrArg (F.finish n (s.space n).generation ⟨s, false, false⟩) hwalk

/-- A request with a row taken before its lookup (R26, R38, R72). -/
theorem RequestForm.Resolves.servesAfter : s.servesAfter x resolve r := by
  intro i rest u hmeet b hm
  have hwb : b.waiting = [] := hw
  have hserve : resolve s = F.serve [⟨x, r⟩] n r .none (b.beginRequest [⟨x, r⟩] n r (.first i)) :=
    (hR.met hw hmeet).trans RequestForm.serve_first
  rw [State.beginRequest_first] at hserve
  refine ⟨fun hc => ?_, fun hc hl => ?_, fun hc hl => ?_⟩
  · rw [hserve, hm.take_of_clears hwb hc]
    exact RequestForm.serve_cleared rfl (hm.cache_of_clears hc)
  · have hu : u = { ({ u with meetings := [], waiting := [] } : State) with meetings := rest, waiting := u.waiting } := by
      have hrest : u.meetings = rest := hm.meetings
      rw [← hrest]
    rw [hserve, hm.take_of_leftBy hwb hc hl, hR.unmet (s := { u with meetings := [], waiting := [] }) rfl rfl]
    exact (congrArg (fun v => F.serve [⟨x, r⟩] n r .none ⟨v, false, false⟩) hu).trans (hF.serve_line _ _ _)
  · rw [hserve, hm.take_of_not_leftBy hwb hc hl, hR.met (s := { s with meetings := Meetings.none :: rest }) hw rfl]
    rfl

omit hF in
/-- A request that hits, with a row taken after its lookup: the answer is that of the cache. -/
theorem RequestForm.Resolves.met_hit {e : CacheEntry} {rest : List Meetings} (hd : (s.space n).current = some d)
    (he : cachePick n (s.space n).generation d.isPrivate r s.cache = some e)
    (hmeet : s.meetings = Meetings.only i k :: rest) :
    resolve s = (Progress.take [⟨x, r⟩] n r
      ⟨{ s with meetings := rest, cache := e :: s.cache.erase e }, false, false⟩ i).handOver (F.read e.summary) := by
  rw [hR.met hw hmeet, State.beginRequest_only, RequestForm.serve_hit hd he, Progress.meet_only]
  rfl

omit hF in
/-- A request that misses, with a row taken after its lookup: the walk reads the device around the row. -/
theorem RequestForm.Resolves.met_miss {rest : List Meetings} (hd : (s.space n).current = some d)
    (hmiss : cachePick n (s.space n).generation d.isPrivate r s.cache = none)
    (hmeet : s.meetings = Meetings.only i k :: rest)
    (hy : Progress.take [⟨x, r⟩] n r ⟨{ s with meetings := rest }, false, false⟩ i = y) :
    resolve s =
      F.finish n (s.space n).generation y (F.walk (seenAround { s with meetings := rest } y.state k) d r) := by
  subst hy
  rw [hR.met hw hmeet, State.beginRequest_only, RequestForm.serve_miss hd hmiss, Progress.meet_only]
  rfl

omit hF in
/-- A request that misses and that nothing meets, with requests behind it still to be met. -/
theorem RequestForm.Resolves.alone_miss {rest : List Meetings} (hd : (s.space n).current = some d)
    (hmiss : cachePick n (s.space n).generation d.isPrivate r s.cache = none) :
    resolve { s with meetings := Meetings.none :: rest } =
      F.finish n (s.space n).generation ⟨{ s with meetings := rest }, false, false⟩
        (F.walk (fun _ => { s with meetings := rest }) d r) := by
  rw [hR.met (s := { s with meetings := Meetings.none :: rest }) hw rfl, State.beginRequest_none,
    RequestForm.serve_miss hd hmiss, Progress.meet_none]
  rfl

omit hF in
theorem RequestForm.Resolves.alone_hit {e : CacheEntry} {rest : List Meetings} (hd : (s.space n).current = some d)
    (he : cachePick n (s.space n).generation d.isPrivate r s.cache = some e) :
    resolve { s with meetings := Meetings.none :: rest } =
      Progress.handOver ⟨{ s with meetings := rest, cache := e :: s.cache.erase e }, false, false⟩
        (F.read e.summary) := by
  rw [hR.met (s := { s with meetings := Meetings.none :: rest }) hw rfl, State.beginRequest_none,
    RequestForm.serve_hit hd he, Progress.meet_none]
  rfl

/-- A request with a row taken after its lookup (R16, R26, R38, R46, R72, R73). -/
theorem RequestForm.Resolves.servesAround (hd : (s.space n).current = some d) :
    s.servesAround x resolve (fun see => F.walk see d r) F.summary n r d := by
  intro i k rest u hmeet
  dsimp only
  cases he : cachePick n (s.space n).generation d.isPrivate r s.cache with
  | some e =>
    intro hm
    refine ⟨fun hc ha => ?_, fun hc hl => ⟨fun e' a he' ha => ?_, fun h => nomatch h⟩, fun hc hl => ?_⟩
    · rw [hR.met_hit hw hd he hmeet, hm.take_of_clears hw hc]
      exact Progress.handOver_of_cleared _ rfl
    · cases he'
      rw [hR.met_hit hw hd he hmeet, hm.take_of_leftBy hw hc hl, ha, hF.read_summary]
      rfl
    · rw [hR.met_hit hw hd he hmeet, hm.take_of_not_leftBy hw hc hl, hR.alone_hit hw hd he]
  | none =>
    intro (hm : x.mayMeet { s with meetings := rest } i u)
    refine ⟨fun hc _ => ?_, fun hc hl => ⟨fun _ _ h => (nomatch h), fun _ => ⟨fun c hwalk => ?_, fun a hwalk => ?_⟩⟩,
      fun hc hl => ?_⟩
    · rw [hR.met_miss hw hd he hmeet (hm.take_of_clears hw hc)]
      exact RequestForm.finish_cleared rfl
    · rw [hR.met_miss hw hd he hmeet (hm.take_of_leftBy hw hc hl)]
      exact congrArg (F.finish n (s.space n).generation _) hwalk
    · have hserve := (hR.met_miss hw hd he hmeet (hm.take_of_leftBy hw hc hl)).trans
        (congrArg (F.finish n (s.space n).generation _) hwalk)
      refine ⟨fun hp => ?_, fun hp => ?_⟩
      · rw [hserve, (hm.purgedBy_iff hd).2 hp]
        rfl
      · rw [hserve, Bool.eq_false_iff.2 (mt (hm.purgedBy_iff hd).1 hp)]
        rfl
    · rw [hR.met_miss hw hd he hmeet (hm.take_of_not_leftBy hw hc hl), hR.alone_miss hw hd he, seenAround_self]

end

end Sys2Proof.Machine

/-! SUPPORT. Where a lookup finds its entry (R64, R65): the most recent of the first sort that has any. -/

namespace Sys2Proof.Machine

variable {n : SpaceNo} {g : BitVec 8} {isPrivate : Bool} {r : Designator} {cache before after : List CacheEntry}
  {f : CacheEntry}

/-- The first entry of a sort is the one with none of that sort before it. -/
theorem find?_eq_of_first {p : CacheEntry → Bool} (hp : p f = true) (hb : ∀ x ∈ before, ¬ p x = true) :
    (before ++ f :: after).find? p = some f :=
  List.find?_eq_some_iff_append.2 ⟨hp, before, after, rfl, by simpa using hb⟩

/-- The sorts of entries that a lookup tries: for the room or zone-wide, with the tag of the lookup or common. -/
def CacheEntry.taggedFor (n : SpaceNo) (g : BitVec 8) (r : Designator) (zoneWide : Bool) (e : CacheEntry) : Bool :=
  e.tagged n g && e.covers r zoneWide

def CacheEntry.commonFor (r : Designator) (zoneWide : Bool) (e : CacheEntry) : Bool :=
  e.summary.common && e.covers r zoneWide

theorem CacheEntry.taggedFor_room : f.taggedFor n g r false = true ↔
    (f.space = n ∧ f.generation = g) ∧ f.summary.covers = ⟨r.site, r.zone, some r.room⟩ := by
  simp [CacheEntry.taggedFor, CacheEntry.tagged, CacheEntry.covers]

theorem CacheEntry.taggedFor_zone : f.taggedFor n g r true = true ↔
    (f.space = n ∧ f.generation = g) ∧ f.summary.covers = ⟨r.site, r.zone, none⟩ := by
  simp [CacheEntry.taggedFor, CacheEntry.tagged, CacheEntry.covers]

theorem CacheEntry.commonFor_room : f.commonFor r false = true ↔
    f.summary.common = true ∧ f.summary.covers = ⟨r.site, r.zone, some r.room⟩ := by
  simp [CacheEntry.commonFor, CacheEntry.covers]

theorem CacheEntry.commonFor_zone : f.commonFor r true = true ↔
    f.summary.common = true ∧ f.summary.covers = ⟨r.site, r.zone, none⟩ := by
  simp [CacheEntry.commonFor, CacheEntry.covers]

/-- A lookup tries the sorts of entries in order, and takes the most recent of the first that has any (R64, R65). -/
theorem cachePick_eq : cachePick n g isPrivate r cache =
    ((cache.find? (CacheEntry.taggedFor n g r false)).or
      ((cache.find? (CacheEntry.taggedFor n g r true)).or
        (if isPrivate then none else
          (cache.find? (CacheEntry.commonFor r false)).or (cache.find? (CacheEntry.commonFor r true))))) := by
  show cachePick n g isPrivate r cache =
    ((cache.find? fun e => e.tagged n g && e.covers r false).or
      ((cache.find? fun e => e.tagged n g && e.covers r true).or
        (if isPrivate then none else
          (cache.find? fun e => e.summary.common && e.covers r false).or
            (cache.find? fun e => e.summary.common && e.covers r true))))
  unfold cachePick
  split <;> rename_i h
  · rw [h]; rfl
  · rw [h]
    split <;> rename_i h
    · rw [h]; rfl
    · rw [h]
      cases isPrivate with
      | true => rfl
      | false =>
        cases cache.find? fun e => e.summary.common && e.covers r false <;> rfl

section

variable (h1 : cache.find? (CacheEntry.taggedFor n g r false) = none)

theorem cachePick_taggedRoom (h : cache.find? (CacheEntry.taggedFor n g r false) = some f) :
    cachePick n g isPrivate r cache = some f := by
  rw [cachePick_eq, h, Option.some_or]

include h1

theorem cachePick_taggedZone (h : cache.find? (CacheEntry.taggedFor n g r true) = some f) :
    cachePick n g isPrivate r cache = some f := by
  rw [cachePick_eq, h1, h, Option.none_or, Option.some_or]

variable (h2 : cache.find? (CacheEntry.taggedFor n g r true) = none)
include h2

/-- With nothing tagged a lookup takes what is common, or misses where its space takes nothing of others. -/
theorem cachePick_untagged : cachePick n g isPrivate r cache =
    if isPrivate then none else
      (cache.find? (CacheEntry.commonFor r false)).or (cache.find? (CacheEntry.commonFor r true)) := by
  rw [cachePick_eq, h1, h2, Option.none_or, Option.none_or]

end

/-- Settles O14: the two forms of request are one, served alone, after a row before the lookup and around a row after
it; and a lookup takes the first entry of the first sort that has any. -/
theorem cacheServesWhatWasFilled : Obligations.CacheServesWhatWasFilled := by
  unfold Obligations.CacheServesWhatWasFilled
  refine ⟨fun s x n r d hw hd => ?_, fun s x r d hw hd => ?_, fun n g isPrivate r cache => ?_⟩
  · have hF := RequestForm.grant_sound
    have hR := RequestForm.grant_resolves x n r
    exact ⟨hR.servesAlone hF hw hd, hR.servesAfter hF hw, hR.servesAround hF hw hd⟩
  · have hF := RequestForm.overlay_sound
    have hR := RequestForm.overlay_resolves x r
    exact ⟨hR.servesAlone hF hw hd, hR.servesAfter hF hw, hR.servesAround hF hw hd⟩
  · intro pick tagged forRoom zoneWide
    refine ⟨fun before f after hcache => ?_, fun hmiss => ?_⟩
    · have first {p : CacheEntry → Bool} (hp : p f = true) (hb : ∀ x ∈ before, ¬ p x = true) : cache.find? p = some f :=
        hcache ▸ find?_eq_of_first hp hb
      refine ⟨fun ht hr hb => ?_, fun ht hz hc hb => ?_, fun hpublic hcommon hc => ?_⟩
      · exact cachePick_taggedRoom
          (first (CacheEntry.taggedFor_room.2 ⟨ht, hr⟩) fun x hx => mt CacheEntry.taggedFor_room.1 (hb x hx))
      · exact cachePick_taggedZone (List.find?_eq_none.2 fun x hx => mt CacheEntry.taggedFor_room.1 (hc x hx))
          (first (CacheEntry.taggedFor_zone.2 ⟨ht, hz⟩) fun x hx => mt CacheEntry.taggedFor_zone.1 (hb x hx))
      · have hpick : pick = _ := cachePick_untagged
          (List.find?_eq_none.2 fun x hx h =>
            let ⟨ht, hr⟩ := CacheEntry.taggedFor_room.1 h
            (hc x hx ht).1 hr)
          (List.find?_eq_none.2 fun x hx h =>
            let ⟨ht, hz⟩ := CacheEntry.taggedFor_zone.1 h
            (hc x hx ht).2 hz)
        rw [hpick, hpublic]
        refine ⟨fun hr hb => ?_, fun hz hc hb => ?_⟩
        · simp [first (CacheEntry.commonFor_room.2 ⟨hcommon, hr⟩) fun x hx => mt CacheEntry.commonFor_room.1 (hb x hx)]
        · simp [List.find?_eq_none.2 fun x hx => mt CacheEntry.commonFor_room.1 (hc x hx),
            first (CacheEntry.commonFor_zone.2 ⟨hcommon, hz⟩) fun x hx => mt CacheEntry.commonFor_zone.1 (hb x hx)]
    · have hpick : pick = _ := cachePick_untagged
        (List.find?_eq_none.2 fun x hx h =>
          let ⟨ht, hr⟩ := CacheEntry.taggedFor_room.1 h
          (hmiss x hx (.inl hr)).1 ht)
        (List.find?_eq_none.2 fun x hx h =>
          let ⟨ht, hz⟩ := CacheEntry.taggedFor_zone.1 h
          (hmiss x hx (.inr hz)).1 ht)
      rw [hpick]
      cases isPrivate with
      | true => rfl
      | false =>
        have common {x : CacheEntry} (hx : x ∈ cache) (ha : forRoom x ∨ zoneWide x) : x.summary.common = false :=
          ((hmiss x hx ha).2.resolve_left (by decide))
        have hroom : cache.find? (CacheEntry.commonFor r false) = none := List.find?_eq_none.2 fun x hx h =>
          let ⟨hcom, hr⟩ := CacheEntry.commonFor_room.1 h
          Bool.eq_false_iff.1 (common hx (.inl hr)) hcom
        have hzone : cache.find? (CacheEntry.commonFor r true) = none := List.find?_eq_none.2 fun x hx h =>
          let ⟨hcom, hz⟩ := CacheEntry.commonFor_zone.1 h
          Bool.eq_false_iff.1 (common hx (.inr hz)) hcom
        simp [hroom, hzone]

end Sys2Proof.Machine

/-! SUPPORT. The space commands: what DEFINE SPACE, STAGE SPACE, CANCEL STAGE and RETIRE SPACE do with their arguments
(R24 to R29, R33, R35). -/

namespace Sys2Proof.Machine

variable {s : State} {p : Authority} {n : SpaceNo} {d : Descriptor}

/-! ### Arguments -/

theorem space?_eq_none {a : Byte} : space? a = none ↔ 63 < a.toNat := by
  simp only [space?, dite_eq_right_iff, reduceCtorEq, imp_false]
  omega

theorem zone?_eq_some {a : Byte} {z : ZoneNo} : zone? a = some z ↔ a.toNat = z.val := by
  simp only [zone?, Option.dite_none_right_eq_some, Option.some.injEq, Fin.ext_iff]
  exact ⟨fun ⟨_, h⟩ => h, fun h => ⟨h ▸ z.isLt, h⟩⟩

/-- A flag byte reads as the flag it is written from (R168). -/
theorem flag?_eq_some {x : Byte} {b : Bool} : flag? x = some b ↔ x = if b then 1 else 0 := by
  unfold flag?
  split_ifs <;> simp_all

/-- The bytes stand for a scope, where they name the site and the zone that it uses (R25). -/
def carriesScope (a : DescriptorArgs) : Scope → Prop
  | .estate => a.scope = 0
  | .site i => a.scope = 1 ∧ a.site.toNat = i.val
  | .zone i z => a.scope = 2 ∧ a.site.toNat = i.val ∧ a.zone.toNat = z.val

theorem scope?_eq_some {a : DescriptorArgs} {c : Scope} : scope? a = some c ↔ carriesScope a c := by
  unfold scope?
  split_ifs with h0 h1 h2
  · cases c <;> simp [carriesScope, h0]
  · cases c <;> simp [carriesScope, h1, site?_eq_some]
  · split
    · rename_i i z hi hz
      rw [site?_eq_some] at hi
      rw [zone?_eq_some] at hz
      cases c <;> simp [carriesScope, h2, hi, hz, Fin.ext_iff]
    · rename_i hnone
      refine iff_of_false nofun ?_
      cases c with
      | estate => exact h0
      | site i => exact fun h => h1 h.1
      | zone i z => exact fun ⟨_, hi, hz⟩ => hnone i z (site?_eq_some.2 hi) (zone?_eq_some.2 hz)
  · refine iff_of_false nofun ?_
    cases c with
    | estate => exact h0
    | site i => exact fun h => h1 h.1
    | zone i z => exact fun h => h2 h.1

theorem carriesDescriptor_iff {a : DescriptorArgs} : carriesDescriptor a d ↔ carriesScope a d.scope ∧
    (match d.topOrigin with
      | none => a.origin = 65535
      | some o => a.origin.toNat = o.val ∧ o.val + d.topLength ≤ 512) ∧
    a.length.toNat = d.topLength ∧ 1 ≤ d.topLength ∧ d.topLength ≤ (if d.scope = .estate then 16 else 4) ∧
    a.isPrivate = (if d.isPrivate then 1 else 0) := by
  obtain ⟨authority, scope, topOrigin, topLength, isPrivate⟩ := d
  cases scope <;> cases topOrigin <;> rfl

/-- The range of a top table fits in its scope (R25). -/
theorem maxTopLength_eq (c : Scope) : maxTopLength c = if c = .estate then 16 else 4 := by
  cases c <;> rfl

/-- The descriptor that a command of an authority carries is the one its bytes stand for, with the authority's name
(R25). -/
theorem descriptor?_eq_some {a : DescriptorArgs} :
    descriptor? p a = some d ↔ carriesDescriptor a d ∧ d.authority = p := by
  obtain ⟨authority, scope, topOrigin, topLength, isPrivate⟩ := d
  unfold descriptor?
  rw [carriesDescriptor_iff, ← scope?_eq_some, ← flag?_eq_some, ← maxTopLength_eq]
  dsimp only
  split
  · rename_i c b hc hb
    rw [hc, hb, Option.some.injEq, Option.some.injEq]
    split_ifs with hlen horigin
    · refine iff_of_false nofun ?_
      rintro ⟨⟨rfl, -, rfl, h1, h2, -⟩, -⟩
      omega
    · cases topOrigin with
      | none =>
        simp only [Option.some.injEq, Descriptor.mk.injEq, true_and]
        grind
      | some o =>
        refine iff_of_false (by simp) ?_
        rintro ⟨⟨-, ⟨ho, -⟩, -⟩, -⟩
        have := o.isLt
        rw [horigin] at ho
        have h65 : (65535 : Word16).toNat = 65535 := rfl
        omega
    · split
      · rename_i hblock
        refine iff_of_false nofun ?_
        rintro ⟨⟨-, horig, -⟩, -⟩
        cases topOrigin with
        | none => exact horigin horig
        | some o =>
          have := block?_eq_none.1 hblock
          have := horig.1
          omega
      · rename_i o hblock
        rw [block?_eq_some] at hblock
        cases topOrigin with
        | none =>
          refine iff_of_false (by split_ifs <;> simp) ?_
          rintro ⟨⟨-, horig, -⟩, -⟩
          exact horigin horig
        | some o' =>
          have heq : a.origin.toNat = o'.val ↔ o = o' := by rw [hblock, Fin.ext_iff]
          dsimp only
          split_ifs with hend
          · refine iff_of_false nofun ?_
            rintro ⟨⟨-, ⟨ho, hle⟩, hl, h1, -⟩, -⟩
            omega
          · simp only [Option.some.injEq, Descriptor.mk.injEq, heq]
            grind
  · rename_i hne
    refine iff_of_false nofun ?_
    rintro ⟨⟨hc, -, -, -, -, hb⟩, -⟩
    exact hne _ _ hc hb

/-! ### The readiness check (R24) -/

theorem State.unreadyBlock_eq_some {b : BlockNo} (hn : d.names b.val = true)
    (hb : (s.block b).owner ≠ some (d.authority, d.scope.kind))
    (hlow : ∀ c : BlockNo, d.names c.val = true → c < b → (s.block c).owner = some (d.authority, d.scope.kind)) :
    s.unreadyBlock d = some b.val := by
  unfold State.unreadyBlock
  unfold Descriptor.names at hn hlow
  cases ho : d.topOrigin with
  | none => simp [ho] at hn
  | some o =>
    simp only [ho, Bool.and_eq_true, decide_eq_true_eq] at hn hlow
    refine find_range'_eq_some.2 ⟨by simpa using hb, hn, fun c hc hcb => ?_⟩
    simpa using hlow c ⟨hc, by rw [Fin.lt_def] at hcb; omega⟩ hcb

theorem State.unreadyBlock_eq_none (hready : ∀ b : BlockNo, d.names b.val = true →
    (s.block b).owner = some (d.authority, d.scope.kind)) (hfit : ∀ o, d.topOrigin = some o → o.val + d.topLength ≤ 512) :
    s.unreadyBlock d = none := by
  unfold State.unreadyBlock
  unfold Descriptor.names at hready
  cases ho : d.topOrigin with
  | none => rfl
  | some o =>
    simp only [ho, Bool.and_eq_true, decide_eq_true_eq] at hready
    exact (find_range'_eq_none (hfit o ho)).2 fun b hb => by simpa using hready b hb

theorem carriesDescriptor.fits {a : DescriptorArgs} (h : carriesDescriptor a d) :
    ∀ o, d.topOrigin = some o → o.val + d.topLength ≤ 512 := by
  obtain ⟨-, horigin, -⟩ := h
  intro o ho
  rw [ho] at horigin
  exact horigin.2

/-! ### DEFINE SPACE (R25) -/

section
variable {a : DescriptorArgs}

theorem defineSpace_badArgument (h : ∀ d, carriesDescriptor a d → d.topOrigin = none) :
    defineSpace p a s = (s, .refused .badArgument []) := by
  unfold defineSpace
  split
  · rfl
  · rename_i d hd
    rw [if_pos (h d (descriptor?_eq_some.1 hd).1)]
    rfl

variable (hd : carriesDescriptor a d) (hp : d.authority = p) (ho : d.topOrigin ≠ none)
include hd hp ho

theorem defineSpace_notPermitted (hsec : p = .sec) : defineSpace p a s = (s, .refused .notPermitted []) := by
  subst hsec
  simp only [defineSpace, descriptor?_eq_some.2 ⟨hd, hp⟩, ho, if_false, if_true]
  rfl

variable (hsec : p ≠ .sec)
include hsec

theorem defineSpace_tableNotReady {b : BlockNo} (hb : s.unreadyBlock d = some b.val) :
    defineSpace p a s = (s, .refused .tableNotReady (num2 b.val)) := by
  simp only [defineSpace, descriptor?_eq_some.2 ⟨hd, hp⟩, ho, if_false, hsec, hb]

variable (hready : s.unreadyBlock d = none)
include hready

theorem defineSpace_full (h : ∀ n : SpaceNo, 2 ≤ n.val → (s.space n).inUse = true) :
    defineSpace p a s = (s, .refused .spaceTableFull []) := by
  have hfull : lowestFrom 2 (fun r => !SpaceRecord.inUse r) s.spaces = none :=
    lowestFrom_eq_none.2 fun n hn => by simpa [State.space] using h n hn
  simp only [defineSpace, descriptor?_eq_some.2 ⟨hd, hp⟩, ho, if_false, hsec, hready, hfull]
  rfl

theorem defineSpace_defined (hn : 2 ≤ n.val) (hfree : (s.space n).inUse = false)
    (hlow : ∀ m : SpaceNo, 2 ≤ m.val → m < n → (s.space m).inUse = true) :
    defineSpace p a s = (s.setSpace n ⟨some d, none, (s.space n).generation + 1, 0⟩,
      .accepted (num1 n.val ++ [(s.space n).generation + 1])) := by
  have hlowest : lowestFrom 2 (fun r => !SpaceRecord.inUse r) s.spaces = some n :=
    lowestFrom_eq_some.2 ⟨hn, by simpa [State.space] using hfree,
      fun m hm h2 => by simpa [State.space] using hlow m h2 hm⟩
  simp only [defineSpace, descriptor?_eq_some.2 ⟨hd, hp⟩, ho, if_false, hsec, hready, hlowest]

end

/-- Settles O9: each clause is a command taken at its port that leaves the port to its reply. -/
theorem defineSpaceTakesOrRefuses : Obligations.DefineSpaceTakesOrRefuses := by
  unfold Obligations.DefineSpaceTakesOrRefuses
  intro s p a ht
  have hout : exec (.defineSpace p (.fields a)) s = .next (carryOut p 4 (defineSpace p a) s) := runCommand_fields ht
  dsimp only
  rw [hout]
  refine ⟨fun h => congrArg _ (carryOut_read (defineSpace_badArgument h)), ?_⟩
  rintro d hd rfl ho
  refine ⟨fun hsec => congrArg _ (carryOut_read (defineSpace_notPermitted hd rfl ho hsec)), fun hsec =>
    ⟨fun b hn hb hlow => ?_, fun hready => ?_⟩⟩
  · exact congrArg _ (carryOut_read
      (defineSpace_tableNotReady hd rfl ho hsec (State.unreadyBlock_eq_some hn hb hlow)))
  · have hnone : (s.reserveReply d.authority).unreadyBlock d = none := State.unreadyBlock_eq_none hready hd.fits
    refine ⟨fun h => congrArg _ (carryOut_read (defineSpace_full hd rfl ho hsec hnone h)), fun n hn hfree hlow => ?_⟩
    exact congrArg _ (carryOut_of_frame (t := s.setSpace n ⟨some d, none, (s.space n).generation + 1, 0⟩) rfl
      (defineSpace_defined hd rfl ho hsec hnone hn hfree hlow))

/-! ### STAGE SPACE (R27, R28, R29) -/

/-- What each space may stage (R23, R27 step 1). -/
theorem stageable_iff : stageable n d = true ↔
    (2 ≤ n.val → d.topOrigin ≠ none) ∧ (n.val ≤ 1 → d.scope = .estate) ∧ (n.val = 0 → d.isPrivate = true) := by
  unfold stageable
  split_ifs with h0 h1
  · simp [h0]
  · simp [h1]
  · rw [Option.isSome_iff_ne_none]
    have hn : 2 ≤ n.val ∧ ¬ n.val ≤ 1 := by omega
    simp [hn, h0]

section
variable {a : StageSpaceArgs}

theorem stageSpace_badArgument (h : ∀ n d, a.space.toNat = n.val → carriesDescriptor a.descriptor d →
    ¬ stageable n d = true) : stageSpace p a s = (s, .refused .badArgument []) := by
  unfold stageSpace
  split
  · rename_i n d hn hd
    rw [if_pos (by simpa using h n d (space?_eq_some.1 hn) (descriptor?_eq_some.1 hd).1)]
    rfl
  · rfl

variable (hn : a.space.toNat = n.val) (hd : carriesDescriptor a.descriptor d) (hst : stageable n d = true)
  (hp : d.authority = p)
include hn hd hst hp

/-- With good arguments STAGE SPACE goes through its checks from the second on (R27). -/
theorem stageSpace_checks : stageSpace p a s =
    if (s.space n).owner ≠ some p then (s, .refused .notPermitted [])
    else if (s.space n).go then (s, .refused .stagePending [])
    else match s.unreadyBlock d with
      | some b => (s, .refused .tableNotReady (num2 b))
      | none =>
        if (s.space n).drain = 0 then
          ((s.setSpace n { s.space n with waiting := some ⟨d, s.count + 120⟩ }).applySwitch n .immediate 0,
            .accepted (num1 n.val ++ [0, (s.space n).generation + 1]))
        else (s.setSpace n { s.space n with waiting := some ⟨d, s.count + 120⟩ },
          .accepted (num1 n.val ++ [1, (s.space n).generation])) := by
  simp only [stageSpace, space?_eq_some.2 hn, descriptor?_eq_some.2 ⟨hd, hp⟩, hst, Bool.not_true,
    Bool.false_eq_true, if_false, List.append_assoc, List.cons_append, List.nil_append] <;> rfl

end

/-- A staged descriptor becomes current at once where nothing is counted in the space (R29). -/
theorem State.applySwitch_staged {c : SwitchCause} {w : StagedSwitch} {k : Nat} (hdrain : (s.space n).drain = 0) :
    (s.setSpace n { s.space n with waiting := some w }).applySwitch n c k =
      (s.setSpace n ⟨some w.descriptor, none, (s.space n).generation + 1, 0⟩).notify w.descriptor.authority
        (.spaceSwitched n ((s.space n).generation + 1) c k) := by
  simp [State.applySwitch, hdrain]

/-- A command that queues a notice to its sender: its work, its answer at the port, and the notice behind it. -/
theorem carryOut_of_notify {code : Byte} {body : State → State × Answer} {t : State} {a : Answer} {x : Notice}
    (hp : t.port p = s.port p) (hb : body (s.reserveReply p) = ((t.reserveReply p).notify p x, a)) :
    carryOut p code body s = (t.answered p code a).notify p x := by
  unfold carryOut
  simp only [hb, ← hp]
  rw [State.makeReply_notify (State.reserveReply_transmitter t p), State.makeReply_reserveReply]

/-- Settles O10. -/
theorem stageSpaceTakesOrRefuses : Obligations.StageSpaceTakesOrRefuses := by
  unfold Obligations.StageSpaceTakesOrRefuses
  intro s p a ht
  have hout : exec (.stageSpace p (.fields a)) s = .next (carryOut p 5 (stageSpace p a) s) := runCommand_fields ht
  dsimp only
  rw [hout]
  refine ⟨fun h => congrArg _ (carryOut_read (stageSpace_badArgument fun n d hn hd hst =>
    h n d ⟨hn, hd, stageable_iff.1 hst⟩)), ?_⟩
  rintro n d ⟨hn, hd, hst⟩ rfl
  have hchecks := stageSpace_checks (s := s.reserveReply d.authority) hn hd (stageable_iff.2 hst) rfl
  refine ⟨fun howner => congrArg _ (carryOut_read (hchecks.trans (if_pos howner))), fun howner => ?_⟩
  have hown := hchecks.trans (if_neg (not_not.2 howner))
  refine ⟨fun hgo => congrArg _ (carryOut_read (hown.trans (if_pos hgo))), fun hgo => ?_⟩
  have hfree := hown.trans (if_neg (Bool.eq_false_iff.1 hgo))
  refine ⟨fun b hb hb' hlow => ?_, fun hready => ?_⟩
  · rw [State.unreadyBlock_eq_some (s := s.reserveReply d.authority) hb hb' hlow] at hfree
    exact congrArg _ (carryOut_read hfree)
  · rw [State.unreadyBlock_eq_none (s := s.reserveReply d.authority) hready hd.fits] at hfree
    refine ⟨fun hdrain => ?_, fun hdrain => congrArg _ (carryOut_of_frame rfl (hfree.trans (if_neg hdrain)))⟩
    refine congrArg _ (carryOut_of_notify (t := s.setSpace n ⟨some d, none, (s.space n).generation + 1, 0⟩) rfl ?_)
    refine hfree.trans ((if_pos hdrain).trans ?_)
    exact congrArg (·, _) (State.applySwitch_staged (s := s.reserveReply d.authority) hdrain)

/-! ### CANCEL STAGE and RETIRE SPACE (R33, R35) -/

section
variable {a : NumberArgs}

theorem cancelStage_badArgument (h : 63 < a.number.toNat) : cancelStage p a s = (s, .refused .badArgument []) := by
  simp [cancelStage, space?_eq_none.2 h, refuse]

theorem retireSpace_badArgument (h : 63 < a.number.toNat) : retireSpace p a s = (s, .refused .badArgument []) := by
  simp [retireSpace, space?_eq_none.2 h, refuse]

variable (hn : a.number.toNat = n.val)
include hn

theorem cancelStage_checks : cancelStage p a s =
    if (s.space n).owner ≠ some p then (s, .refused .notPermitted [])
    else if (s.space n).go = false then (s, .refused .notStaged [])
    else (s.setSpace n { s.space n with waiting := none }, .accepted []) := by
  simp only [cancelStage, space?_eq_some.2 hn, Bool.not_eq_true']
  rfl

theorem retireSpace_checks : retireSpace p a s =
    if n.val ≤ 1 ∨ (s.space n).owner ≠ some p then (s, .refused .notPermitted [])
    else if (s.space n).go then (s, .refused .stagePending [])
    else match s.workOrderNaming n with
      | some w => (s, .refused .inUse (num1 w.val))
      | none => (s.setSpace n { s.space n with current := none }, .accepted (num1 n.val)) := by
  simp only [retireSpace, space?_eq_some.2 hn] <;> rfl

end

/-- The work orders that name a space in an option (R35). -/
def State.orderNames (s : State) (n : SpaceNo) (w : WorkOrderNo) : Prop :=
  ∃ r, s.workOrder w = some r ∧ ∃ o ∈ r.options, o.space = n

/-- Whether a record of the work order table names a space in an option. -/
def namesSpace (n : SpaceNo) (w : Option WorkOrder) : Bool := w.any fun r => r.options.any fun o => o.space = n

theorem State.workOrderNaming_eq : s.workOrderNaming n = lowest (namesSpace n) s.workOrders := by
  unfold State.workOrderNaming
  congr 1
  funext w
  cases w <;> rfl

theorem State.orderNames_iff {w : WorkOrderNo} : s.orderNames n w ↔ namesSpace n (s.workOrder w) = true := by
  simp only [State.orderNames, namesSpace, Option.any_eq_true, List.any_eq_true, decide_eq_true_eq]

theorem State.workOrderNaming_eq_some {w : WorkOrderNo} (h : s.orderNames n w) (hlow : ∀ v < w, ¬ s.orderNames n v) :
    s.workOrderNaming n = some w := by
  rw [State.workOrderNaming_eq, lowest_eq_some]
  exact ⟨State.orderNames_iff.1 h, fun v hv =>
    Bool.eq_false_iff.2 fun hc => hlow v hv (State.orderNames_iff.2 hc)⟩

theorem State.workOrderNaming_eq_none : s.workOrderNaming n = none ↔ ∀ w, ¬ s.orderNames n w := by
  rw [State.workOrderNaming_eq, lowest_eq_none]
  exact forall_congr' fun w => Bool.eq_false_iff.trans (not_congr State.orderNames_iff.symm)

/-- Settles O11. -/
theorem stageIsCancelledAndSpaceRetired : Obligations.StageIsCancelledAndSpaceRetired := by
  unfold Obligations.StageIsCancelledAndSpaceRetired
  refine ⟨fun s p a ht => ?_, fun s p a ht => ?_⟩
  · have hout : exec (.cancelStage p (.fields a)) s = .next (carryOut p 6 (cancelStage p a) s) := runCommand_fields ht
    dsimp only
    rw [hout]
    refine ⟨fun h => congrArg _ (carryOut_read (cancelStage_badArgument h)), fun n hn => ?_⟩
    have hchecks := cancelStage_checks (s := s.reserveReply p) (p := p) hn
    have hown : ∀ howner : (s.space n).owner = some p, _ := fun howner => hchecks.trans (if_neg (not_not.2 howner))
    refine ⟨fun howner => congrArg _ (carryOut_read (hchecks.trans (if_pos howner))), fun howner hgo =>
      congrArg _ (carryOut_read ((hown howner).trans (if_pos hgo))), fun howner hgo => ?_⟩
    exact congrArg _ (carryOut_of_frame rfl ((hown howner).trans (if_neg (Bool.not_eq_false _ ▸ hgo))))
  · have hout : exec (.retireSpace p (.fields a)) s = .next (carryOut p 7 (retireSpace p a) s) := runCommand_fields ht
    dsimp only
    rw [hout]
    refine ⟨fun h => congrArg _ (carryOut_read (retireSpace_badArgument h)), fun n hn => ?_⟩
    have hchecks := retireSpace_checks (s := s.reserveReply p) (p := p) hn
    refine ⟨fun h => congrArg _ (carryOut_read (hchecks.trans (if_pos h))), fun hn2 howner => ?_⟩
    have hown : ¬ (n.val ≤ 1 ∨ (s.space n).owner ≠ some p) := by
      rintro (h | h)
      · omega
      · exact h howner
    have hthen := hchecks.trans (if_neg hown)
    refine ⟨fun hgo => congrArg _ (carryOut_read (hthen.trans (if_pos hgo))), fun hgo =>
      ⟨fun w hw hlow => ?_, fun hnone => ?_⟩⟩
    · have hname : (s.reserveReply p).workOrderNaming n = some w := State.workOrderNaming_eq_some hw hlow
      have hfree := hthen.trans (if_neg (Bool.eq_false_iff.1 hgo))
      rw [hname] at hfree
      exact congrArg _ (carryOut_read hfree)
    · have hname : (s.reserveReply p).workOrderNaming n = none := State.workOrderNaming_eq_none.2 hnone
      have hfree := hthen.trans (if_neg (Bool.eq_false_iff.1 hgo))
      rw [hname] at hfree
      exact congrArg _ (carryOut_of_frame rfl hfree)

end Sys2Proof.Machine

/-! SUPPORT. The books of the device (R30, R91, R113, R149), restated with sums over the tables: what the rooms, the
parties, the pairing slots and the drain counts say, and what a write of each table must respect. -/

namespace Sys2Proof.Machine

open State (changesOnly_refl)

variable {s t : State} {fs : List Field}

/-! ### Sums over a table -/

theorem sum_map_filter {α : Type} (p : α → Bool) (f : α → Nat) (l : List α) :
    ((l.filter p).map f).sum = (l.map fun a => if p a then f a else 0).sum := by
  induction l with
  | nil => rfl
  | cons a l ih => by_cases ha : p a <;> simp [ha, ih]

/-- The sum over the numbers of the records that pass a test. -/
theorem sum_numbersWhere {α : Type} {n : Nat} (p : α → Bool) (f : Fin n → Nat) (v : Vector α n) :
    ((numbersWhere p v).map f).sum = ∑ i, if p (v.get i) then f i else 0 := by
  rw [numbersWhere_eq, sum_map_filter, Fin.sum_univ_def]

theorem length_numbersWhere {α : Type} {n : Nat} (p : α → Bool) (v : Vector α n) :
    (numbersWhere p v).length = ∑ i, if p (v.get i) then 1 else 0 := by
  rw [← sum_numbersWhere p (fun _ => 1)]
  simp

/-- Two sums over a table that differ in one record. -/
theorem sum_eq_of_differ {n : Nat} {f g : Fin n → Nat} (k : Fin n) (h : ∀ i, i ≠ k → f i = g i) :
    ∑ i, f i + g k = ∑ i, g i + f k := by
  have herase : ∑ i ∈ Finset.univ.erase k, f i = ∑ i ∈ Finset.univ.erase k, g i :=
    Finset.sum_congr rfl fun i hi => h i (Finset.ne_of_mem_erase hi)
  rw [← Finset.add_sum_erase _ f (Finset.mem_univ k), ← Finset.add_sum_erase _ g (Finset.mem_univ k), herase]
  omega

/-! ### Rooms and parties (R91, R113) -/

/-- What a permit record adds to the party load of a work order (R113). -/
def partyShare (w : WorkOrderNo) : Option Permit → Nat
  | some p => if p.workOrder = w ∧ p.state.counted = true then p.role.weight else 0
  | none => 0

/-- Each party load is the sum of what the permits add to it (R113). -/
def State.partiesSound (s : State) : Prop :=
  ∀ w r, s.workOrder w = some r → r.party = ∑ n, partyShare w (s.permit n)

/-- A room's record agrees with the permits on its lists (R91). -/
def State.recordAgrees (s : State) (o : OccupancyRecord) : Prop :=
  (o.inside ++ o.pending).Nodup ∧ o.load = ((o.inside ++ o.pending).map s.weight).sum ∧
  (∀ n ∈ o.inside, ∃ p stay, s.permit n = some p ∧ p.state = .inside stay ∧ stay.room = o.room) ∧
  (∀ n ∈ o.pending, ∃ p d remote, s.permit n = some p ∧ p.state = .pending o.room d remote)

/-- Each record agrees with the permits, and each permit Pending or Inside is on its room's record (R91). -/
def State.roomsSound (s : State) : Prop :=
  (∀ k o, s.record k = some o → s.recordAgrees o) ∧
  ∀ n p room, s.permit n = some p → p.state.room = some room →
    ∃ k o, s.record k = some o ∧ o.room = room ∧ n ∈ o.inside ++ o.pending

theorem State.loadsSound_iff : s.loadsSound ↔ s.roomsSound ∧ s.partiesSound := by
  have hsum : ∀ w, ((numbersWhere (fun x => match x with
      | some p => p.workOrder = w && p.state.counted
      | none => false) s.permits).map s.weight).sum = ∑ n, partyShare w (s.permit n) := by
    intro w
    rw [sum_numbersWhere]
    refine Finset.sum_congr rfl fun n _ => ?_
    show (if (match s.permit n with
      | some p => p.workOrder = w && p.state.counted
      | none => false) = true then s.weight n else 0) = _
    unfold State.weight
    cases s.permit n with
    | none => rfl
    | some p => simp [partyShare]
  unfold State.loadsSound State.roomsSound State.partiesSound
  constructor
  · rintro ⟨h1, h2, h3⟩
    exact ⟨⟨h1, h2⟩, fun w r hr => (h3 w r hr).trans (hsum w)⟩
  · rintro ⟨⟨h1, h2⟩, h3⟩
    exact ⟨h1, h2, fun w r hr => (h3 w r hr).trans (hsum w).symm⟩

theorem PermitState.counted_iff_room {x : PermitState} : x.counted = true ↔ ∃ r, x.room = some r := by
  cases x <;> simp [PermitState.counted, PermitState.room]

theorem PermitState.eq_idle_of_not_counted {x : PermitState} (h : x.counted = false) : x = .idle := by
  cases x with
  | idle => rfl
  | _ => exact nomatch h

/-- The permits on the lists of a record are counted, and for its room. -/
theorem State.recordAgrees.room_of_mem {o : OccupancyRecord} (h : s.recordAgrees o) {n : PermitNo}
    (hn : n ∈ o.inside ++ o.pending) : ∃ p, s.permit n = some p ∧ p.state.room = some o.room := by
  obtain ⟨-, -, hi, hp⟩ := h
  rcases List.mem_append.1 hn with hn | hn
  · obtain ⟨p, stay, hps, hst, hr⟩ := hi n hn
    exact ⟨p, hps, by simp [hst, PermitState.room, hr]⟩
  · obtain ⟨p, d, remote, hps, hst⟩ := hp n hn
    exact ⟨p, hps, by simp [hst, PermitState.room]⟩

/-- A record still agrees where the permits on its lists have kept their weights, rooms and sorts of state. -/
theorem State.recordAgrees.of_permits {o : OccupancyRecord} (h : s.recordAgrees o)
    (hw : ∀ n ∈ o.inside ++ o.pending, t.weight n = s.weight n)
    (hi : ∀ n ∈ o.inside, ∀ p stay, s.permit n = some p → p.state = .inside stay →
      ∃ q stay', t.permit n = some q ∧ q.state = .inside stay' ∧ stay'.room = stay.room)
    (hp : ∀ n ∈ o.pending, ∀ p room d remote, s.permit n = some p → p.state = .pending room d remote →
      ∃ q d' remote', t.permit n = some q ∧ q.state = .pending room d' remote') : t.recordAgrees o := by
  obtain ⟨h1, h2, h3, h4⟩ := h
  refine ⟨h1, ?_, fun n hn => ?_, fun n hn => ?_⟩
  · rw [h2, List.map_congr_left hw]
  · obtain ⟨p, stay, hps, hst, hr⟩ := h3 n hn
    obtain ⟨q, stay', hq, hst', hr'⟩ := hi n hn p stay hps hst
    exact ⟨q, stay', hq, hst', hr'.trans hr⟩
  · obtain ⟨p, d, remote, hps, hst⟩ := h4 n hn
    exact hp n hn p _ _ _ hps hst

theorem State.recordAgrees.of_same {o : OccupancyRecord} (h : s.recordAgrees o)
    (hs : ∀ n ∈ o.inside ++ o.pending, t.permit n = s.permit n) : t.recordAgrees o := by
  have hin : ∀ n ∈ o.inside, t.permit n = s.permit n := fun n hn => hs n (List.mem_append_left _ hn)
  have hpend : ∀ n ∈ o.pending, t.permit n = s.permit n := fun n hn => hs n (List.mem_append_right _ hn)
  exact h.of_permits (fun n hn => by simp only [State.weight, hs n hn])
    (fun n hn p stay hp hst => ⟨p, stay, (hin n hn).trans hp, hst, rfl⟩)
    fun n hn p room d remote hp hst => ⟨p, d, remote, (hpend n hn).trans hp, hst⟩

/-! ### The slots counted in a space (R30) -/

/-- The admission of a slot is counted in a space (R30). -/
def State.countsIn (s : State) (n : SpaceNo) (k : SlotNo) : Prop :=
  ∃ x sp, s.slot k = some x ∧ (s.door x.door).admission.contractorSpace = some sp ∧ n ∈ countedSpaces sp

theorem State.mem_slotsCounted {n : SpaceNo} {k : SlotNo} : k ∈ s.slotsCounted n ↔ s.countsIn n k := by
  unfold State.slotsCounted State.countsIn
  rw [mem_numbersWhere]
  show (match s.slot k with
    | none => false
    | some k =>
      match (s.door k.door).admission.contractorSpace with
      | none => false
      | some sp => (countedSpaces sp).contains n) = true ↔ _
  cases s.slot k with
  | none => simp
  | some x => cases hx : (s.door x.door).admission.contractorSpace <;> simp [hx]

/-- How many admissions are counted in a space. -/
theorem State.slotsCounted_length (n : SpaceNo) [DecidablePred (s.countsIn n)] :
    (s.slotsCounted n).length = ∑ k, if s.countsIn n k then 1 else 0 := by
  unfold State.slotsCounted
  rw [length_numbersWhere]
  refine Finset.sum_congr rfl fun k _ => ?_
  have := s.mem_slotsCounted (n := n) (k := k)
  unfold State.slotsCounted at this
  rw [mem_numbersWhere] at this
  simp only [← this]

/-- The same slots counted make the same number. -/
theorem State.slotsCounted_congr {n : SpaceNo} (h : ∀ k, t.countsIn n k ↔ s.countsIn n k) :
    (t.slotsCounted n).length = (s.slotsCounted n).length := by
  classical
  simp only [State.slotsCounted_length, h]

/-- One slot more is counted. -/
theorem State.slotsCounted_add {n : SpaceNo} {k : SlotNo} (h : ∀ j, j ≠ k → (t.countsIn n j ↔ s.countsIn n j))
    (hs : ¬ s.countsIn n k) (ht : t.countsIn n k) : (t.slotsCounted n).length = (s.slotsCounted n).length + 1 := by
  classical
  have hsum := sum_eq_of_differ (f := fun j => if t.countsIn n j then 1 else 0)
    (g := fun j => if s.countsIn n j then 1 else 0) k fun j hj => by simp only [h j hj]
  simpa [State.slotsCounted_length, hs, ht] using hsum

end Sys2Proof.Machine

/-! SUPPORT. The books as one property of a state, with Lockdown quiet: what of them a change of other tables leaves, and
what carries each part of them over a change. -/

namespace Sys2Proof.Machine

open State (changesOnly_refl)

variable {s t : State} {fs : List Field}

/-! ### Parts that have not changed -/

section

variable (hc : s.changesOnly fs t)
include hc

theorem State.changesOnly.space_eq (hf : Field.spaces ∉ fs) : t.space = s.space := congrArg Vector.get (hc _ hf)
theorem State.changesOnly.record_eq (hf : Field.occupancy ∉ fs) : t.record = s.record := congrArg Vector.get (hc _ hf)
theorem State.changesOnly.workOrder_eq (hf : Field.workOrders ∉ fs) : t.workOrder = s.workOrder :=
  congrArg Vector.get (hc _ hf)
theorem State.changesOnly.permit_eq (hf : Field.permits ∉ fs) : t.permit = s.permit := congrArg Vector.get (hc _ hf)
theorem State.changesOnly.slot_eq (hf : Field.slots ∉ fs) : t.slot = s.slot := congrArg Vector.get (hc _ hf)
theorem State.changesOnly.lane_eq (hf : Field.lanes ∉ fs) : t.lane = s.lane := congrArg Vector.get (hc _ hf)
theorem State.changesOnly.door_eq (hf : Field.doors ∉ fs) : t.door = s.door := by
  funext d
  exact congrArg (Vector.get · (doorIndex d)) (hc _ hf)

end

/-! ### Lockdown (R86, R147) -/

/-- A door that Lockdown leaves in peace: no Open to an Enter waits for it, and no admission waits or is open for an
Enter. -/
def Door.Quiet (x : Door) : Prop :=
  (∀ v ∈ x.outgoing, v.outcome ≠ .admitted) ∧ x.admission.contractorSpace = none ∧ x.admission.isEntry = false

/-- A lane that is sending no Open to an Enter. -/
def LanePhase.Quiet (x : LanePhase) : Prop := ∀ v, x = .sendingVerdict v → v.outcome ≠ .admitted

theorem State.lockdownQuiet_iff : s.lockdownQuiet ↔
    (s.posture = .lockdown → (∀ d, (s.door d).Quiet) ∧ ∀ l, (s.lane l).phase.Quiet) := by
  have hadm : ∀ a : Admission, (match a with
      | .idle | .openExit .. => True
      | .pairing .. | .awaitingConsent .. | .openEnter .. => False) ↔
      a.contractorSpace = none ∧ a.isEntry = false := by
    intro a
    cases a <;> simp [Admission.contractorSpace, Admission.isEntry]
  exact imp_congr_right fun _ => and_congr_left fun _ => forall_congr' fun d => and_congr_right fun _ => hadm _

/-! ### Parts of the books carried over a change -/

theorem State.workOrdersSound.transport (h : s.workOrdersSound)
    (hw : ∀ n w', t.workOrder n = some w' → ∃ w, s.workOrder n = some w ∧ w'.issuer = w.issuer ∧ w'.options = w.options)
    (ho : ∀ n, (t.space n).owner = (s.space n).owner) : t.workOrdersSound := by
  intro n w' hw' hn
  obtain ⟨w, hs, hi, hopt⟩ := hw n w' hw'
  rw [hi, hopt]
  exact ⟨(h n w hs hn).1, fun o hmem => ⟨((h n w hs hn).2 o hmem).1, (ho _).trans ((h n w hs hn).2 o hmem).2⟩⟩

theorem State.permitsSound.transport (h : s.permitsSound)
    (hp : ∀ n q, t.permit n = some q → ∃ p, s.permit n = some p ∧ q.role = p.role ∧ q.workOrder = p.workOrder ∧
      (q.revoked = true → q.state.counted = true) ∧ (p.revoked = true → q.revoked = true))
    (hw : ∀ n q w, t.permit n = some q → s.workOrder q.workOrder = some w →
      ∃ w', t.workOrder q.workOrder = some w' ∧ (w'.isClosing = true → w.isClosing = true ∨ q.revoked = true)) :
    t.permitsSound := by
  intro n q hq
  obtain ⟨p, hps, hrole, hwo, hrev, hkeep⟩ := hp n q hq
  obtain ⟨h1, -, w, hsw, hcl⟩ := h n p hps
  obtain ⟨w', hw', hcl'⟩ := hw n q w hq (hwo ▸ hsw)
  exact ⟨by rw [hrole, hwo]; exact h1, hrev, w', hw', fun hc => (hcl' hc).elim (fun hc => hkeep (hcl hc)) id⟩

theorem State.partiesSound.transport (h : s.partiesSound)
    (hp : ∀ w n, partyShare w (t.permit n) = partyShare w (s.permit n))
    (hw : ∀ n w', t.workOrder n = some w' → ∃ w, s.workOrder n = some w ∧ w'.party = w.party) : t.partiesSound := by
  intro n w' hw'
  obtain ⟨w, hs, hparty⟩ := hw n w' hw'
  rw [hparty, h n w hs]
  exact Finset.sum_congr rfl fun m _ => (hp n m).symm

/-- A permit is written and the party load of its work order moves with it (R113). -/
theorem State.partiesSound.shift {n : PermitNo} {v : WorkOrderNo} {g : Nat → Nat} (h : s.partiesSound)
    (hp : ∀ m, m ≠ n → t.permit m = s.permit m)
    (hv : ∀ w, w ≠ v → partyShare w (t.permit n) = partyShare w (s.permit n))
    (hw : ∀ w, t.workOrder w = if w = v then (s.workOrder w).map fun r => { r with party := g r.party }
      else s.workOrder w)
    (hg : ∀ a, partyShare v (s.permit n) ≤ a → g a + partyShare v (s.permit n) = a + partyShare v (t.permit n)) :
    t.partiesSound := by
  intro w r' hr'
  have hsum : ∑ m, partyShare w (t.permit m) + partyShare w (s.permit n) =
      ∑ m, partyShare w (s.permit m) + partyShare w (t.permit n) :=
    sum_eq_of_differ (f := fun m => partyShare w (t.permit m)) (g := fun m => partyShare w (s.permit m)) n
      fun m hm => congrArg _ (hp m hm)
  rw [hw] at hr'
  split_ifs at hr' with hwv
  · subst hwv
    obtain ⟨r, hr, rfl⟩ := Option.map_eq_some_iff.1 hr'
    have hle : partyShare w (s.permit n) ≤ r.party := by
      rw [h w r hr]
      exact Finset.single_le_sum (f := fun m => partyShare w (s.permit m)) (fun _ _ => Nat.zero_le _)
        (Finset.mem_univ n)
    have := hg r.party hle
    have := h w r hr
    dsimp only
    omega
  · have := h w r' hr'
    rw [hv w hwv] at hsum
    omega

theorem State.roomsSound.of_same (h : s.roomsSound) (hp : t.permit = s.permit) (hr : t.record = s.record) :
    t.roomsSound :=
  ⟨fun k o ho => (h.1 k o (hr ▸ ho)).of_same fun n _ => congrFun hp n,
    fun n p room hn hroom => by rw [hr]; exact h.2 n p room (hp ▸ hn) hroom⟩

/-- What a slot says of its door and permits stands while these do (R149). -/
theorem State.slotSound.of_same {x : Slot} (h : s.slotSound x)
    (hb : (s.door x.door).binding ≠ none → (t.door x.door).binding ≠ none)
    (ha : (t.door x.door).admission = (s.door x.door).admission)
    (hp : ∀ n, x.holds n = true → t.permit n = s.permit n)
    (hw : ∀ p w, s.permit x.contractor = some p → p.state = .idle → s.workOrder p.workOrder = some w →
      ∃ w', t.workOrder p.workOrder = some w' ∧ w'.options = w.options) : t.slotSound x := by
  obtain ⟨h1, ⟨v, p, w, hadm, hper, hrole, hidle, hord, hopt⟩, h3⟩ := h
  obtain ⟨w', hw', heq⟩ := hw p w hper hidle hord
  refine ⟨hb h1, ⟨v, p, w', by rwa [ha], (hp _ ?_).trans hper, hrole, hidle, hw', heq ▸ hopt⟩, fun e he => ?_⟩
  · simp [Slot.holds]
  · obtain ⟨q, hq, hrest⟩ := h3 e he
    exact ⟨q, (hp _ (by simp [Slot.holds, he])).trans hq, hrest⟩

/-- A change that frees no slot and takes none leaves the pairings sound where the slots stay sound (R30, R149). -/
theorem State.pairingsSound.transport (h : s.pairingsSound)
    (hback : ∀ k x', t.slot k = some x' → ∃ x, s.slot k = some x ∧ x'.door = x.door ∧
      (∀ n, x'.holds n = true → x.holds n = true) ∧ (s.slotSound x → t.slotSound x'))
    (hforth : ∀ k x, s.slot k = some x → ∃ x', t.slot k = some x' ∧ x'.door = x.door)
    (hadm : ∀ d, (t.door d).admission.contractorSpace = (s.door d).admission.contractorSpace)
    (hdrain : ∀ n, (t.space n).drain = (s.space n).drain) : t.pairingsSound := by
  obtain ⟨h1, h2, h3, h4⟩ := h
  refine ⟨fun k x' hx' => ?_, fun j k x' y' hx' hy' hor => ?_, fun d hd => ?_, fun n => ?_⟩
  · obtain ⟨x, hx, -, -, hsound⟩ := hback k x' hx'
    exact hsound (h1 k x hx)
  · obtain ⟨x, hx, hxd, hxh, -⟩ := hback j x' hx'
    obtain ⟨y, hy, hyd, hyh, -⟩ := hback k y' hy'
    refine h2 j k x y hx hy (hor.imp (fun he => by rw [← hxd, ← hyd, he]) ?_)
    rintro ⟨n, hn, hn'⟩
    exact ⟨n, hxh n hn, hyh n hn'⟩
  · rw [hadm] at hd
    obtain ⟨k, x, hx, hxd⟩ := h3 d hd
    obtain ⟨x', hx', hd'⟩ := hforth k x hx
    exact ⟨k, x', hx', hd'.trans hxd⟩
  · rw [hdrain, h4]
    refine (State.slotsCounted_congr fun k => ⟨?_, ?_⟩).symm
    · rintro ⟨x', sp, hx', hsp, hn⟩
      obtain ⟨x, hx, hd', -⟩ := hback k x' hx'
      exact ⟨x, sp, hx, by rw [← hd', ← hadm]; exact hsp, hn⟩
    · rintro ⟨x, sp, hx, hsp, hn⟩
      obtain ⟨x', hx', hd'⟩ := hforth k x hx
      exact ⟨x', sp, hx', by rw [hadm, hd']; exact hsp, hn⟩

/-- With the slots as they are. -/
theorem State.pairingsSound.of_slots (h : s.pairingsSound) (hs : t.slot = s.slot)
    (hsound : ∀ k x, s.slot k = some x → s.slotSound x → t.slotSound x)
    (hadm : ∀ d, (t.door d).admission.contractorSpace = (s.door d).admission.contractorSpace)
    (hdrain : ∀ n, (t.space n).drain = (s.space n).drain) : t.pairingsSound :=
  h.transport (fun k x hx => ⟨x, hs ▸ hx, rfl, fun _ hn => hn, hsound k x (hs ▸ hx)⟩)
    (fun _ x hx => ⟨x, hs ▸ hx, rfl⟩) hadm hdrain

/-- The permits that the slots hold are in use and Idle (R149). -/
theorem State.pairingsSound.idle_of_holds {k : SlotNo} {x : Slot} {n : PermitNo} (h : s.pairingsSound)
    (hx : s.slot k = some x) (hn : x.holds n = true) : ∃ p, s.permit n = some p ∧ p.state = .idle := by
  obtain ⟨-, ⟨v, p, w, -, hper, -, hidle, -⟩, h3⟩ := h.1 k x hx
  simp only [Slot.holds, Bool.or_eq_true, beq_iff_eq] at hn
  rcases hn with rfl | hn
  · exact ⟨p, hper, hidle⟩
  · split at hn
    · rename_i e he
      obtain ⟨q, hq, -, hidle, -⟩ := h3 e he
      simp only [beq_iff_eq] at hn
      exact ⟨q, hn ▸ hq, hidle⟩
    · exact nomatch hn

/-- No slot holds a permit that is counted, or out of use. -/
theorem State.pairingsSound.unheld {n : PermitNo} (h : s.pairingsSound)
    (hn : ∀ p, s.permit n = some p → p.state.counted = true) :
    ∀ k x, s.slot k = some x → x.holds n = false := by
  intro k x hx
  by_contra hne
  obtain ⟨p, hp, hidle⟩ := h.idle_of_holds hx (Bool.not_eq_false _ ▸ hne)
  have := hn p hp
  simp [hidle, PermitState.counted] at this

/-! ### The books -/

/-- The laws of the tables that the books take up. -/
def bookLaws : List TableLaw := [.spaces, .roster, .records]

/-- The books of the device balance, and in Lockdown all is quiet, where this is asked (`hush`); the permits of `N` are
held by no slot, and these decisions wait. -/
structure State.Books (hush : Prop) (N : PermitNo → Prop) (W : List Waiting) (s : State) : Prop where
  laws : ∀ L ∈ bookLaws, L.Holds none s
  orders : s.workOrdersSound
  permits : s.permitsSound
  pairings : s.pairingsSound
  rooms : s.roomsSound
  parties : s.partiesSound
  quiet : hush → s.lockdownQuiet
  unheld : ∀ n k x, N n → s.slot k = some x → x.holds n = false
  line : s.waiting = W

namespace State.Books

variable {hush : Prop} {N : PermitNo → Prop} {W : List Waiting}

theorem booksBalance (h : s.Books True N W) : s.booksBalance ∧ s.lockdownQuiet :=
  ⟨⟨h.laws .spaces (by simp [bookLaws]), (h.laws .roster (by simp [bookLaws])).1, h.orders, h.permits, h.pairings,
    h.laws .records (by simp [bookLaws]), State.loadsSound_iff.2 ⟨h.rooms, h.parties⟩⟩, h.quiet trivial⟩

theorem of_booksBalance (h : s.booksBalance) (hq : s.lockdownQuiet) (hw : s.waiting = []) :
    s.Books True (fun _ => False) [] := by
  obtain ⟨hs, hr, ho, hp, hpair, hrec, hl⟩ := h
  refine ⟨fun L hL => ?_, ho, hp, hpair, (State.loadsSound_iff.1 hl).1, (State.loadsSound_iff.1 hl).2, fun _ => hq,
    fun _ _ _ hn => hn.elim, hw⟩
  simp only [bookLaws, List.mem_cons, List.not_mem_nil, or_false] at hL
  rcases hL with rfl | rfl | rfl
  · exact hs
  · exact ⟨hr, by simp [hw]⟩
  · exact hrec

/-- Other permits may be asked to be held by no slot. -/
theorem hold {M : PermitNo → Prop} (h : s.Books hush N W) (hm : ∀ n k x, M n → s.slot k = some x → x.holds n = false) :
    s.Books hush M W := { h with unheld := hm }

/-- No switch under way matters to the laws taken up. -/
theorem laws_any {L : TableLaw} (hL : L ∈ bookLaws) {f g : Option SpaceNo}
    (h : L.Holds f s) : L.Holds g s := by
  simp only [bookLaws, List.mem_cons, List.not_mem_nil, or_false] at hL
  rcases hL with rfl | rfl | rfl <;> exact h

end State.Books

end Sys2Proof.Machine

/-! SUPPORT. What the end of a pairing changes: its slot, its door, and the drain counts of its spaces (R30, R31, R151); and
the forced switch (R32). -/

namespace Sys2Proof.Machine

open State (changesOnly_refl)

variable {s : State} {f : Option SpaceNo} {k : SlotNo} {d : DoorId} {x : Slot}

/-! ### Drain counts -/

/-- How often an admission is counted in a space (R30). -/
def Admission.counts (a : Admission) (n : SpaceNo) : Nat :=
  match a.contractorSpace with
  | none => 0
  | some sp => (countedSpaces sp).count n

theorem Admission.counts_pos {a : Admission} {n : SpaceNo} :
    0 < a.counts n ↔ ∃ sp, a.contractorSpace = some sp ∧ n ∈ countedSpaces sp := by
  unfold Admission.counts
  split <;> rename_i h <;> simp [h, List.count_pos_iff]

theorem State.countsIn_iff {n : SpaceNo} :
    s.countsIn n k ↔ ∃ x, s.slot k = some x ∧ 0 < (s.door x.door).admission.counts n := by
  simp only [State.countsIn, Admission.counts_pos, exists_and_left]

/-- A space record after its drain count is lowered: a count that reaches 0 under Go makes the staged descriptor
current, but not while the space's own forced switch is under way (R31, R32). -/
def SpaceRecord.lowered (r : SpaceRecord) (forced : Bool) : SpaceRecord :=
  match r.waiting with
  | none => { r with drain := r.drain - 1 }
  | some w =>
    if r.drain - 1 = 0 ∧ forced = false then ⟨some w.descriptor, none, r.generation + 1, r.drain - 1⟩
    else { r with drain := r.drain - 1 }

theorem State.lowerDrain_space (s : State) (f : Option SpaceNo) (n m : SpaceNo) :
    (s.lowerDrain f n).space m = if m = n then (s.space n).lowered (f = some n) else s.space m := by
  unfold State.lowerDrain State.applySwitch SpaceRecord.lowered SpaceRecord.go
  cases hr : s.space n with
  | mk current waiting generation drain =>
    cases waiting with
    | none => simp [State.setSpace_space]
    | some w =>
      by_cases hz : drain - 1 = 0 ∧ f ≠ some n
      · simp [hz.1, hz.2, State.notify, State.setSpace_space]
      · have hz' : ¬ (drain - 1 = 0 ∧ decide (f = some n) = false) := by simpa using hz
        simp only [Option.isSome_some, true_and, hz, hz', if_false]
        exact State.setSpace_space ..

theorem State.lowerDrain_drain (s : State) (f : Option SpaceNo) (n m : SpaceNo) :
    ((s.lowerDrain f n).space m).drain = (s.space m).drain - if m = n then 1 else 0 := by
  rw [State.lowerDrain_space]
  split_ifs with h
  · subst h
    unfold SpaceRecord.lowered
    split
    · rfl
    · split_ifs <;> rfl
  · rfl

/-- Several drain counts lowered, each as often as its space is named. -/
theorem State.foldl_lowerDrain_drain (f : Option SpaceNo) (m : SpaceNo) (ns : List SpaceNo) (s : State) :
    ((ns.foldl (fun s n => s.lowerDrain f n) s).space m).drain = (s.space m).drain - ns.count m := by
  induction ns generalizing s with
  | nil => rfl
  | cons n ns ih =>
    rw [List.foldl_cons, ih, State.lowerDrain_drain, List.count_cons]
    by_cases h : m = n
    · subst h
      simp only [if_true, beq_self_eq_true]
      omega
    · simp [h, Ne.symm h]

/-- A space whose forced switch is under way keeps all but its drain count (R32). -/
theorem State.foldl_lowerDrain_forced (m : SpaceNo) (ns : List SpaceNo) (s : State) :
    (ns.foldl (fun s n => s.lowerDrain (some m) n) s).space m =
      { s.space m with drain := (s.space m).drain - ns.count m } := by
  induction ns generalizing s with
  | nil => rfl
  | cons n ns ih =>
    rw [List.foldl_cons, ih, State.lowerDrain_space, List.count_cons]
    by_cases h : m = n
    · subst h
      have hlow : (s.space m).lowered (decide (some m = some m)) = { s.space m with drain := (s.space m).drain - 1 } := by
        unfold SpaceRecord.lowered
        split
        · rfl
        · simp
      rw [if_pos rfl, hlow, if_pos (beq_self_eq_true m)]
      simp only [SpaceRecord.mk.injEq, true_and]
      omega
    · simp [h, Ne.symm h]

/-! ### The end of a pairing (R151) -/

/-- What a door is left as when its admission is denied: Idle, its verdicts marked as ended, and the deny behind them. -/
def Door.denied (x : Door) (v : Verdict) : Door :=
  { x with admission := .idle, outgoing := x.outgoing.map Verdict.ended ++ [v] }

theorem State.endPairing_changes (s : State) (k : SlotNo) (d : DoorId) (f : Option SpaceNo) :
    ((s.setSlot k none).endAdmission d).changesOnly [.spaces, .ports] (s.endPairing k d f) := by
  unfold State.endPairing
  dsimp only
  split
  · exact changesOnly_refl _ _
  · exact (changesOnly_refl _ _).foldl fun u _ _ => (changesOnly_refl _ u).lowerDrain (by simp)

theorem State.endPairing_drain (s : State) (k : SlotNo) (d : DoorId) (f : Option SpaceNo) (m : SpaceNo) :
    ((s.endPairing k d f).space m).drain = (s.space m).drain - (s.door d).admission.counts m := by
  unfold State.endPairing Admission.counts
  dsimp only
  cases (s.door d).admission.contractorSpace
  · rfl
  · exact State.foldl_lowerDrain_drain ..

theorem State.endPairing_forced (s : State) (k : SlotNo) (d : DoorId) (m : SpaceNo) :
    (s.endPairing k d (some m)).space m =
      { s.space m with drain := (s.space m).drain - (s.door d).admission.counts m } := by
  unfold State.endPairing Admission.counts
  dsimp only
  cases (s.door d).admission.contractorSpace
  · rfl
  · exact State.foldl_lowerDrain_forced ..

/-- A pairing is denied as it ends: the verdict goes to its door and a DENIED for each name to the ports. -/
theorem State.denyPairing_changes {c : DenyCode} (hx : s.slot k = some x) (verdict : Bool) :
    (if verdict then (s.endPairing k x.door f).addVerdict x.door ⟨.deny c, s.pairingCredentials x, false⟩
      else s.endPairing k x.door f).changesOnly [.ports] (s.denyPairing k c f verdict) := by
  unfold State.denyPairing
  rw [hx]
  exact (changesOnly_refl _ _).foldl fun u _ _ => (changesOnly_refl _ u).notifyDenied (by simp)

theorem State.denyPairing_slot {c : DenyCode} (hx : s.slot k = some x) (verdict : Bool) (j : SlotNo) :
    (s.denyPairing k c f verdict).slot j = if j = k then none else s.slot j := by
  rw [(State.denyPairing_changes hx verdict).slot_eq (by decide)]
  have h : (s.endPairing k x.door f).slot j = if j = k then none else s.slot j := by
    rw [(s.endPairing_changes k x.door f).slot_eq (by decide)]
    exact State.setSlot_slot ..
  cases verdict <;> exact h

theorem State.denyPairing_space {c : DenyCode} (hx : s.slot k = some x) (verdict : Bool) :
    (s.denyPairing k c f verdict).space = (s.endPairing k x.door f).space := by
  rw [(State.denyPairing_changes hx verdict).space_eq (by decide)]
  cases verdict <;> rfl

theorem State.denyPairing_door {c : DenyCode} (hx : s.slot k = some x) (e : DoorId) :
    (s.denyPairing k c f true).door e =
      if e = x.door then (s.door x.door).denied ⟨.deny c, s.pairingCredentials x, false⟩ else s.door e := by
  rw [(State.denyPairing_changes hx true).door_eq (by decide), if_pos rfl]
  have hend : (s.endPairing k x.door f).door = ((s.setSlot k none).endAdmission x.door).door :=
    (s.endPairing_changes k x.door f).door_eq (by decide)
  unfold State.addVerdict
  rw [State.setDoor_door, hend]
  unfold State.endAdmission
  rw [State.setDoor_door_self, State.setDoor_door]
  split_ifs <;> rfl

/-- The credentials that a deny names depend on the permits alone. -/
theorem State.pairingCredentials_eq {t : State} (h : t.permits = s.permits) (x : Slot) :
    t.pairingCredentials x = s.pairingCredentials x := by
  have hper : ∀ n, t.permit n = s.permit n := fun n => congrArg (Vector.get · n) h
  simp only [State.pairingCredentials, State.credentialOf, hper]

/-! ### The forced switch (R32) -/

/-- The parts that the end of a pairing changes. -/
def pairingFields : List Field := [.spaces, .doors, .slots, .ports]

/-- The admissions of some slots, at doors of their own and each counted in a space, are abandoned one after the other
under the space's forced switch. -/
theorem State.abandoned_all {n : SpaceNo} (l : List SlotNo) (s : State) (hl : l.Nodup)
    (hin : ∀ k ∈ l, ∃ x, s.slot k = some x ∧ 0 < (s.door x.door).admission.counts n)
    (hdoors : ∀ j k x y, s.slot j = some x → s.slot k = some y → x.door = y.door → j = k) :
    ∃ t, l.foldl (fun s k => s.denyPairing k .spaceSwitched (some n) true) s = t ∧ s.changesOnly pairingFields t ∧
      (∃ e, e ≤ (s.space n).drain - l.length ∧ t.space n = { s.space n with drain := e }) ∧
      (∀ k, t.slot k = if k ∈ l then none else s.slot k) ∧
      (∀ k x, k ∈ l → s.slot k = some x →
        t.door x.door = (s.door x.door).denied ⟨.deny .spaceSwitched, s.pairingCredentials x, false⟩) ∧
      (∀ d, (∀ k x, k ∈ l → s.slot k = some x → x.door ≠ d) → t.door d = s.door d) := by
  induction l generalizing s with
  | nil => exact ⟨s, rfl, changesOnly_refl _ s, ⟨_, Nat.le_refl _, rfl⟩, by simp, by simp, fun _ _ => rfl⟩
  | cons k l ih =>
    obtain ⟨hk, hl⟩ := List.nodup_cons.1 hl
    obtain ⟨x, hx, hcount⟩ := hin k List.mem_cons_self
    have hchanges : s.changesOnly pairingFields (s.denyPairing k .spaceSwitched (some n) true) :=
      (changesOnly_refl _ s).denyPairing (by simp [pairingFields])
    have hslot := fun j => State.denyPairing_slot (c := .spaceSwitched) (f := some n) hx true j
    have hdoor := fun e => State.denyPairing_door (c := .spaceSwitched) (f := some n) hx e
    have hspace : (s.denyPairing k .spaceSwitched (some n) true).space n =
        { s.space n with drain := (s.space n).drain - (s.door x.door).admission.counts n } := by
      rw [State.denyPairing_space hx, State.endPairing_forced]
    rw [List.foldl_cons]
    generalize s.denyPairing k .spaceSwitched (some n) true = u at *
    have hback : ∀ j y, u.slot j = some y → j ≠ k ∧ s.slot j = some y := by
      intro j y hy
      rw [hslot] at hy
      split_ifs at hy with hj
      exact ⟨hj, hy⟩
    have hforth : ∀ j y, j ≠ k → s.slot j = some y → u.slot j = some y ∧ y.door ≠ x.door := by
      intro j y hj hy
      exact ⟨by rw [hslot, if_neg hj, hy], fun he => hj (hdoors j k y x hy hx he)⟩
    have hne : ∀ j ∈ l, j ≠ k := fun j hj he => hk (he ▸ hj)
    obtain ⟨t, ht, htc, ⟨e, he, hte⟩, hts, htd, hto⟩ := ih u hl
      (fun j hj => by
        obtain ⟨y, hy, hyc⟩ := hin j (List.mem_cons_of_mem _ hj)
        obtain ⟨hu, hyd⟩ := hforth j y (hne j hj) hy
        exact ⟨y, hu, by rwa [hdoor, if_neg hyd]⟩)
      fun i j y z hy hz => hdoors i j y z (hback i y hy).2 (hback j z hz).2
    refine ⟨t, ht, hchanges.trans htc, ⟨e, ?_, ?_⟩, fun j => ?_, fun j y hj hy => ?_, fun d hd => ?_⟩
    · have hdrain := congrArg SpaceRecord.drain hspace
      dsimp only at hdrain
      simp only [List.length_cons]
      omega
    · rw [hte, hspace]
    · rw [hts, hslot]
      by_cases hj : j = k
      · simp [hj]
      · simp [hj]
    · by_cases hjk : j = k
      · subst hjk
        rw [hx, Option.some.injEq] at hy
        subst hy
        rw [hto x.door fun i z hi hz => (hforth i z (hne i hi) (hback i z hz).2).2, hdoor, if_pos rfl]
      · obtain ⟨hu, hyd⟩ := hforth j y hjk hy
        rw [htd j y ((List.mem_cons.1 hj).resolve_left hjk) hu, hdoor, if_neg hyd,
          State.pairingCredentials_eq (hchanges .permits (by decide))]
    · rw [hto d fun i z hi hz => hd i z (List.mem_cons_of_mem _ hi) (hback i z hz).2, hdoor,
        if_neg fun he => hd k x List.mem_cons_self hx he.symm]

/-- Settles O13. -/
theorem forcedSwitchAbandonsAndApplies : Obligations.ForcedSwitchAbandonsAndApplies := by
  unfold Obligations.ForcedSwitchAbandonsAndApplies
  intro s n
  have hout : exec (.switchDeadline n) s = execSwitchDeadline n s := rfl
  dsimp only
  rw [hout]
  unfold execSwitchDeadline
  refine ⟨fun h => ?_, fun w hpair hw hdue => ?_⟩
  · cases hw : (s.space n).waiting with
    | none => rfl
    | some w => simp [Nat.not_le.2 (h w hw)]
  · obtain ⟨-, hown, -, hdrain⟩ := hpair
    have hmem : ∀ k, k ∈ s.byContractor (s.slotsCounted n) ↔ k ∈ s.slotsCounted n := fun _ => State.mem_byContractor
    have hnodup : (s.slotsCounted n).Nodup := nodup_numbersWhere ..
    have hlen : (s.byContractor (s.slotsCounted n)).length = (s.slotsCounted n).length :=
      ((List.perm_ext_iff_of_nodup (State.nodup_byContractor.2 hnodup) hnodup).2 hmem).length_eq
    obtain ⟨t, ht, hc, ⟨e, he, hspace⟩, hslots, hdoors, hothers⟩ :=
      State.abandoned_all (n := n) (s.byContractor (s.slotsCounted n)) s (State.nodup_byContractor.2 hnodup)
        (fun k hk => State.countsIn_iff.1 (State.mem_slotsCounted.1 ((hmem k).1 hk)))
        fun j k x y hx hy he => hown j k x y hx hy (.inl he)
    have he0 : e = 0 := by
      rw [hlen, hdrain n] at he
      omega
    subst he0
    have hwt : (t.space n).waiting = some w := by rw [hspace, ← hw]
    refine ⟨s.forceSwitch n, by simp [hw, hdue], ?_⟩
    have hforce : s.forceSwitch n = (t.setSpace n ⟨some w.descriptor, none, (s.space n).generation + 1, 0⟩).notify
        w.descriptor.authority
        (.spaceSwitched n ((s.space n).generation + 1) .forced (s.slotsCounted n).length) := by
      unfold State.forceSwitch State.applySwitch
      simp only [ht, hspace, hw]
    rw [hforce]
    refine ⟨(hc.setSpace (by simp [pairingFields])).notify (by simp [pairingFields]), ?_, fun k hk => ?_, fun k hk => ?_,
      fun k x hk hx => ?_, fun d hd => ?_⟩
    · exact State.setSpace_space_self ..
    · exact (hslots k).trans (if_pos ((hmem k).2 hk))
    · exact (hslots k).trans (if_neg fun h => hk ((hmem k).1 h))
    · exact hdoors k x ((hmem k).2 hk) hx
    · exact hothers d fun k x hk hx => hd k x ((hmem k).1 hk) hx

end Sys2Proof.Machine

/-! SUPPORT. What stands beside a decision while requests are served (R38): a property of states, with the decisions taken
out of the line, that what meets a request keeps where it leaves the decisions in hand as they are; and what an ESTATE
CLEAR leaves, which discards them all. -/

namespace Sys2Proof.Machine

/-- A property `I` of the decisions taken out of the line and the state, which the service of requests keeps while the
decisions `kept` of the row in hand wait, and a property `D` of what an ESTATE CLEAR leaves. -/
structure KeptBeside (kept : List Party) (I : List Errand → State → Prop) (D : State → Prop) : Prop where
  row : ∀ {own : List Party} {es : List Errand} {s t : State} {i : Instr}, I es s → (∀ x ∈ kept, x ∈ own) →
    (∀ e ∈ es, e.party ∈ own) → rowEffect i s = some t → s.clearedBy i = false →
    (∀ x ∈ own ++ s.parties, x.decision.leavesFree s i = true) →
    (∀ x ∈ own ++ s.parties, x.decision.keeps x.room s t = true ∧ x.decision.sparedBy s i = true ∧
      ∀ z ∈ t.parties.drop s.waiting.length, x.decision.apart z.decision = true) → I es t
  clear : ∀ {es : List Errand} {s t : State} {i : Instr} {x : Party}, I es s → rowEffect i s = some t →
    s.clearedBy i = true → x.decision.leavesFree s i = true → D (s.waiting.foldl State.discard t)
  cache : ∀ {es : List Errand} {s : State} (v : List CacheEntry), I es s → I es { s with cache := v }
  meetings : ∀ {es : List Errand} {s : State} (v : List Meetings), I es s → I es { s with meetings := v }
  cacheCleared : ∀ {s : State} (v : List CacheEntry), D s → D { s with cache := v }
  discard : ∀ {s : State} (w : Waiting), D s → D (s.discard w)
  cut : ∀ {s : State} {l rest : List Waiting}, I [] s → s.waiting = l ++ rest →
    I (l.map Waiting.errand) { s with waiting := rest }
  wait : ∀ {es : List Errand} {e : Errand} {s : State} (asks : WaitingFor), I (e :: es) s → I es (s.wait e asks)
  resume : ∀ {es : List Errand} {e : Errand} {s : State} (rights : Resolution (GrantSummary × OverlaySummary)),
    I (e :: es) s → (∀ x ∈ kept, x.decision.keeps x.room s (s.resume rights e) = true) → I es (s.resume rights e)

/-- What a request has come to: the property of its end, where an ESTATE CLEAR has discarded it and where none has. -/
def Progress.Stands (I D : State → Prop) (y : Progress) : Prop :=
  (y.cleared = true → D y.state) ∧ (y.cleared = false → I y.state)

/-- A request made of a list is answered: with what is left where it was discarded, and where it was not. -/
def Resolution.Stands {α : Type} (I D : State → Prop) (r : State × Resolution α) : Prop :=
  (r.2 = .discarded → D r.1) ∧ (r.2 ≠ .discarded → I r.1)

theorem handOver_stands {α : Type} {I D : State → Prop} {y : Progress} (o : Except DenyCode α) (h : y.Stands I D) :
    Resolution.Stands I D (y.handOver o) := by
  unfold Progress.handOver
  cases hc : y.cleared
  · cases o <;> exact ⟨nofun, fun _ => h.2 hc⟩
  · exact ⟨fun _ => h.1 hc, fun hne => absurd rfl hne⟩

/-- A judgement of rights is never a discarded one. -/
theorem State.judgeRights_ne_discarded (s : State) (n : SpaceNo) (w : WorkOrder) (ow : Option Window) (m : Nat)
    (g : GrantSummary) (o : OverlaySummary) : s.judgeRights n w ow m g o ≠ .discarded := by
  unfold State.judgeRights
  split_ifs <;> nofun

namespace KeptBeside

variable {kept own : List Party} {I : List Errand → State → Prop} {D : State → Prop} {es : List Errand} {s : State}
  {n : SpaceNo} {r : Designator} {met : Meetings} {x : Decision} {y : Progress}

/-! ### One request -/

section
variable (k : KeptBeside kept I D) (hk : ∀ x ∈ kept, x ∈ own) (he : ∀ e ∈ es, e.party ∈ own) (ho : own ≠ [])
include k hk he ho

theorem take (i : Instr) (h : y.Stands (I es) D) : (y.take own n r i).Stands (I es) D := by
  rcases y.take_cases own n r i with hy | ⟨t, ht, hc, hfree, ⟨hclear, hy⟩ | ⟨hclear, hkeep, hy⟩⟩ <;> rw [hy]
  · exact h
  · obtain ⟨p, hp⟩ := List.exists_mem_of_ne_nil own ho
    exact ⟨fun _ => k.clear (h.2 hc) ht hclear (hfree p (List.mem_append_left _ hp)), nofun⟩
  · exact ⟨nofun, fun _ => k.row (h.2 hc) hk he ht hclear hfree hkeep⟩

theorem takeAll (l : List Instr) (h : y.Stands (I es) D) : (l.foldl (Progress.take own n r) y).Stands (I es) D :=
  foldl_keeps (I := Progress.Stands (I es) D) h fun _ i _ hu => k.take hk he ho i hu

theorem meet (h : y.Stands (I es) D) : (y.meet own n r met).2.Stands (I es) D :=
  k.takeAll hk he ho _ (k.takeAll hk he ho _ (k.takeAll hk he ho _ (k.takeAll hk he ho _ h)))

theorem beginRequest (h : I es s) : (s.beginRequest own n r met).Stands (I es) D :=
  k.takeAll (y := ⟨s, false, false⟩) hk he ho _ ⟨nofun, fun _ => h⟩

omit hk he ho in
theorem touch (e : CacheEntry) (h : y.Stands (I es) D) : (y.touch e).Stands (I es) D :=
  ⟨fun hc => k.cacheCleared _ (h.1 hc), fun hc => k.cache _ (h.2 hc)⟩

omit hk he ho in
theorem fill (e : CacheEntry) (h : y.Stands (I es) D) : (y.fill e).Stands (I es) D := by
  unfold Progress.fill
  split
  · exact h
  · exact ⟨fun hc => k.cacheCleared _ (h.1 hc), fun hc => k.cache _ (h.2 hc)⟩

theorem serveGrant (h : I es s) : Resolution.Stands (I es) D (Machine.serveGrant own n r met s) := by
  have hb := k.beginRequest (n := n) (r := r) (met := met) hk he ho h
  have hy := k.meet (n := n) (r := r) (met := met) hk he ho hb
  unfold Machine.serveGrant
  dsimp only
  split
  · exact handOver_stands _ hy
  · split
    · exact handOver_stands _ (k.meet hk he ho (k.touch _ hb))
    · split
      · exact handOver_stands _ hy
      · exact handOver_stands _ (k.fill _ hy)

theorem serveOverlay (h : I es s) : Resolution.Stands (I es) D (Machine.serveOverlay own r met s) := by
  have hb := k.beginRequest (n := 0) (r := r) (met := met) hk he ho h
  have hy := k.meet (n := 0) (r := r) (met := met) hk he ho hb
  unfold Machine.serveOverlay
  dsimp only
  split
  · exact handOver_stands _ hy
  · split
    · exact handOver_stands _ (k.meet hk he ho (k.touch _ hb))
    · split
      · exact handOver_stands _ hy
      · exact handOver_stands _ (k.fill _ hy)

end

/-! ### The line -/

/-- A decision taken out of the line ends, or comes behind those of the list. -/
theorem conclude (k : KeptBeside kept I D) {e : Errand} (rights : Resolution (GrantSummary × OverlaySummary))
    (h : I (e :: es) s) : I es (s.conclude kept e rights) := by
  unfold State.conclude
  dsimp only
  split
  · rename_i hall
    exact k.resume rights h (List.all_eq_true.1 hall)
  · exact k.wait _ h

theorem serveFront (k : KeptBeside kept I D) (hk : ∀ x ∈ kept, x ∈ own) (h : I [] s) :
    ((s.serveFront own kept met).2 = true → D (s.serveFront own kept met).1) ∧
      ((s.serveFront own kept met).2 = false → I [] (s.serveFront own kept met).1) := by
  unfold State.serveFront
  split
  · exact ⟨nofun, fun _ => h⟩
  · rename_i w rest hw
    have h0 : I [w.errand] { s with waiting := rest } := k.cut (l := [w]) h hw
    have hk' : ∀ x ∈ kept, x ∈ w.errand.party :: own := fun x hx => List.mem_cons_of_mem _ (hk x hx)
    have he' : ∀ e ∈ [w.errand], e.party ∈ w.errand.party :: own := by simp
    dsimp only
    split
    · have hg := k.serveGrant (n := w.errand.space) (r := w.errand.party.room) (met := met) hk' he' (by simp) h0
      split <;> rename_i hq <;> rw [hq] at hg
      · exact ⟨fun _ => k.discard w (hg.1 rfl), nofun⟩
      · exact ⟨nofun, fun _ => k.conclude _ (hg.2 nofun)⟩
      · exact ⟨nofun, fun _ => k.wait _ (hg.2 nofun)⟩
    · have hg := k.serveOverlay (r := w.errand.party.room) (met := met) hk' he' (by simp) h0
      split <;> rename_i hq <;> rw [hq] at hg
      · exact ⟨fun _ => k.discard w (hg.1 rfl), nofun⟩
      · exact ⟨nofun, fun _ => k.conclude _ (hg.2 nofun)⟩
      · exact ⟨nofun, fun _ => k.conclude _ (hg.2 nofun)⟩
    · exact ⟨nofun, fun _ => k.conclude _ h0⟩

theorem serveAhead (k : KeptBeside kept I D) {m : Nat} (h : I [] s) :
    ((s.serveAhead kept m).2 = true → D (s.serveAhead kept m).1) ∧
      ((s.serveAhead kept m).2 = false → I [] (s.serveAhead kept m).1) := by
  induction m generalizing s with
  | zero => exact ⟨nofun, fun _ => h⟩
  | succ m ih =>
    unfold State.serveAhead
    have h1 : let f := if s.frontAsks then s.served.serveFront kept kept s.meeting else s.serveFront kept kept .none
        (f.2 = true → D f.1) ∧ (f.2 = false → I [] f.1) := by
      dsimp only
      split
      · exact k.serveFront (fun _ hx => hx) (k.meetings _ h)
      · exact k.serveFront (fun _ hx => hx) h
    split <;> rename_i hq <;> rw [hq] at h1
    · exact ⟨fun _ => h1.1 rfl, nofun⟩
    · exact ih (h1.2 rfl)

/-! ### The requests of the row in hand -/

section
variable (k : KeptBeside [⟨x, r⟩] I D)
include k

theorem resolveGrant (h : I [] s) : Resolution.Stands (I []) D (Machine.resolveGrant x n r s) := by
  have h1 := k.serveAhead (m := s.waiting.length) h
  unfold Machine.resolveGrant
  split <;> rename_i hq <;> rw [hq] at h1
  · exact ⟨fun _ => h1.1 rfl, fun hne => absurd rfl hne⟩
  · exact k.serveGrant (fun _ hx => hx) (by simp) (by simp) (k.meetings _ (h1.2 rfl))

theorem resolveOverlay (h : I [] s) : Resolution.Stands (I []) D (Machine.resolveOverlay x r s) := by
  have h1 := k.serveAhead (m := s.waiting.length) h
  unfold Machine.resolveOverlay
  split <;> rename_i hq <;> rw [hq] at h1
  · exact ⟨fun _ => h1.1 rfl, fun hne => absurd rfl hne⟩
  · exact k.serveOverlay (fun _ hx => hx) (by simp) (by simp) (k.meetings _ (h1.2 rfl))

/-- The checks of the rights to a room, discarded or not. -/
theorem checkRights {w : WorkOrder} {ow : Option Window} {m : Nat} (h : I [] s) :
    Resolution.Stands (I []) D (Machine.checkRights x n r w ow m s) := by
  have h1 := k.resolveGrant (n := n) h
  unfold Machine.checkRights
  rcases hg : Machine.resolveGrant x n r s with ⟨s1, g | c | _⟩ <;> rw [hg] at h1
  · have h2 := k.resolveOverlay (h1.2 nofun)
    rcases ho : Machine.resolveOverlay x r s1 with ⟨s2, ov | c | _⟩ <;> rw [ho] at h2 <;> simp only [ho]
    · refine ⟨fun hd => ?_, fun _ => h2.2 nofun⟩
      exact (State.judgeRights_ne_discarded _ _ _ _ _ _ _ hd).elim
    · exact ⟨nofun, fun _ => h2.2 nofun⟩
    · exact ⟨fun _ => h2.1 rfl, fun hne => absurd rfl hne⟩
  · exact ⟨nofun, fun _ => h1.2 nofun⟩
  · exact ⟨fun _ => h1.1 rfl, fun hne => absurd rfl hne⟩

end

end KeptBeside

end Sys2Proof.Machine

/-! SUPPORT. What the checks of a decision's rights leave of what it is about, and an Enter presentation that begins a
pairing (R30, R134, R139, R150). -/

namespace Sys2Proof.Machine

open State (changesOnly_refl)

variable {s t u : State} {d : DoorId} {c : Credential} {r : Designator} {x : Decision}

/-! ### What a decision is about, through its requests -/

theorem State.sameDoor_iff : s.sameDoor t d = true ↔ t.door d = s.door d ∧ (t.lane d.lane).held = (s.lane d.lane).held ∧
    t.slotOf d = s.slotOf d ∧ (t.slotOf d).bind t.slot = (s.slotOf d).bind s.slot := by
  simp [State.sameDoor, and_assoc]

theorem Decision.keeps_refl (x : Decision) (r : Designator) (s : State) : x.keeps r s s = true :=
  Decision.keeps_iff.2 ⟨rfl, rfl, fun _ _ => State.sameDoor_iff.2 ⟨rfl, rfl, rfl, rfl⟩, fun _ _ => rfl, fun _ _ => rfl,
    fun _ _ => rfl⟩

theorem Decision.keeps_trans (h : x.keeps r s t = true) (h' : x.keeps r t u = true) : x.keeps r s u = true := by
  rw [Decision.keeps_iff] at h h' ⊢
  obtain ⟨h1, h2, h3, h4, h5, h6⟩ := h
  obtain ⟨g1, g2, g3, g4, g5, g6⟩ := h'
  refine ⟨g1.trans h1, g2.trans h2, fun d hd => ?_, fun q hq => (g4 q hq).trans (h4 q hq),
    fun m hm => (g5 m hm).trans (h5 m hm), fun w hw => (g6 w hw).trans (h6 w hw)⟩
  obtain ⟨a1, a2, a3, a4⟩ := State.sameDoor_iff.1 (h3 d hd)
  obtain ⟨b1, b2, b3, b4⟩ := State.sameDoor_iff.1 (g3 d hd)
  exact State.sameDoor_iff.2 ⟨b1.trans a1, b2.trans a2, b3.trans a3, b4.trans a4⟩

/-- What a decision of the row in hand is about is the same as when its requests began, while none has been discarded. -/
theorem Decision.keptBeside (x : Decision) (r : Designator) (s : State) :
    KeptBeside [⟨x, r⟩] (fun _ t => x.keeps r s t = true) fun _ => True where
  row h hk _ _ _ _ hkeep :=
    Decision.keeps_trans h (hkeep _ (List.mem_append_left _ (hk _ List.mem_cons_self))).1
  clear _ _ _ _ := trivial
  cache _ h := h
  meetings _ h := h
  cacheCleared _ _ := trivial
  discard _ _ := trivial
  cut h _ := h
  wait _ h := h
  resume _ h hk := Decision.keeps_trans h (hk _ List.mem_cons_self)

/-- The checks of the rights to a room leave what their decision is about as it was, unless they are discarded. -/
theorem checkRights_keeps {n : SpaceNo} {w : WorkOrder} {ow : Option Window} {m : Nat}
    (h : (checkRights x n r w ow m s).2 ≠ .discarded) : x.keeps r s (checkRights x n r w ow m s).1 = true :=
  ((x.keptBeside r s).checkRights (x.keeps_refl r s)).2 h

/-! ### A report that answers a poll (R134, R163) -/

theorem State.answerPresent_polled {f : State → State} (hc : c ≠ 0) (hp : (s.lane d.lane).phase = .polling)
    (ha : (s.lane d.lane).position = d.address) :
    s.answerPresent d c f = f ((s.endTurn d.lane).announce d) := by
  rw [State.answerPresent, if_neg hc, State.answerPoll, if_pos hp, if_pos ha.symm]

theorem State.announce_changes (s : State) (d : DoorId) : s.changesOnly [.doors, .ports] (s.announce d) := by
  unfold State.announce
  dsimp only
  split
  · exact (changesOnly_refl _ s).setDoor (by decide)
  all_goals exact ((changesOnly_refl _ s).setDoor (by decide)).notify (by decide)

theorem State.announce_polled_changes (s : State) (d : DoorId) :
    s.changesOnly [.doors, .lanes, .ports] ((s.endTurn d.lane).announce d) :=
  State.changesOnly.trans (t := s.endTurn d.lane) ((changesOnly_refl _ s).setLane (by decide))
    ((State.announce_changes _ d).mono (by decide))

/-- A door whose report answers a poll is Ready with no miss, and otherwise as it was. -/
theorem State.announce_polled_door (s : State) (d : DoorId) :
    ((s.endTurn d.lane).announce d).door d = { s.door d with presence := .ready, misses := 0 } := by
  have h : ((s.endTurn d.lane).setDoor d { s.door d with presence := .ready, misses := 0 }).door d =
      { s.door d with presence := .ready, misses := 0 } := State.setDoor_door_self ..
  unfold State.announce
  dsimp only
  split <;> exact h

theorem State.announce_polled_held (s : State) (d : DoorId) :
    (((s.endTurn d.lane).announce d).lane d.lane).held = (s.lane d.lane).held := by
  have h : ((s.endTurn d.lane).lane d.lane).held = (s.lane d.lane).held := by
    unfold State.endTurn
    rw [State.setLane_lane_self]
  rw [((s.endTurn d.lane).announce_changes d).lane_eq (by decide), h]

/-! ### An Enter presentation at an Idle door, up to its requests (R136, R137) -/

theorem State.permitOf_eq_of_distinct {n : PermitNo} {q : Permit} (h : s.credentialsDistinct)
    (hq : s.permit n = some q) (hc : q.credential = c) : s.permitOf c = some n :=
  State.permitOf_eq_some.2 ⟨⟨q, hq, hc⟩, fun m hm p hp hpc => absurd (h m n p q hp hq (hpc.trans hc.symm)) (ne_of_lt hm)⟩

theorem State.slotHolding_eq_none {n : PermitNo} (h : ∀ j y, s.slot j = some y → y.holds n = false) :
    s.slotHolding n = none := by
  refine lowest_eq_none.2 fun j => ?_
  split
  · exact h j _ ‹_›
  · rfl

/-- A credential bound to an Idle permit that no slot holds, of an Active work order whose days contain today, asks for the
rights of the option selected (R136, R137). -/
theorem State.enterStage_contractor {b : Binding} {time : ClockTime} {n : PermitNo} {q : Permit} {w : WorkOrder}
    {o : WorkOption} (ha : (s.door d).admission = .idle) (hb : (s.door d).binding = some b)
    (hh : (s.lane d.lane).held = false) (ht : s.clock = some time) (hp : s.posture ≠ .lockdown)
    (hn : s.permitOf c = some n) (hq : s.permit n = some q) (hrev : q.revoked = false) (hidle : q.state = .idle)
    (hslot : s.slotHolding n = none) (hw : s.workOrder q.workOrder = some w) (hact : w.state = .active)
    (hday : w.dayPasses time.day = true) (hopt : w.selectedOption = some o) :
    s.enterStage d c = .contractor ⟨d, c, b.room, n, q, w, o, time, s.count⟩ := by
  have hcounted : q.state.counted = false := by rw [hidle]; rfl
  simp [State.enterStage, ha, State.enterIdle, hb, hh, ht, hp, hn, hq, State.enterWithPermit, hrev, hcounted, hslot, hw,
    hact, hday, hopt]

/-! ### The beginning of a pairing (R30, R150) -/

theorem State.foldl_raiseDrain_space (m : SpaceNo) (ns : List SpaceNo) (s : State) :
    (ns.foldl State.raiseDrain s).space m = { s.space m with drain := (s.space m).drain + ns.count m } := by
  induction ns generalizing s with
  | nil => rfl
  | cons n ns ih =>
    have hn : (s.raiseDrain n).space m =
        { s.space m with drain := (s.space m).drain + if m = n then 1 else 0 } := by
      unfold State.raiseDrain
      dsimp only
      rw [State.setSpace_space]
      split_ifs with h
      · rw [h]
      · rfl
    rw [List.foldl_cons, ih, hn, List.count_cons]
    simp only [SpaceRecord.mk.injEq, true_and, beq_iff_eq, eq_comm (a := n)]
    omega

/-- What a pairing that begins changes: the slot, the door's admission, and the drain counts of its spaces. -/
theorem State.enterPairing_begun {count : Nat} {n : PermitNo} {v : DecisionValues} {k : SlotNo}
    (hk : s.slot k = none) (hlow : ∀ j < k, s.slot j ≠ none) :
    ∃ t, s.enterPairing count d c n v = t ∧ s.changesOnly [.spaces, .doors, .slots] t ∧
      (∀ j, t.slot j = if j = k then some ⟨d, n, if v.level = 3 then 2 else 1, .escort, none,
        .running (count + s.timings.pairingWindow)⟩ else s.slot j) ∧
      (∀ e, t.door e = if e = d then { s.door d with admission := .pairing n v } else s.door e) ∧
      ∀ m, t.space m = { s.space m with drain := (s.space m).drain + (countedSpaces v.space).count m } := by
  have hlowest : lowest Option.isNone s.slots = some k :=
    lowest_eq_some.2 ⟨Option.isNone_iff_eq_none.2 hk, fun j hj => by
      rw [Option.isNone_eq_false_iff, Option.isSome_iff_ne_none]
      exact hlow j hj⟩
  unfold State.enterPairing
  rw [hlowest]
  refine ⟨_, rfl, ?_, fun j => ?_, fun e => ?_, fun m => ?_⟩
  · exact (((changesOnly_refl _ s).setSlot (by decide)).setDoor (by decide)).foldl
      fun u _ _ => (changesOnly_refl _ u).raiseDrain (by decide)
  · rw [((changesOnly_refl [.spaces] _).foldl fun u _ _ => (changesOnly_refl _ u).raiseDrain (by decide)).slot_eq
      (by decide)]
    exact State.setSlot_slot ..
  · rw [((changesOnly_refl [.spaces] _).foldl fun u _ _ => (changesOnly_refl _ u).raiseDrain (by decide)).door_eq
      (by decide)]
    exact State.setDoor_door ..
  · exact State.foldl_raiseDrain_space ..

theorem State.enterPairing_busy {count : Nat} {n : PermitNo} {v : DecisionValues} (h : ∀ k, s.slot k ≠ none) :
    s.enterPairing count d c n v = s.denyPresentation d c .pairingBusy := by
  have hnone : lowest Option.isNone s.slots = none := lowest_eq_none.2 fun k => by
    rw [Option.isNone_eq_false_iff, Option.isSome_iff_ne_none]
    exact h k
  unfold State.enterPairing
  rw [hnone]

/-- A general space is counted once, as spaces 0 and 1 are (R30). -/
theorem count_countedSpaces {sp m : SpaceNo} (h : 2 ≤ sp.val) :
    (countedSpaces sp).count m = if m = sp ∨ m = 1 ∨ m = 0 then 1 else 0 := by
  have h1 : sp ≠ 1 := by rintro rfl; exact absurd h (by decide)
  have h0 : sp ≠ 0 := by rintro rfl; exact absurd h (by decide)
  have hnodup : (countedSpaces sp).Nodup := by simp [countedSpaces, h1, h0]
  rw [hnodup.count]
  simp [countedSpaces]

/-- An Enter whose level calls for an escort enters a pairing (R139). -/
theorem State.endContractor_pairing {e : ContractorEntry} {g : GrantSummary} {ov : OverlaySummary}
    (hrole : e.record.role ≠ .escort) (hlevel : 2 ≤ requirementLevel g ov e.time.minute ∨
      (requirementLevel g ov e.time.minute = 1 ∧ s.escortInside e.room = false)) :
    s.endContractor e (.ok (g, ov)) = s.enterPairing e.count e.door e.credential e.permit
      ⟨e.option.space, g.guaranteed, g.ceiling, g.category, g.remote, g.windows, e.option.window, ov,
        requirementLevel g ov e.time.minute⟩ := by
  refine if_neg ?_
  rintro (h | h | ⟨h1, h⟩)
  · exact hrole h
  · omega
  · rcases hlevel with hl | ⟨-, hl⟩
    · omega
    · simp [hl] at h

/-- Settles O42: the presentation asks for the rights, which leave its door as it is (`checkRights_keeps`), and enters the
pairing. -/
theorem enterBeginsPairing : Obligations.EnterBeginsPairing := by
  unfold Obligations.EnterBeginsPairing
  intro s s2 d c b time n q w o g ov
  dsimp only
  intro hc _ hdist hphase hpos hadm hbind hheld hclock hposture hq hcred hrev hidle hslots hw hact hday hopt hspace
    hrights hrole hlevel
  have hs1 := s.announce_polled_changes d
  have hdoor1 := s.announce_polled_door d
  have hheld1 := s.announce_polled_held d
  have hpresent : ∀ f : State → State, s.answerPresent d c f = f ((s.endTurn d.lane).announce d) :=
    fun _ => State.answerPresent_polled hc hphase hpos
  generalize (s.endTurn d.lane).announce d = s1 at *
  have hstage : s1.enterStage d c = .contractor ⟨d, c, b.room, n, q, w, o, time, s.count⟩ := by
    rw [← hs1 .count (by decide)]
    have hper : s1.permit = s.permit := hs1.permit_eq (by decide)
    refine State.enterStage_contractor (by rw [hdoor1]; exact hadm) (by rw [hdoor1]; exact hbind) (hheld1.trans hheld)
      ((hs1 .clock (by decide)).trans hclock) (by rwa [hs1 .posture (by decide)])
      (State.permitOf_eq_of_distinct (q := q) (by rwa [State.credentialsDistinct, hper]) (by rwa [hper]) hcred)
      (by rwa [hper]) hrev hidle (State.slotHolding_eq_none (by rwa [hs1.slot_eq (by decide)]))
      (by rwa [hs1.workOrder_eq (by decide)]) hact hday hopt
  have hkept : s2.door d = s1.door d := by
    have hk := checkRights_keeps (x := .contractor d b.room n q) (n := o.space) (r := b.room) (w := w) (ow := o.window)
      (m := time.minute) (s := s1) (by rw [hrights]; nofun)
    rw [hrights] at hk
    exact (State.sameDoor_iff.1 ((Decision.keeps_iff.1 hk).2.2.1 d rfl)).1
  have hexec : exec (.presentEnter d c) s = .next ((s2.enterPairing s.count d c n
      ⟨o.space, g.guaranteed, g.ceiling, g.category, g.remote, g.windows, o.window, ov,
        requirementLevel g ov time.minute⟩).settle none) := by
    have htake : s1.takeEnter d c = s2.endContractor ⟨d, c, b.room, n, q, w, o, time, s.count⟩ (.ok (g, ov)) := by
      unfold State.takeEnter
      rw [hstage]
      unfold State.enterContractor
      simp only [hrights]
    have hend := State.endContractor_pairing (s := s2) (e := ⟨d, c, b.room, n, q, w, o, time, s.count⟩) (g := g) (ov := ov)
      hrole hlevel
    have hrow : exec (.presentEnter d c) s = thenSettle none (.next (s.answerPresent d c fun u => u.takeEnter d c)) := rfl
    rw [hrow, hpresent, htake, hend]
    rfl
  refine ⟨fun k hk hlow => ?_, fun hfull => ?_⟩
  · obtain ⟨t, ht, hchanges, hslot, hdoor, hsp⟩ := State.enterPairing_begun (d := d) (c := c) (count := s.count) (n := n)
      (v := ⟨o.space, g.guaranteed, g.ceiling, g.category, g.remote, g.windows, o.window, ov,
        requirementLevel g ov time.minute⟩) hk hlow
    refine ⟨t, by rw [hexec, ht], hchanges, (hslot k).trans (if_pos rfl), fun j hj => (hslot j).trans (if_neg hj), ?_,
      fun e he => (hdoor e).trans (if_neg he), fun m => ?_⟩
    · rw [hdoor, if_pos rfl, hkept]
    · rw [hsp, count_countedSpaces hspace]
      split_ifs <;> rfl
  · refine ⟨_, by rw [hexec, State.enterPairing_busy hfull], ?_, ?_, fun e he => ?_⟩
    · exact (changesOnly_refl _ s2).denyPresentation (by decide)
    · have hd := ((changesOnly_refl [.ports] (s2.addVerdict d ⟨.deny .pairingBusy, [c], false⟩)).notifyDenied
        (d := d) (c := c) (code := .pairingBusy) (by decide)).door_eq (by decide)
      unfold State.denyPresentation
      rw [hd, ← hkept]
      exact State.setDoor_door_self ..
    · have hd := ((changesOnly_refl [.ports] (s2.addVerdict d ⟨.deny .pairingBusy, [c], false⟩)).notifyDenied
        (d := d) (c := c) (code := .pairingBusy) (by decide)).door_eq (by decide)
      unfold State.denyPresentation
      rw [hd]
      exact (State.setDoor_door ..).trans (if_neg he)

end Sys2Proof.Machine

/-! SUPPORT. The READ commands: the items of their replies (R36, R99, R100, R117, R118, R131, R148, R171), and that they
change nothing but the reply. -/

namespace Sys2Proof.Machine

variable {s : State} {p : Authority} {code : Byte}

/-! ### Commands that change nothing but their reply -/

/-- A command that changes nothing, and whose answer does not depend on the place held for its reply. -/
theorem carryOut_answer {body : State → State × Answer} (hs : ∀ u, (body u).1 = u)
    (ha : (body (s.reserveReply p)).2 = (body s).2) : carryOut p code body s = s.answered p code (body s).2 :=
  carryOut_read (Prod.ext (hs _) ha)

/-- An accepted command, with its results spelled out. -/
theorem answered_accepted {answer : Answer} {results items : List Byte} (h : answer = .accepted results)
    (hr : results = items) : (Host.Outcome.next (s.answered p code answer) : Host.Outcome State Fault Refusal) =
      .next (s.answered p code (.accepted items)) := by
  rw [h, hr]

/-! ### Arguments -/

theorem workOrder?_eq_some {a : Byte} {n : WorkOrderNo} : workOrder? a = some n ↔ a.toNat = n.val := by
  simp only [workOrder?, Option.dite_none_right_eq_some, Option.some.injEq, Fin.ext_iff]
  exact ⟨fun ⟨_, h⟩ => h, fun h => ⟨h ▸ n.isLt, h⟩⟩

theorem workOrder?_eq_none {a : Byte} : workOrder? a = none ↔ 63 < a.toNat := by
  simp only [workOrder?, dite_eq_right_iff, reduceCtorEq, imp_false]
  omega

theorem room?_eq_some {a : Byte} {k : RoomNo} : room? a = some k ↔ a.toNat = k.val := by
  simp only [room?, Option.dite_none_right_eq_some, Option.some.injEq, Fin.ext_iff]
  exact ⟨fun ⟨_, h⟩ => h, fun h => ⟨h ▸ k.isLt, h⟩⟩

theorem lane?_eq_some {a : Byte} {l : LaneNo} : lane? a = some l ↔ a.toNat = l.val := by
  simp only [lane?, Option.dite_none_right_eq_some, Option.some.injEq, Fin.ext_iff]
  exact ⟨fun ⟨_, h⟩ => h, fun h => ⟨h ▸ l.isLt, h⟩⟩

theorem designator?_eq_some {a : DesignatorArgs} {r : Designator} : designator? a = some r ↔ carriesRoom a r := by
  obtain ⟨i, z, k⟩ := r
  unfold designator? carriesRoom
  rw [← site?_eq_some, ← zone?_eq_some, ← room?_eq_some]
  cases site? a.site <;> cases zone? a.zone <;> cases room? a.room <;> simp

theorem designator?_eq_none {a : DesignatorArgs} (h : 127 < a.site.toNat ∨ 31 < a.zone.toNat ∨ 31 < a.room.toNat) :
    designator? a = none := by
  refine Option.eq_none_iff_forall_ne_some.2 fun r hr => ?_
  obtain ⟨hi, hz, hk⟩ := designator?_eq_some.1 hr
  omega

theorem door?_eq_some {a : DoorArgs} {d : DoorId} : door? a = some d ↔ carriesDoor a d := by
  obtain ⟨l, b⟩ := d
  unfold door? carriesDoor
  rw [← lane?_eq_some]
  cases lane? a.lane with
  | none => simp
  | some k =>
    simp only [Option.dite_none_right_eq_some, Option.some.injEq, DoorId.mk.injEq, Fin.ext_iff]
    exact ⟨fun ⟨_, hk, hb⟩ => ⟨hk, hb⟩, fun ⟨hk, hb⟩ => ⟨hb ▸ b.isLt, hk, hb⟩⟩

theorem door?_eq_none {a : DoorArgs} (h : 3 < a.lane.toNat ∨ 15 < a.address.toNat) : door? a = none := by
  refine Option.eq_none_iff_forall_ne_some.2 fun d hd => ?_
  obtain ⟨hl, hb⟩ := door?_eq_some.1 hd
  omega

@[simp] theorem flagByte_true : flagByte true = [1] := rfl
@[simp] theorem flagByte_false : flagByte false = [0] := rfl

/-! ### READ SPACE (R36) -/

theorem readSpace_reserveReply (a : NumberArgs) :
    (readSpace p a (s.reserveReply p)).2 = (readSpace p a s).2 := by
  unfold readSpace
  cases space? a.number with
  | none => rfl
  | some n =>
    dsimp only
    rw [apply_ite Prod.snd, apply_ite Prod.snd]
    rfl

theorem spaceResults_unused {r : SpaceRecord} {count : Nat} (h : r.current = none) :
    spaceResults count r = [0, r.generation] := by
  simp [spaceResults, h]

theorem spaceResults_used {r : SpaceRecord} {count : Nat} {d : Descriptor} (h : r.current = some d) :
    spaceResults count r = 1 :: descriptorBytes d ++ [r.generation] ++
      (match r.waiting with
        | none => [0, 0] ++ num1 r.drain ++ [0]
        | some w => [1, 1] ++ descriptorBytes w.descriptor ++ num1 r.drain ++
          1 :: num1 (max 1 (w.deadline - count))) := by
  cases hw : r.waiting <;> simp [spaceResults, h, hw, SpaceRecord.go, optional]

theorem readSpace_refused {a : NumberArgs} {n : SpaceNo} (hn : a.number.toNat = n.val) (hp : p ≠ .sec)
    (ho : (s.space n).owner ≠ some p) : (readSpace p a s).2 = .refused .notPermitted [] := by
  simp [readSpace, space?_eq_some.2 hn, hp, ho, refuse]

theorem readSpace_accepted {a : NumberArgs} {n : SpaceNo} (hn : a.number.toNat = n.val)
    (hp : p = .sec ∨ (s.space n).owner = some p) :
    (readSpace p a s).2 = .accepted (spaceResults s.count (s.space n)) := by
  simp [readSpace, space?_eq_some.2 hn, hp]

/-! ### READ WORK ORDER (R100, R117) -/

theorem readWorkOrder_reserveReply (a : NumberArgs) :
    (readWorkOrder p a (s.reserveReply p)).2 = (readWorkOrder p a s).2 := by
  unfold readWorkOrder
  cases workOrder? a.number with
  | none => rfl
  | some n =>
    have hw : (s.reserveReply p).workOrder n = s.workOrder n := rfl
    dsimp only
    rw [hw]
    cases s.workOrder n <;> dsimp only <;> rw [apply_ite Prod.snd, apply_ite Prod.snd] <;> rfl

/-- The permits of a work order as a reply lists them, in number order. -/
theorem State.permitsOf_bytes (s : State) (n : WorkOrderNo) :
    (s.permitsOf n).map (permitEntryBytes s) = (List.finRange 256).filterMap fun m => match s.permit m with
      | some q => if q.workOrder = n then some (num1 m.val ++ [permitStateValue q.state]) else none
      | none => none := by
  unfold State.permitsOf
  rw [numbersWhere_eq, ← List.filterMap_eq_map, List.filterMap_filter]
  refine List.filterMap_congr fun m _ => ?_
  have hget : s.permits.get m = s.permit m := rfl
  rw [hget]
  cases hm : s.permit m with
  | none => rfl
  | some q => by_cases hq : q.workOrder = n <;> simp [hq, permitEntryBytes, hm]

theorem optionBytes_eq (o : WorkOption) : optionBytes o = num1 o.space.val ++
    (match o.window with | none => [0] | some v => 1 :: num2 v.start ++ num2 v.length) ++ num1 o.cap := by
  cases h : o.window <;> simp [optionBytes, h, optional, windowBytes]

theorem workOrderResults_eq (s : State) (n : WorkOrderNo) (w : WorkOrder) :
    flagByte true ++ workOrderResults s n w = [1, authorityValue w.issuer, workOrderStateValue w.state] ++
      countByte w.options.length :: (w.options.flatMap optionBytes) ++
      (match w.home with | none => [0] | some r => 1 :: num1 r.site.val ++ num1 r.zone.val ++ num1 r.room.val) ++
      num1 w.requiredMinimum ++ num1 w.renewal ++ [preferenceValue w.preference] ++ flagByte w.refuseOnShortfall ++
      (match w.days with | none => [0, 0] | some (first, last) => 1 :: num2 first ++ 1 :: num2 last) ++
      flagByte w.endorsedByFacilities ++ flagByte w.endorsedByLandlord ++
      (match w.selected with | none => [0] | some k => 1 :: num1 k) ++ num1 w.capInForce ++ flagByte w.shortfall ++
      (match w.deadline with | none => [0] | some t => 1 :: num4 (t - s.count)) ++ num1 w.party ++
      countByte ((s.permitsOf n).map (permitEntryBytes s)).length ::
        ((s.permitsOf n).map (permitEntryBytes s)).flatten := by
  unfold workOrderResults
  rw [List.length_map, ← List.flatMap_def]
  have hhome : optional designatorBytes w.home =
      (match w.home with | none => [0] | some r => 1 :: num1 r.site.val ++ num1 r.zone.val ++ num1 r.room.val) := by
    cases w.home <;> rfl
  have hdays : optional (fun d => num2 (Prod.fst d)) w.days ++ optional (fun d => num2 (Prod.snd d)) w.days =
      (match w.days with | none => [0, 0] | some (first, last) => 1 :: num2 first ++ 1 :: num2 last) := by
    cases w.days <;> rfl
  have hsel : optional num1 w.selected = (match w.selected with | none => [0] | some k => 1 :: num1 k) := by
    cases w.selected <;> rfl
  have hdl : optional (fun t => num4 (t - s.count)) w.deadline =
      (match w.deadline with | none => [0] | some t => 1 :: num4 (t - s.count)) := by
    cases w.deadline <;> rfl
  rw [← hhome, ← hdays, ← hsel, ← hdl]
  simp [counted]

theorem readWorkOrder_refused {a : NumberArgs} {n : WorkOrderNo} (hn : a.number.toNat = n.val) (hp : p ≠ .sec)
    (ho : ∀ w, s.workOrder n = some w → w.issuer ≠ p) : (readWorkOrder p a s).2 = .refused .notPermitted [] := by
  cases hw : s.workOrder n with
  | none => simp [readWorkOrder, workOrder?_eq_some.2 hn, hw, hp, refuse]
  | some w => simp [readWorkOrder, workOrder?_eq_some.2 hn, hw, hp, ho w hw, refuse]

theorem readWorkOrder_accepted {a : NumberArgs} {n : WorkOrderNo} {w : WorkOrder} (hn : a.number.toNat = n.val)
    (hw : s.workOrder n = some w) (hp : p = .sec ∨ w.issuer = p) :
    (readWorkOrder p a s).2 = .accepted (flagByte true ++ workOrderResults s n w) := by
  simp [readWorkOrder, workOrder?_eq_some.2 hn, hw, hp]

/-! ### The pairing slots shown (R131, R148) -/

/-- The lowest slot that satisfies a test, with its door, is what a READ shows. -/
theorem State.slotShown_iff {q : Slot → Bool} {shown : Option (SlotNo × DoorId)} (h : s.slotShown q shown) :
    lowest (fun x => match x with | some y => q y | none => false) s.slots = shown.map Prod.fst ∧
      ((shown.map Prod.fst).bind s.slot).map Slot.door = shown.map Prod.snd := by
  have hget : ∀ j, s.slots.get j = s.slot j := fun _ => rfl
  cases shown with
  | none =>
    refine ⟨lowest_eq_none.2 fun j => ?_, rfl⟩
    rw [hget]
    cases hy : s.slot j with
    | none => rfl
    | some y => exact h j y hy
  | some kd =>
    obtain ⟨k, d⟩ := kd
    obtain ⟨⟨y, hy, hq, hd⟩, hlow⟩ := h
    refine ⟨lowest_eq_some.2 ⟨?_, fun j hj => ?_⟩, ?_⟩
    · rw [hget, hy]
      exact hq
    · rw [hget]
      cases hz : s.slot j with
      | none => rfl
      | some z => exact hlow j z hj hz
    · simp [hy, hd]

/-! ### READ PERMIT (R118, R131) -/

theorem readPermit_reserveReply (a : NumberArgs) :
    (readPermit p a (s.reserveReply p)).2 = (readPermit p a s).2 := by
  have hp : (s.reserveReply p).permit (permitNo a.number) = s.permit (permitNo a.number) := rfl
  unfold readPermit
  dsimp only
  rw [hp]
  cases s.permit (permitNo a.number) <;> dsimp only <;> rw [apply_ite Prod.snd, apply_ite Prod.snd] <;> rfl

theorem readPermit_refused {a : NumberArgs} (hp : p ≠ .sec)
    (ho : ∀ q, s.permit (permitNo a.number) = some q → s.issuer q.workOrder ≠ p) :
    (readPermit p a s).2 = .refused .notPermitted [] := by
  cases hq : s.permit (permitNo a.number) with
  | none => simp [readPermit, hq, hp, refuse]
  | some q => simp [readPermit, hq, hp, ho q hq, refuse]

theorem readPermit_accepted {a : NumberArgs} {q : Permit} (hq : s.permit (permitNo a.number) = some q)
    (hp : p = .sec ∨ s.issuer q.workOrder = p) :
    (readPermit p a s).2 = .accepted (flagByte true ++ permitResults s (permitNo a.number) q) := by
  simp [readPermit, hq, hp]

theorem permitResults_eq {n : PermitNo} {q : Permit} {w : WorkOrder} {shown : Option (SlotNo × DoorId)}
    (hw : s.workOrder q.workOrder = some w) (hs : s.slotShown (fun y => y.holds n) shown) :
    flagByte true ++ permitResults s n q =
      [1] ++ bytes32 q.credential ++ num1 q.workOrder.val ++ [roleValue q.role] ++
        (match q.state with
          | .idle => [0] ++ [0] ++ [0] ++ [0] ++ [0] ++ flagByte q.revoked ++ [0, 0, 0]
          | .pending r d remote =>
            [1] ++ 1 :: num1 r.site.val ++ num1 r.zone.val ++ num1 r.room.val ++
              1 :: num1 d.lane.val ++ num1 d.address.val ++ [0] ++ [0] ++ flagByte q.revoked ++ [0, 0] ++ flagByte remote
          | .inside x =>
            [2] ++ 1 :: num1 x.room.site.val ++ num1 x.room.zone.val ++ num1 x.room.room.val ++ [0] ++
              (match x.stayDeadline with | none => [0] | some t => 1 :: num4 (t - s.count)) ++
              (match x.checkInDeadline with | none => [0] | some t => 1 :: num2 (t - s.count)) ++
              flagByte q.revoked ++ flagByte x.overdue ++ flagByte x.overstay ++ flagByte x.remote) ++
        num1 q.role.weight ++ [workOrderStateValue w.state] ++
        (optional (fun k : SlotNo => num1 k.val) (shown.map Prod.fst) ++ optional doorBytes (shown.map Prod.snd)) := by
  obtain ⟨hslot, hdoor⟩ := State.slotShown_iff hs
  have hhold : s.slotHolding n = shown.map Prod.fst := hslot
  unfold permitResults
  dsimp only
  rw [hhold, hdoor, hw]
  cases hq : q.state with
  | idle => simp [optional, PermitState.stay, PermitState.room, PermitState.door, PermitState.remote, permitStateValue]
  | pending r d remote =>
    simp [optional, PermitState.stay, PermitState.room, PermitState.door, PermitState.remote, permitStateValue,
      designatorBytes, doorBytes]
  | inside x =>
    cases hsd : x.stayDeadline <;> cases hcd : x.checkInDeadline <;>
      simp [optional, PermitState.stay, PermitState.room, PermitState.door, PermitState.remote, permitStateValue,
        designatorBytes, hsd, hcd]

/-! ### READ ROOM (R99) -/

/-- A credential as an authority is shown it: Security and the issuer of the permit's work order (R99, R148). -/
def State.credentialShown (s : State) (p : Authority) (q : Permit) : List Byte :=
  if p = .sec ∨ s.issuer q.workOrder = p then 1 :: bytes32 q.credential else [0]

theorem State.optional_credential (q : Permit) :
    optional bytes32 (if p = .sec ∨ s.issuer q.workOrder = p then some q.credential else none) =
      s.credentialShown p q := by
  unfold State.credentialShown
  split_ifs <;> rfl

/-- A list of permits, each by what its record says. -/
theorem counted_permits {f : PermitNo → List Byte} {g : PermitNo × Permit → List Byte} {ns : List PermitNo}
    {l : List (PermitNo × Permit)} (hl : ns = l.map Prod.fst) (hf : ∀ x ∈ l, f x.1 = g x) :
    counted f ns = countByte l.length :: l.flatMap g := by
  subst hl
  rw [counted, List.length_map, List.flatMap_map]
  exact congrArg _ (List.flatMap_congr hf)

theorem readRoom_reserveReply (a : DesignatorArgs) :
    (readRoom p a (s.reserveReply p)).2 = (readRoom p a s).2 := by
  unfold readRoom
  cases designator? a <;> rfl

theorem memberBytes_eq {n : PermitNo} {q : Permit} (hq : s.permit n = some q) : memberBytes p s n =
    num1 n.val ++ [roleValue q.role] ++ num1 q.role.weight ++ num1 q.workOrder.val ++ s.credentialShown p q := by
  unfold memberBytes
  rw [hq]
  dsimp only
  rw [State.optional_credential]

theorem State.recordOf_eq_none {r : Designator} : s.recordOf r = none ↔ ∀ k o, s.record k = some o → o.room ≠ r := by
  refine lowest_eq_none.trans (forall_congr' fun k => ?_)
  have hget : s.occupancy.get k = s.record k := rfl
  rw [hget]
  cases s.record k <;> simp

theorem roomResults_unused {r : Designator} (h : ∀ k o, s.record k = some o → o.room ≠ r) :
    roomResults p s r = [postureValue s.posture] ++ num1 (s.site r.site).extra ++ num1 (s.site r.site).forced ++
      [0] ++ num1 0 ++ [0, 0, 0, 0] ++ [0, 0] := by
  have hnone : s.numberedRecordOf r = none := by rw [State.numberedRecordOf, State.recordOf_eq_none.2 h]
  simp [roomResults, hnone, optional, counted, countByte]

theorem roomResults_used {r : Designator} {k : RecordNo} {o : OccupancyRecord} {inside waits : List (PermitNo × Permit)}
    (ho : s.record k = some o) (hr : o.room = r) (hlow : ∀ j o', j < k → s.record j = some o' → o'.room ≠ r)
    (hin : o.inside = inside.map Prod.fst) (hpend : o.pending = waits.map Prod.fst)
    (huse : ∀ x ∈ inside ++ waits, s.permit x.1 = some x.2) :
    roomResults p s r = [postureValue s.posture] ++ num1 (s.site r.site).extra ++ num1 (s.site r.site).forced ++
      1 :: num1 k.val ++ num1 o.load ++ 1 :: num1 o.guaranteed ++ 1 :: num1 o.ceiling ++
      1 :: num1 (s.allowanceAt r o.guaranteed o.ceiling) ++ 1 :: flagByte o.overAllowance ++
      (countByte inside.length :: inside.flatMap fun x =>
        num1 x.1.val ++ [roleValue x.2.role] ++ num1 x.2.role.weight ++ num1 x.2.workOrder.val ++
          s.credentialShown p x.2) ++
      (countByte waits.length :: waits.flatMap fun x =>
        num1 x.1.val ++ [roleValue x.2.role] ++ num1 x.2.role.weight ++ num1 x.2.workOrder.val ++
          s.credentialShown p x.2) := by
  have hrec : s.numberedRecordOf r = some (k, o) := by
    rw [State.numberedRecordOf, State.recordOf_eq_some.2 ⟨⟨o, ho, hr⟩, fun j hj o' ho' => hlow j o' hj ho'⟩]
    simp [ho]
  have hmembers : ∀ (ns : List PermitNo) (l : List (PermitNo × Permit)), ns = l.map Prod.fst →
      (∀ x ∈ l, s.permit x.1 = some x.2) → counted (memberBytes p s) ns = countByte l.length :: l.flatMap fun x =>
        num1 x.1.val ++ [roleValue x.2.role] ++ num1 x.2.role.weight ++ num1 x.2.workOrder.val ++
          s.credentialShown p x.2 := fun ns l hl hu => counted_permits hl fun x hx => memberBytes_eq (hu x hx)
  have hi := hmembers _ _ hin fun x hx => huse x (List.mem_append_left _ hx)
  have hp := hmembers _ _ hpend fun x hx => huse x (List.mem_append_right _ hx)
  unfold roomResults
  simp only [hrec, Option.map_some, hi, hp, optional]

/-! ### READ DOOR (R148) -/

theorem readDoor_reserveReply (a : DoorArgs) : (readDoor p a (s.reserveReply p)).2 = (readDoor p a s).2 := by
  unfold readDoor
  cases door? a <;> rfl

theorem heldBytes_eq {n : PermitNo} {q : Permit} (hq : s.permit n = some q) :
    heldBytes p s n = num1 n.val ++ num1 q.workOrder.val ++ s.credentialShown p q := by
  unfold heldBytes
  rw [hq]
  dsimp only
  rw [State.optional_credential]

theorem bindingBytes_optional (b : Option Binding) : optional bindingBytes b =
    (match b with
      | none => [0]
      | some b => 1 :: num1 b.room.site.val ++ num1 b.room.zone.val ++ num1 b.room.room.val ++ [sideValue b.side]) := by
  cases b <;> simp [optional, bindingBytes, designatorBytes]

/-- The admission of a door as READ DOOR carries it: its state, the direction and the deadline (R148). -/
theorem admission_bytes (count : Nat) (x : Door) (permits pairing : List Byte) :
    [admissionValue x.admission.state] ++ optional (fun b => [b]) x.admission.direction ++ permits ++ pairing ++
      optional (fun t => num1 (t - count)) x.admission.deadline =
      (match x.admission with
        | .idle => [0] ++ [0] ++ permits ++ pairing ++ [0]
        | .pairing .. => [1] ++ [0] ++ permits ++ pairing ++ [0]
        | .awaitingConsent .. => [2] ++ [0] ++ permits ++ pairing ++ [0]
        | .openEnter _ t => [3] ++ [1, 0] ++ permits ++ pairing ++ (match t with | none => [0] | some t => 1 :: num1 (t - count))
        | .openExit _ t => [3] ++ [1, 1] ++ permits ++ pairing ++ (match t with | none => [0] | some t => 1 :: num1 (t - count))) := by
  cases hx : x.admission with
  | openEnter _ t => cases t <;> rfl
  | openExit _ t => cases t <;> rfl
  | _ => rfl

theorem doorResults_eq {d : DoorId} {held : List (PermitNo × Permit)} {shown : Option (SlotNo × DoorId)}
    (hheld : (s.door d).admission.held = held.map Prod.fst) (huse : ∀ x ∈ held, s.permit x.1 = some x.2)
    (hs : s.slotShown (fun y => y.door = d) shown) :
    doorResults p s d = optional bindingBytes (s.door d).binding ++
      [presenceValue (s.door d).presence] ++
      ([admissionValue (s.door d).admission.state] ++ optional (fun b => [b]) (s.door d).admission.direction ++
        (countByte held.length ::
          held.flatMap fun h => num1 h.1.val ++ num1 h.2.workOrder.val ++ s.credentialShown p h.2) ++
        optional (fun k : SlotNo => num1 k.val) (shown.map Prod.fst) ++
        optional (fun t => num1 (t - s.count)) (s.door d).admission.deadline) ++
      num1 (s.door d).outgoing.length ++ flagByte (s.door d).cancelPending := by
  have hslot : s.slotOf d = shown.map Prod.fst := (State.slotShown_iff hs).1
  have hperm := counted_permits (f := heldBytes p s) hheld fun x hx => heldBytes_eq (huse x hx)
  unfold doorResults
  dsimp only
  rw [hslot, hperm]
  simp

/-! ### READ STATUS (R171) -/

/-- A count over a table is a count over its numbers. -/
theorem countWhere_finRange {α : Type} {n : Nat} (q : α → Bool) (v : Vector α n) :
    countWhere q v = (List.finRange n).countP fun i => q (v.get i) := by
  rw [countWhere_eq, numbersWhere_eq, List.countP_eq_length_filter]

/-- The queue figures of a port do not depend on the place held for its reply. -/
theorem statusResults_reserveReply (s : State) (p : Authority) :
    statusResults p (s.reserveReply p) = statusResults p s := by
  have hport : ((s.reserveReply p).port p).queue = (s.port p).queue ∧
      ((s.reserveReply p).port p).dropped = (s.port p).dropped := by
    simp [State.reserveReply]
  unfold statusResults Port.safetyHeld
  rw [hport.1, hport.2]
  rfl

theorem clockBytes_eq (c : Option ClockTime) : clockBytes c =
    (match c with
      | none => [1, 0, 0, 0, 0, 0]
      | some t => 0 :: num2 t.day ++ num2 t.minute ++ num1 t.second) := by
  cases c <;> rfl

theorem laneStatus_eq (s : State) (l : LaneNo) : laneStatus s l = flagByte (s.lane l).held ++
    num1 (s.lane l).position.val ++ (List.finRange 16).map fun b => presenceValue (s.door ⟨l, b⟩).presence := by
  rw [laneStatus, laneDoors, List.map_map]
  rfl

theorem statusResults_eq (p : Authority) (s : State) : statusResults p s =
    (match s.clock with
      | none => [1, 0, 0, 0, 0, 0]
      | some t => 0 :: num2 t.day ++ num2 t.minute ++ num1 t.second) ++ num4 s.count ++
    [postureValue s.posture] ++ num1 s.timings.pairingWindow ++ num1 s.timings.passageTime ++
    num1 s.timings.consentWait ++
    ((List.finRange 4).flatMap fun l => flagByte (s.lane l).held ++ num1 (s.lane l).position.val ++
      (List.finRange 16).map fun b => presenceValue (s.door ⟨l, b⟩).presence) ++
    num1 ((List.finRange 64).countP fun n => (s.space n).current.isSome) ++
    num1 ((List.finRange 64).countP fun n => (s.workOrder n).isSome) ++
    num2 ((List.finRange 256).countP fun n => (s.permit n).isSome) ++
    num1 ((List.finRange 64).countP fun n => (s.record n).isSome) ++
    num1 ((List.finRange 4).countP fun n => (s.slot n).isSome) ++ num1 s.cache.length ++
    num1 (s.port p).queue.length ++ num1 ((s.port p).queue.countP Notice.isSafety) ++ flagByte (s.port p).dropped := by
  rw [← clockBytes_eq, ← funext (laneStatus_eq s)]
  unfold statusResults timingsBytes
  simp only [countWhere_finRange, List.append_assoc] <;> rfl

/-- Settles O35: each command changes nothing but its reply (`carryOut_answer`), and its answer is spelled out by the lemmas
above. -/
theorem readsAnswerAndChangeNothing : Obligations.ReadsAnswerAndChangeNothing := by
  unfold Obligations.ReadsAnswerAndChangeNothing
  refine ⟨fun s p a => ⟨fun ht => ?_, fun ht => ?_, fun ht => ?_⟩, fun s p => ⟨fun a ht => ?_, fun a ht => ?_, fun ht => ?_⟩⟩
  · have hout : exec (.readSpace p (.fields a)) s = .next (s.answered p 8 (readSpace p a s).2) :=
      (runCommand_fields ht).trans (congrArg _ (carryOut_answer (readSpace_state p a) (readSpace_reserveReply a)))
    dsimp only
    rw [hout]
    refine ⟨fun h => ?_, fun n hn => ⟨fun hp ho => ?_, fun hp hc => ?_, fun d hd hp => ?_⟩⟩
    · simp [readSpace, space?_eq_none.2 h, refuse]
    · rw [readSpace_refused hn hp ho]
    · rw [readSpace_accepted hn (.inl hp), spaceResults_unused hc]
    · have howner : p = .sec ∨ (s.space n).owner = some p := hp.imp_right fun h => by simp [SpaceRecord.owner, hd, h]
      exact answered_accepted (readSpace_accepted hn howner) (spaceResults_used hd)
  · have hout : exec (.readWorkOrder p (.fields a)) s = .next (s.answered p 19 (readWorkOrder p a s).2) :=
      (runCommand_fields ht).trans (congrArg _ (carryOut_answer (readWorkOrder_state p a) (readWorkOrder_reserveReply a)))
    dsimp only
    rw [hout]
    refine ⟨fun h => ?_, fun n hn => ⟨fun hp ho => ?_, fun hp hw => ?_, fun w hw hp => ?_⟩⟩
    · simp [readWorkOrder, workOrder?_eq_none.2 h, refuse]
    · rw [readWorkOrder_refused hn hp ho]
    · simp [readWorkOrder, workOrder?_eq_some.2 hn, hw, hp]
    · have hitems := workOrderResults_eq s n w
      rw [State.permitsOf_bytes, funext optionBytes_eq] at hitems
      exact answered_accepted (readWorkOrder_accepted hn hw hp) hitems
  · have hout : exec (.readPermit p (.fields a)) s = .next (s.answered p 22 (readPermit p a s).2) :=
      (runCommand_fields ht).trans (congrArg _ (carryOut_answer (readPermit_state p a) (readPermit_reserveReply a)))
    dsimp only
    rw [hout]
    refine ⟨fun hp ho => ?_, fun hp hq => ?_, fun q hq hp => ⟨⟨_, by rw [readPermit_accepted hq hp]⟩, fun w shown hw hs => ?_⟩⟩
    · rw [readPermit_refused hp ho]
    · simp [readPermit, hq, hp]
    · refine (answered_accepted (readPermit_accepted hq hp) (permitResults_eq hw hs)).trans ?_
      cases shown <;> rfl
  · have hout : exec (.readRoom p (.fields a)) s = .next (s.answered p 14 (readRoom p a s).2) :=
      (runCommand_fields ht).trans (congrArg _ (carryOut_answer (readRoom_state p a) (readRoom_reserveReply a)))
    dsimp only
    rw [hout]
    refine ⟨fun h => by simp [readRoom, designator?_eq_none h, refuse], fun r hr => ?_⟩
    have hread : (readRoom p a s).2 = .accepted (roomResults p s r) := by simp [readRoom, designator?_eq_some.2 hr]
    rw [hread]
    refine ⟨⟨_, rfl⟩, fun h => by rw [roomResults_unused h], fun k o inside waits ho ho' hlow hin hpend huse => ?_⟩
    exact answered_accepted rfl (roomResults_used ho ho' hlow hin hpend huse)
  · have hout : exec (.readDoor p (.fields a)) s = .next (s.answered p 24 (readDoor p a s).2) :=
      (runCommand_fields ht).trans (congrArg _ (carryOut_answer (readDoor_state p a) (readDoor_reserveReply a)))
    dsimp only
    rw [hout]
    refine ⟨fun h => by simp [readDoor, door?_eq_none h, refuse], fun d hd => ?_⟩
    have hread : (readDoor p a s).2 = .accepted (doorResults p s d) := by simp [readDoor, door?_eq_some.2 hd]
    rw [hread]
    refine ⟨⟨_, rfl⟩, fun held shown hholds huse hs => ?_⟩
    have hheld : (s.door d).admission.held = held.map Prod.fst := by
      revert hholds
      cases (s.door d).admission <;> exact Eq.symm
    have hitems := doorResults_eq (p := p) hheld huse hs
    rw [bindingBytes_optional, admission_bytes] at hitems
    refine answered_accepted rfl (hitems.trans ?_)
    cases shown <;> rfl
  · have hout : exec (.readStatus p (.fields {})) s = .next (s.answered p 30 (readStatus p {} s).2) :=
      (runCommand_fields ht).trans (congrArg _ (carryOut_answer (readStatus_state p {})
        (congrArg Answer.accepted (statusResults_reserveReply s p))))
    dsimp only
    rw [hout]
    exact answered_accepted rfl (statusResults_eq p s)

end Sys2Proof.Machine

/-! SUPPORT. The books through the writes of one table, and through the operations on doors, slots and lanes that end no
pairing and begin none. -/

namespace Sys2Proof.Machine

open State (changesOnly_refl)

variable {s t : State} {fs : List Field} {hush : Prop} {N : PermitNo → Prop} {W : List Waiting} {L : TableLaw}

theorem ne_credentials_of_book (hL : L ∈ bookLaws) : L ≠ .credentials := by
  rintro rfl
  simp [bookLaws] at hL

namespace State.Books

/-- The books after a change of some parts: what each part of them asks that reads one of these. -/
theorem of_parts (h : s.Books hush N W) (hc : s.changesOnly fs t) (line : .waiting ∉ fs)
    (laws : ∀ L ∈ bookLaws, L.Holds none t)
    (orders : (.spaces ∈ fs ∨ .workOrders ∈ fs) → t.workOrdersSound := by intro hf; exact absurd hf (by decide))
    (permits : (.permits ∈ fs ∨ .workOrders ∈ fs) → t.permitsSound := by intro hf; exact absurd hf (by decide))
    (pairings : (.spaces ∈ fs ∨ .workOrders ∈ fs ∨ .permits ∈ fs ∨ .doors ∈ fs ∨ .slots ∈ fs) → t.pairingsSound := by
      intro hf; exact absurd hf (by decide))
    (rooms : (.occupancy ∈ fs ∨ .permits ∈ fs) → t.roomsSound := by intro hf; exact absurd hf (by decide))
    (parties : (.permits ∈ fs ∨ .workOrders ∈ fs) → t.partiesSound := by intro hf; exact absurd hf (by decide))
    (quiet : (.posture ∈ fs ∨ .doors ∈ fs ∨ .lanes ∈ fs) → hush → t.lockdownQuiet := by intro hf; exact absurd hf (by decide))
    (unheld : .slots ∈ fs → ∀ n k x, N n → t.slot k = some x → x.holds n = false := by intro hf; exact absurd hf (by decide)) :
    t.Books hush N W where
  laws := laws
  orders := by
    by_cases hf : .spaces ∈ fs ∨ .workOrders ∈ fs
    · exact orders hf
    · rw [not_or] at hf
      exact h.orders.transport (fun n w hw => ⟨w, hc.workOrder_eq hf.2 ▸ hw, rfl, rfl⟩) fun n => by rw [hc.space_eq hf.1]
  permits := by
    by_cases hf : .permits ∈ fs ∨ .workOrders ∈ fs
    · exact permits hf
    · rw [not_or] at hf
      have hp := hc.permit_eq hf.1
      exact h.permits.transport (fun n q hq => ⟨q, hp ▸ hq, rfl, rfl, (h.permits n q (hp ▸ hq)).2.1, id⟩)
        fun n q w _ hw => ⟨w, by rwa [hc.workOrder_eq hf.2], .inl⟩
  pairings := by
    by_cases hf : .spaces ∈ fs ∨ .workOrders ∈ fs ∨ .permits ∈ fs ∨ .doors ∈ fs ∨ .slots ∈ fs
    · exact pairings hf
    · simp only [not_or] at hf
      obtain ⟨hsp, hwo, hpe, hdo, hsl⟩ := hf
      exact h.pairings.of_slots (hc.slot_eq hsl)
        (fun k x _ hx => hx.of_same (by simp [hc.door_eq hdo]) (by rw [hc.door_eq hdo])
          (fun n _ => by rw [hc.permit_eq hpe]) fun p w _ _ hw => ⟨w, by rwa [hc.workOrder_eq hwo], rfl⟩)
        (fun d => by rw [hc.door_eq hdo]) fun n => by rw [hc.space_eq hsp]
  rooms := by
    by_cases hf : .occupancy ∈ fs ∨ .permits ∈ fs
    · exact rooms hf
    · rw [not_or] at hf
      exact h.rooms.of_same (hc.permit_eq hf.2) (hc.record_eq hf.1)
  parties := by
    by_cases hf : .permits ∈ fs ∨ .workOrders ∈ fs
    · exact parties hf
    · rw [not_or] at hf
      exact h.parties.transport (fun w n => by rw [hc.permit_eq hf.1]) fun n w hw => ⟨w, hc.workOrder_eq hf.2 ▸ hw, rfl⟩
  quiet := by
    by_cases hf : .posture ∈ fs ∨ .doors ∈ fs ∨ .lanes ∈ fs
    · exact quiet hf
    · simp only [not_or] at hf
      intro hh
      have hq := h.quiet hh
      rw [State.lockdownQuiet_iff] at hq ⊢
      rwa [hc.door_eq hf.2.1, hc.lane_eq hf.2.2, show t.posture = s.posture from hc .posture hf.1]
  unheld := by
    by_cases hf : .slots ∈ fs
    · exact unheld hf
    · rw [hc.slot_eq hf]
      exact h.unheld
  line := (hc.same_waiting line).trans h.line

/-- The parts that the books do not read. -/
def bookless : List Field :=
  [.blocks, .cache, .clock, .count, .sites, .ports, .timings, .meetings, .pending]

/-- A change of other parts leaves the books as they are. -/
theorem of_bookless (h : s.Books hush N W) (hc : s.changesOnly bookless t) : t.Books hush N W := by
  refine h.of_parts hc (by decide) fun L hL => (h.laws L hL).of_changes hc fun f hf => ?_
  simp only [bookLaws, List.mem_cons, List.not_mem_nil, or_false] at hL
  rcases hL with rfl | rfl | rfl <;> revert f <;> decide

theorem setPort {a : Authority} {x : Port} (h : s.Books hush N W) : (s.setPort a x).Books hush N W :=
  h.of_bookless ((changesOnly_refl _ s).setPort (by decide))

theorem notify {a : Authority} {n : Notice} (h : s.Books hush N W) : (s.notify a n).Books hush N W := h.setPort

theorem notifyBoth {a : Authority} {n : Notice} (h : s.Books hush N W) : (s.notifyBoth a n).Books hush N W :=
  h.of_bookless ((changesOnly_refl _ s).notifyBoth (by decide))

theorem notifyDenied {d : DoorId} {c : Credential} {code : DenyCode} (h : s.Books hush N W) :
    (s.notifyDenied d c code).Books hush N W := h.of_bookless ((changesOnly_refl _ s).notifyDenied (by decide))

theorem makeReply {p : Authority} {b : Bool} {r : Reply} (h : s.Books hush N W) : (s.makeReply p b r).Books hush N W :=
  h.setPort

/-! ### Doors -/

/-- A door may be written with the admission that it has, and its binding not taken away; or with another one, where
neither waits for an escort or a consent. -/
theorem setDoor {d : DoorId} {x : Door} (h : s.Books hush N W)
    (hadm : (x.admission = (s.door d).admission ∧ (x.binding = none → (s.door d).binding = none)) ∨
      ((s.door d).admission.contractorSpace = none ∧ x.admission.contractorSpace = none))
    (hquiet : hush → s.posture = .lockdown → (s.door d).Quiet → x.Quiet) : (s.setDoor d x).Books hush N W := by
  have hspace : ∀ e, ((s.setDoor d x).door e).admission.contractorSpace = (s.door e).admission.contractorSpace := by
    intro e
    rw [State.setDoor_door]
    split_ifs with he
    · subst he
      rcases hadm with ⟨ha, -⟩ | ⟨ha, ha'⟩
      · rw [ha]
      · rw [ha, ha']
    · rfl
  refine h.of_parts (fs := [.doors]) ((changesOnly_refl _ s).setDoor (by decide)) (by decide)
    (fun L hL => (h.laws L hL).setDoor) (pairings := fun _ => ?_) (quiet := fun _ hh => ?_)
  · refine h.pairings.of_slots rfl (fun k y hy hsound => ?_) hspace fun _ => rfl
    by_cases hd : y.door = d
    · subst hd
      rcases hadm with ⟨ha, hb⟩ | ⟨ha, -⟩
      · exact hsound.of_same (by simpa using mt hb) (by simpa using ha) (fun _ _ => rfl) fun p w _ _ hw => ⟨w, hw, rfl⟩
      · obtain ⟨-, ⟨v, p, w, ⟨-, hv⟩ | ⟨-, hv⟩, -⟩, -⟩ := hsound <;> simp [hv, Admission.contractorSpace] at ha
    · exact hsound.of_same (by simp [State.setDoor_door, hd]) (by simp [State.setDoor_door, hd]) (fun _ _ => rfl)
        fun p w _ _ hw => ⟨w, hw, rfl⟩
  · have hq := h.quiet hh
    rw [State.lockdownQuiet_iff] at hq ⊢
    intro hp
    obtain ⟨hdoors, hlanes⟩ := hq hp
    refine ⟨fun e => ?_, hlanes⟩
    rw [State.setDoor_door]
    split_ifs
    · exact hquiet hh hp (hdoors d)
    · exact hdoors e

/-- A door may be written with its admission and binding, and fewer verdicts or more that are no Opens to an Enter. -/
theorem setDoor_messages {d : DoorId} {x : Door} (h : s.Books hush N W) (ha : x.admission = (s.door d).admission)
    (hb : x.binding = (s.door d).binding)
    (hv : hush → s.posture = .lockdown → ∀ v ∈ x.outgoing, v ∈ (s.door d).outgoing ∨ v.outcome ≠ .admitted) :
    (s.setDoor d x).Books hush N W :=
  h.setDoor (.inl ⟨ha, fun hx => hb ▸ hx⟩) fun hh hp ⟨h1, h2, h3⟩ =>
    ⟨fun v hmem => (hv hh hp v hmem).elim (h1 v) id, ha ▸ h2, ha ▸ h3⟩

theorem addVerdict {d : DoorId} {v : Verdict} (h : s.Books hush N W)
    (hv : hush → s.posture = .lockdown → v.outcome ≠ .admitted) : (s.addVerdict d v).Books hush N W := by
  refine h.setDoor_messages rfl rfl fun hh hp w hw => ?_
  rcases List.mem_append.1 hw with hw | hw
  · exact .inl hw
  · rw [List.mem_singleton] at hw
    exact .inr (hw ▸ hv hh hp)

theorem denyPresentation {d : DoorId} {c : Credential} {code : DenyCode} (h : s.Books hush N W) :
    (s.denyPresentation d c code).Books hush N W :=
  (h.addVerdict fun _ _ => VerdictOutcome.noConfusion).notifyDenied

/-- The outcomes on a door's list stay when its verdicts are marked as ended. -/
theorem quiet_map_ended {l : List Verdict} (h : ∀ v ∈ l, v.outcome ≠ .admitted) :
    ∀ v ∈ l.map Verdict.ended, v.outcome ≠ .admitted := by
  simpa [Verdict.ended] using h

theorem endAdmission {d : DoorId} (h : s.Books hush N W) (hd : (s.door d).admission.contractorSpace = none) :
    (s.endAdmission d).Books hush N W :=
  h.setDoor (.inr ⟨hd, rfl⟩) fun _ _ ⟨hv, _, _⟩ => ⟨quiet_map_ended hv, rfl, rfl⟩

theorem endPassage {d : DoorId} (h : s.Books hush N W) : (s.endPassage d).Books hush N W := by
  unfold State.endPassage
  split
  · rename_i hd
    refine h.endAdmission ?_
    cases ha : (s.door d).admission <;> simp [ha, Admission.state, Admission.contractorSpace] at hd ⊢
  · exact h

/-- A door that waits for nobody may be opened for an Exit (R144). -/
theorem openExit {d : DoorId} {c : Credential} {x : Option PermitNo} {m : OpenMark} (h : s.Books hush N W)
    (hd : (s.door d).admission.contractorSpace = none) : (s.openExit d c x m).Books hush N W := by
  refine addVerdict (h.setDoor (.inr ⟨hd, rfl⟩) fun _ _ ⟨hv, _, _⟩ => ⟨hv, rfl, rfl⟩) fun _ _ => ?_
  exact VerdictOutcome.noConfusion

/-! ### Lanes -/

theorem setLane {l : LaneNo} {x : Lane} (h : s.Books hush N W)
    (hx : hush → s.posture = .lockdown → (s.lane l).phase.Quiet → x.phase.Quiet) : (s.setLane l x).Books hush N W := by
  refine h.of_parts (fs := [.lanes]) ((changesOnly_refl _ s).setLane (by decide)) (by decide)
    (fun L hL => (h.laws L hL).setLane) (quiet := fun _ hh => ?_)
  have hq := h.quiet hh
  rw [State.lockdownQuiet_iff] at hq ⊢
  intro hp
  obtain ⟨hdoors, hlanes⟩ := hq hp
  refine ⟨hdoors, fun k => ?_⟩
  rw [State.setLane_lane]
  split_ifs
  · exact hx hh hp (hlanes l)
  · exact hlanes k

/-- A lane that sends nothing now. -/
theorem setLane_silent {l : LaneNo} {x : Lane} (h : s.Books hush N W) (hx : ∀ v, x.phase ≠ .sendingVerdict v) :
    (s.setLane l x).Books hush N W := h.setLane fun _ _ _ v hv => absurd hv (hx v)

/-- What a lane sends next stands on the list of its door (R162). -/
theorem sendNext {l : LaneNo} (h : s.Books hush N W) : (s.sendNext l).Books hush N W := by
  unfold State.sendNext
  dsimp only
  split
  · rename_i v rest _ hv
    refine h.setLane fun hh hp _ w hw => ?_
    obtain rfl := LanePhase.sendingVerdict.inj hw
    have hq := h.quiet hh
    rw [State.lockdownQuiet_iff] at hq
    exact ((hq hp).1 (s.turnDoor l)).1 v (by simp [hv])
  · exact h.setLane_silent fun _ => LanePhase.noConfusion
  · exact h.setLane_silent fun _ => LanePhase.noConfusion

/-! ### Slots that stay with their admission -/

/-- A slot may be written with its door, contractor and sort of step, and an escort that it has or that is an Idle
permit of role Escort which no slot holds (R149). -/
theorem setSlot {k : SlotNo} {x y : Slot} (h : s.Books hush N W) (hx : s.slot k = some x) (hdoor : y.door = x.door)
    (hcontractor : y.contractor = x.contractor) (hstep : y.expects = .consent ↔ x.expects = .consent)
    (hescort : ∀ e, y.escort = some e →
      (∃ p, s.permit e.permit = some p ∧ p.role = .escort ∧ p.state = .idle ∧ p.credential = e.credential) ∧
      (x.holds e.permit = true ∨ ((∀ j z, s.slot j = some z → z.holds e.permit = false) ∧ ¬ N e.permit))) :
    (s.setSlot k (some y)).Books hush N W := by
  obtain ⟨h1, h2, h3, h4⟩ := h.pairings
  have hholds : ∀ n, y.holds n = true → x.holds n = true ∨
      ((∀ j z, s.slot j = some z → z.holds n = false) ∧ ¬ N n) := by
    intro n hn
    simp only [Slot.holds, Bool.or_eq_true, beq_iff_eq] at hn
    rcases hn with rfl | hn
    · exact .inl (by simp [Slot.holds, hcontractor])
    · split at hn
      · rename_i e he
        simp only [beq_iff_eq] at hn
        exact hn ▸ (hescort e he).2
      · exact nomatch hn
  have hsound : (s.setSlot k (some y)).slotSound y := by
    obtain ⟨hb, ⟨v, p, w, hadm, hrest⟩, -⟩ := h1 k x hx
    refine ⟨hdoor ▸ hb, ⟨v, p, w, ?_, ?_⟩, fun e he => (hescort e he).1⟩
    · rw [hcontractor]
      exact hadm.imp (fun ⟨a, b⟩ => ⟨mt hstep.1 a, hdoor ▸ b⟩) fun ⟨a, b⟩ => ⟨hstep.2 a, hdoor ▸ b⟩
    · rw [hcontractor]
      exact hrest
  have hread : ∀ j z, (s.setSlot k (some y)).slot j = some z → j = k ∧ z = y ∨ j ≠ k ∧ s.slot j = some z := by
    intro j z hz
    rw [State.setSlot_slot] at hz
    split_ifs at hz with hj
    · exact .inl ⟨hj, (Option.some.inj hz).symm⟩
    · exact .inr ⟨hj, hz⟩
  have hother : ∀ j z, j ≠ k → s.slot j = some z →
      ¬ (z.door = y.door ∨ ∃ n, z.holds n = true ∧ y.holds n = true) := by
    rintro j z hj hz (he | ⟨n, hzn, hyn⟩)
    · exact hj (h2 j k z x hz hx (.inl (he.trans hdoor)))
    · rcases hholds n hyn with hxn | ⟨hno, -⟩
      · exact hj (h2 j k z x hz hx (.inr ⟨n, hzn, hxn⟩))
      · simp [hno j z hz] at hzn
  refine h.of_parts (fs := [.slots]) ((changesOnly_refl _ s).setSlot (by decide)) (by decide)
    (fun L hL => (h.laws L hL).setSlot) (pairings := fun _ => ⟨?_, ?_, ?_, ?_⟩) (unheld := fun _ n j z hn hz => ?_)
  · intro j z hz
    rcases hread j z hz with ⟨-, rfl⟩ | ⟨-, hz⟩
    · exact hsound
    · exact h1 j z hz
  · intro i j z z' hz hz' hor
    rcases hread i z hz with ⟨hi, hzy⟩ | ⟨hi, hsz⟩ <;> rcases hread j z' hz' with ⟨hj, hzy'⟩ | ⟨hj, hsz'⟩
    · exact hi.trans hj.symm
    · exact absurd (hor.imp Eq.symm fun ⟨n, a, b⟩ => ⟨n, b, a⟩) (hzy ▸ hother j z' hj hsz')
    · exact absurd hor (hzy' ▸ hother i z hi hsz)
    · exact h2 i j z z' hsz hsz' hor
  · intro d hd
    obtain ⟨j, z, hz, hzd⟩ := h3 d hd
    by_cases hj : j = k
    · subst hj
      rw [hx, Option.some.injEq] at hz
      exact ⟨j, y, by simp, by rw [hdoor, hz, hzd]⟩
    · exact ⟨j, z, by rwa [State.setSlot_slot, if_neg hj], hzd⟩
  · intro n
    refine (h4 n).trans (State.slotsCounted_congr fun j => ⟨?_, ?_⟩).symm
    · rintro ⟨z, sp, hz, hsp, hmem⟩
      rcases hread j z hz with ⟨rfl, rfl⟩ | ⟨-, hz⟩
      · exact ⟨x, sp, hx, hdoor ▸ hsp, hmem⟩
      · exact ⟨z, sp, hz, hsp, hmem⟩
    · rintro ⟨z, sp, hz, hsp, hmem⟩
      by_cases hj : j = k
      · subst hj
        rw [hx, Option.some.injEq] at hz
        exact ⟨y, sp, by simp, by subst hz; rw [hdoor]; exact hsp, hmem⟩
      · exact ⟨z, sp, by rwa [State.setSlot_slot, if_neg hj], hsp, hmem⟩
  · rcases hread j z hz with ⟨rfl, rfl⟩ | ⟨-, hz⟩
    · by_contra hne
      rcases hholds n (Bool.not_eq_false _ ▸ hne) with hxn | ⟨-, hno⟩
      · simp [h.unheld n j x hn hx] at hxn
      · exact hno hn
    · exact h.unheld n j z hn hz

/-- A slot may be written with its door, contractor, sort of step and escort. -/
theorem setSlot_same {k : SlotNo} {x y : Slot} (h : s.Books hush N W) (hx : s.slot k = some x) (hdoor : y.door = x.door)
    (hcontractor : y.contractor = x.contractor) (hstep : y.expects = .consent ↔ x.expects = .consent)
    (hescort : y.escort = x.escort) : (s.setSlot k (some y)).Books hush N W := by
  refine h.setSlot hx hdoor hcontractor hstep fun e he => ⟨?_, .inl ?_⟩
  · exact (h.pairings.1 k x hx).2.2 e (hescort ▸ he)
  · simp [Slot.holds, hescort ▸ he]

end State.Books

end Sys2Proof.Machine

/-! SUPPORT. The books through what happens to permits, work orders and rooms: permits that are issued, freed, leave and
enter, work orders that are written, closed and freed. -/

namespace Sys2Proof.Machine

open State (changesOnly_refl)

variable {s t u : State} {fs : List Field} {hush : Prop} {N : PermitNo → Prop} {W : List Waiting} {L : TableLaw}

/-! ### Permits written -/

/-- The pairings stand where a permit that no slot holds is written. -/
theorem State.pairingsSound.setPermit {n : PermitNo} {x : Option Permit} (h : s.pairingsSound)
    (hn : ∀ k y, s.slot k = some y → y.holds n = false) : (s.setPermit n x).pairingsSound := by
  refine h.of_slots rfl (fun k y hy hsound => hsound.of_same id rfl (fun m hm => ?_) fun p w _ _ hw => ⟨w, hw, rfl⟩)
    (fun _ => rfl) fun _ => rfl
  rw [State.setPermit_permit, if_neg]
  rintro rfl
  simp [hn k y hy] at hm

/-- A permit that is not counted adds nothing to a party load (R113). -/
theorem partyShare_of_not_counted {w : WorkOrderNo} {x : Option Permit}
    (h : ∀ p, x = some p → p.state.counted = false) : partyShare w x = 0 := by
  cases x with
  | none => rfl
  | some p => simp [partyShare, h p rfl]

namespace State.Books

/-- A permit Pending or Inside is written with its role, work order and room, and a mark of revocation kept. -/
theorem setPermit_counted {n : PermitNo} {p q : Permit} (h : s.Books hush N W) (hp : s.permit n = some p)
    (hrole : q.role = p.role) (hwo : q.workOrder = p.workOrder) (hrev : p.revoked = true → q.revoked = true)
    (hstate : (∃ x y, p.state = .inside x ∧ q.state = .inside y ∧ y.room = x.room) ∨
      (q.state = p.state ∧ p.state.counted = true)) : (s.setPermit n (some q)).Books hush N W := by
  have hpc : p.state.counted = true := by
    rcases hstate with ⟨x, y, hx, -⟩ | ⟨-, hc⟩
    · rw [hx]; rfl
    · exact hc
  have hqc : q.state.counted = true := by
    rcases hstate with ⟨x, y, -, hy, -⟩ | ⟨he, hc⟩
    · rw [hy]; rfl
    · rwa [he]
  have hroom : q.state.room = p.state.room := by
    rcases hstate with ⟨x, y, hx, hy, hr⟩ | ⟨he, -⟩
    · simp [hx, hy, PermitState.room, hr]
    · rw [he]
  have hread : ∀ m, (s.setPermit n (some q)).permit m = if m = n then some q else s.permit m := fun _ =>
    State.setPermit_permit ..
  have hweight : ∀ m, (s.setPermit n (some q)).weight m = s.weight m := by
    intro m
    simp only [State.weight, hread]
    split_ifs with hm
    · subst hm
      simp [hp, hrole]
    · rfl
  refine h.of_parts (fs := [.permits]) ((changesOnly_refl _ s).setPermit (by decide)) (by decide)
    (fun L hL => (h.laws L hL).setPermit fun hc => absurd hc (ne_credentials_of_book hL))
    (permits := fun _ => h.permits.transport (fun m r hr => ?_) fun _ r w _ hw => ⟨w, hw, .inl⟩)
    (pairings := fun _ => h.pairings.setPermit (h.pairings.unheld fun r hr => ?_))
    (rooms := fun _ => ⟨fun k o ho => ?_, fun m r room hr hrm => ?_⟩)
    (parties := fun _ => h.parties.transport (fun w m => ?_) fun _ w hw => ⟨w, hw, rfl⟩)
  · rw [hread] at hr
    split_ifs at hr with hm
    · subst hm
      rw [Option.some.injEq] at hr
      subst hr
      exact ⟨p, hp, hrole, hwo, fun _ => hqc, hrev⟩
    · exact ⟨r, hr, rfl, rfl, (h.permits m r hr).2.1, id⟩
  · rw [hp, Option.some.injEq] at hr
    exact hr ▸ hpc
  · refine (h.rooms.1 k o ho).of_permits (fun m _ => hweight m) (fun m _ r x hr hx => ?_) fun m _ r room d b hr hx => ?_
    · by_cases hm : m = n
      · subst hm
        rw [hp, Option.some.injEq] at hr
        subst hr
        rcases hstate with ⟨x', y, hx', hy, hrr⟩ | ⟨he, -⟩
        · rw [hx, PermitState.inside.injEq] at hx'
          exact ⟨q, y, by simp, hy, hx' ▸ hrr⟩
        · exact ⟨q, x, by simp, he.trans hx, rfl⟩
      · exact ⟨r, x, by rw [hread, if_neg hm, hr], hx, rfl⟩
    · by_cases hm : m = n
      · subst hm
        rw [hp, Option.some.injEq] at hr
        subst hr
        rcases hstate with ⟨x', y, hx', -⟩ | ⟨he, -⟩
        · rw [hx] at hx'
          exact nomatch hx'
        · exact ⟨q, d, b, by simp, he.trans hx⟩
      · exact ⟨r, d, b, by rw [hread, if_neg hm, hr], hx⟩
  · rw [hread] at hr
    split_ifs at hr with hm
    · subst hm
      rw [Option.some.injEq] at hr
      subst hr
      exact h.rooms.2 m p room hp (hroom ▸ hrm)
    · exact h.rooms.2 m r room hr hrm
  · rw [hread]
    split_ifs with hm
    · subst hm
      simp [partyShare, hp, hrole, hwo, hpc, hqc]
    · rfl

/-- A permit that is out of use or Idle, and that no slot holds, is freed, or issued to a work order that is not
Closing (R120, R130). -/
theorem setPermit_uncounted {n : PermitNo} {x : Option Permit} (h : s.Books hush N W)
    (hs : ∀ p, s.permit n = some p → p.state.counted = false)
    (hheld : ∀ k y, s.slot k = some y → y.holds n = false)
    (hx : ∀ q, x = some q → q.state = .idle ∧ q.revoked = false ∧ (q.role = .escort ↔ q.workOrder = 0) ∧
      ∃ w, s.workOrder q.workOrder = some w ∧ w.isClosing = false) : (s.setPermit n x).Books hush N W := by
  have hread : ∀ m, (s.setPermit n x).permit m = if m = n then x else s.permit m := fun _ => State.setPermit_permit ..
  refine h.of_parts (fs := [.permits]) ((changesOnly_refl _ s).setPermit (by decide)) (by decide)
    (fun L hL => (h.laws L hL).setPermit fun hc => absurd hc (ne_credentials_of_book hL))
    (permits := fun _ m q hq => ?_) (pairings := fun _ => h.pairings.setPermit hheld)
    (rooms := fun _ => ⟨fun k o ho => (h.rooms.1 k o ho).of_same fun m hm => ?_, fun m q room hq hroom => ?_⟩)
    (parties := fun _ => h.parties.transport (fun w m => ?_) fun _ w hw => ⟨w, hw, rfl⟩)
  · rw [hread] at hq
    split_ifs at hq with hm
    · obtain ⟨-, hrev, hrole, w, hw, hcl⟩ := hx q hq
      exact ⟨hrole, fun hr => by simp [hrev] at hr, w, hw, fun hc => by simp [hcl] at hc⟩
    · exact h.permits m q hq
  · rw [hread, if_neg]
    rintro rfl
    obtain ⟨p, hp, hroom⟩ := (h.rooms.1 k o ho).room_of_mem hm
    have := PermitState.counted_iff_room.2 ⟨_, hroom⟩
    simp [hs p hp] at this
  · rw [hread] at hq
    split_ifs at hq with hm
    · obtain ⟨hidle, -⟩ := hx q hq
      simp [hidle, PermitState.room] at hroom
    · exact h.rooms.2 m q room hq hroom
  · rw [hread]
    split_ifs with hm
    · subst hm
      rw [partyShare_of_not_counted hs, partyShare_of_not_counted fun q hq => ?_]
      rw [(hx q hq).1]
      rfl
    · rfl

theorem freePermit {n : PermitNo} {c : ReleaseCause} (h : s.Books hush N W)
    (hs : ∀ p, s.permit n = some p → p.state.counted = false)
    (hheld : ∀ k y, s.slot k = some y → y.holds n = false) : (s.freePermit n c).Books hush N W := by
  unfold State.freePermit
  split
  · exact h
  · exact (h.setPermit_uncounted hs hheld (by simp)).notify

/-! ### Work orders written -/

theorem roster (h : s.Books hush N W) : s.rosterFixed := (h.laws .roster (by simp [bookLaws])).1
theorem spaces (h : s.Books hush N W) : s.spacesSound := h.laws .spaces (by simp [bookLaws])
theorem records (h : s.Books hush N W) : s.recordsSound := h.laws .records (by simp [bookLaws])

/-- Work order 0 is never Closing (R102). -/
theorem ne_zero_of_closing {n : WorkOrderNo} {w : WorkOrder} (h : s.Books hush N W) (hw : s.workOrder n = some w)
    (hc : w.isClosing = true) : n ≠ 0 := by
  rintro rfl
  obtain ⟨load, hload⟩ := h.roster
  rw [hload, Option.some.injEq] at hw
  simp [← hw, WorkOrder.isClosing, WorkOrder.escortRoster] at hc

/-- A general work order is written with its issuer, options and party load; where it becomes Closing its permits are
revoked (R129). -/
theorem setWorkOrder {n : WorkOrderNo} {w w' : WorkOrder} (h : s.Books hush N W) (hw : s.workOrder n = some w)
    (hn : n ≠ 0) (hi : w'.issuer = w.issuer) (ho : w'.options = w.options) (hp : w'.party = w.party)
    (hc : w'.isClosing = true → w.isClosing = true ∨
      ∀ m q, s.permit m = some q → q.workOrder = n → q.revoked = true) :
    (s.setWorkOrder n (some w')).Books hush N W := by
  have hback : ∀ v r', (s.setWorkOrder n (some w')).workOrder v = some r' →
      ∃ r, s.workOrder v = some r ∧ r'.issuer = r.issuer ∧ r'.options = r.options ∧ r'.party = r.party := by
    intro v r' hr'
    rw [State.setWorkOrder_workOrder] at hr'
    split_ifs at hr' with hv
    · rw [Option.some.injEq] at hr'
      exact ⟨w, hv ▸ hw, hr' ▸ hi, hr' ▸ ho, hr' ▸ hp⟩
    · exact ⟨r', hr', rfl, rfl, rfl⟩
  have hforth : ∀ v r, s.workOrder v = some r → ∃ r', (s.setWorkOrder n (some w')).workOrder v = some r' ∧
      r'.options = r.options ∧ (r' = r ∨ v = n ∧ r = w ∧ r' = w') := by
    intro v r hr
    rw [State.setWorkOrder_workOrder]
    split_ifs with hv
    · subst hv
      rw [hw, Option.some.injEq] at hr
      exact ⟨w', rfl, hr ▸ ho, .inr ⟨rfl, hr.symm, rfl⟩⟩
    · exact ⟨r, hr, rfl, .inl rfl⟩
  refine h.of_parts (fs := [.workOrders]) ((changesOnly_refl _ s).setWorkOrder (by decide)) (by decide)
    (fun L hL => (h.laws L hL).setWorkOrder fun _ => hn)
    (orders := fun _ => h.orders.transport (fun v r' hr' => ?_) fun _ => rfl)
    (permits := fun _ => h.permits.transport
      (fun m q hq => ⟨q, hq, rfl, rfl, (h.permits m q hq).2.1, id⟩) fun m q r hq hr => ?_)
    (pairings := fun _ => h.pairings.of_slots rfl (fun k y hy hsound => hsound.of_same id rfl (fun _ _ => rfl)
      fun q r _ _ hr => ?_) (fun _ => rfl) fun _ => rfl)
    (parties := fun _ => h.parties.transport (fun _ _ => rfl) fun v r' hr' => ?_)
  · obtain ⟨r, hr, hi, ho, -⟩ := hback v r' hr'
    exact ⟨r, hr, hi, ho⟩
  · obtain ⟨r', hr', -, rfl | ⟨hv, rfl, rfl⟩⟩ := hforth _ r hr
    · exact ⟨r', hr', .inl⟩
    · exact ⟨r', hr', fun hcl => (hc hcl).imp_right fun hrev => hrev m q hq hv⟩
  · obtain ⟨r', hr', ho, -⟩ := hforth _ r hr
    exact ⟨r', hr', ho⟩
  · obtain ⟨r, hr, -, -, hp⟩ := hback v r' hr'
    exact ⟨r, hr, hp⟩

/-- A work order that has no permits may be taken into use with party load 0, or freed (R103, R116). -/
theorem setWorkOrder_empty {n : WorkOrderNo} {x : Option WorkOrder} (h : s.Books hush N W) (hn : n ≠ 0)
    (hno : ∀ m q, s.permit m = some q → q.workOrder ≠ n)
    (hx : ∀ w, x = some w → w.party = 0 ∧ w.issuer ≠ .sec ∧
      ∀ o ∈ w.options, 2 ≤ o.space.val ∧ (s.space o.space).owner = some w.issuer) :
    (s.setWorkOrder n x).Books hush N W := by
  refine h.of_parts (fs := [.workOrders]) ((changesOnly_refl _ s).setWorkOrder (by decide)) (by decide)
    (fun L hL => (h.laws L hL).setWorkOrder fun _ => hn) (orders := fun _ v w hw hv => ?_)
    (permits := fun _ m q hq => ?_)
    (pairings := fun _ => h.pairings.of_slots rfl (fun k y hy hsound => hsound.of_same id rfl (fun _ _ => rfl)
      fun q r hq _ hr => ⟨r, by rwa [State.setWorkOrder_workOrder, if_neg (hno _ q hq)], rfl⟩) (fun _ => rfl) fun _ => rfl)
    (parties := fun _ v w hw => ?_)
  · rw [State.setWorkOrder_workOrder] at hw
    split_ifs at hw
    · exact (hx w hw).2
    · exact h.orders v w hw hv
  · obtain ⟨h1, h2, w, hw, h3⟩ := h.permits m q hq
    exact ⟨h1, h2, w, by rwa [State.setWorkOrder_workOrder, if_neg (hno m q hq)], h3⟩
  · rw [State.setWorkOrder_workOrder] at hw
    split_ifs at hw with hv
    · subst hv
      rw [(hx w hw).1]
      refine (Finset.sum_eq_zero fun m _ => ?_).symm
      show partyShare v (s.permit m) = 0
      cases hp : s.permit m with
      | none => rfl
      | some q => simp [partyShare, hno m q hp]
    · exact h.parties v w hw

/-- A Closing work order that is freed has no permits left: each would be revoked, and so Pending or Inside (R116, R129,
R137). -/
theorem freeWorkOrderIfDone {n : WorkOrderNo} (h : s.Books hush N W) : (s.freeWorkOrderIfDone n).Books hush N W := by
  unfold State.freeWorkOrderIfDone
  split
  · exact h
  · rename_i r hr
    split
    · rename_i cause hstate
      have hcl : r.isClosing = true := by simp [WorkOrder.isClosing, hstate]
      split
      · exact h
      · rename_i hcount
        have hno : ∀ m q, s.permit m = some q → q.workOrder ≠ n := by
          rintro m q hq rfl
          obtain ⟨-, hrev, w, hw, hclosing⟩ := h.permits m q hq
          rw [hr, Option.some.injEq] at hw
          have hall := lowest_eq_none.1 (Option.not_isSome_iff_eq_none.1 hcount) m
          rw [show s.permits.get m = some q from hq] at hall
          simp [hrev (hclosing (hw ▸ hcl))] at hall
        have hnil : s.permitsOf n = [] := by
          refine List.eq_nil_iff_forall_not_mem.2 fun m hm => ?_
          have := mem_numbersWhere.1 hm
          split at this
          · rename_i q hq
            exact hno m q hq (by simpa using this)
          · exact nomatch this
        rw [hnil]
        exact h.setWorkOrder_empty (h.ne_zero_of_closing hr hcl) hno (by simp)
    · exact h

/-! ### Rooms -/

/-- The flag of a record says nothing of its permits (R96). -/
theorem evaluateOver {k : RecordNo} (h : s.Books hush N W) : (s.evaluateOver k).Books hush N W := by
  have hset : ∀ o b, s.record k = some o → (s.setRecord k (some { o with overAllowance := b })).Books hush N W := by
    intro o b ho
    refine h.of_parts (fs := [.occupancy]) ((changesOnly_refl _ s).setRecord (by decide)) (by decide)
      (fun L hL => (h.laws L hL).setRecord_same ho rfl id)
      (rooms := fun _ => ⟨fun j o' hj => ?_, fun n p room hp hroom => ?_⟩)
    · rw [State.setRecord_record] at hj
      split_ifs at hj
      · rw [Option.some.injEq] at hj
        exact hj ▸ h.rooms.1 k o ho
      · exact h.rooms.1 j o' hj
    · obtain ⟨j, o', hj, hr, hmem⟩ := h.rooms.2 n p room hp hroom
      by_cases hjk : j = k
      · subst hjk
        rw [ho, Option.some.injEq] at hj
        subst hj
        exact ⟨j, _, State.setRecord_record_self .., hr, hmem⟩
      · exact ⟨j, o', by rwa [State.setRecord_record, if_neg hjk], hr, hmem⟩
  unfold State.evaluateOver
  split
  · exact h
  · rename_i o ho
    dsimp only
    split
    · split
      · exact h
      · exact (hset o true ho).notify
    · exact hset o false ho

theorem evaluateRoom {r : Designator} (h : s.Books hush N W) : (s.evaluateRoom r).Books hush N W := by
  unfold State.evaluateRoom
  split
  · exact h
  · exact h.evaluateOver

theorem evaluateWhere {p : Designator → Bool} (h : s.Books hush N W) : (s.evaluateWhere p).Books hush N W :=
  foldl_keeps h fun _ _ _ hu => hu.evaluateOver

end State.Books

end Sys2Proof.Machine

/-! SUPPORT. The books through permits that leave a room, are reserved for one and enter it (R92, R94, R95, R113, R121,
R122). -/

namespace Sys2Proof.Machine

open State (changesOnly_refl)

variable {s t u : State} {fs : List Field} {hush : Prop} {N : PermitNo → Prop} {W : List Waiting} {L : TableLaw}

/-! ### Party loads alone -/

/-- From `s` to `t` the work orders have changed in their party loads alone. -/
def State.partiesMove (s t : State) : Prop :=
  ∀ v, t.workOrder v = s.workOrder v ∨ ∃ w n, s.workOrder v = some w ∧ t.workOrder v = some { w with party := n }

theorem State.partiesMove.refl (s : State) : s.partiesMove s := fun _ => .inl rfl

theorem State.partiesMove.trans (h : s.partiesMove t) (h' : t.partiesMove u) : s.partiesMove u := by
  intro v
  rcases h' v with h2 | ⟨w, n, hw, h2⟩
  · rw [h2]
    exact h v
  · rcases h v with h1 | ⟨w', n', hw', h1⟩
    · exact .inr ⟨w, n, h1 ▸ hw, h2⟩
    · rw [h1, Option.some.injEq] at hw
      exact .inr ⟨w', n, hw', by rw [h2, ← hw]⟩

theorem State.partiesMove.back (h : s.partiesMove t) {v : WorkOrderNo} {w' : WorkOrder} (hw : t.workOrder v = some w') :
    ∃ w, s.workOrder v = some w ∧ w'.issuer = w.issuer ∧ w'.options = w.options := by
  rcases h v with h1 | ⟨w, n, hs, h1⟩
  · exact ⟨w', h1 ▸ hw, rfl, rfl⟩
  · rw [h1, Option.some.injEq] at hw
    exact ⟨w, hs, hw ▸ rfl, hw ▸ rfl⟩

theorem State.partiesMove.forth (h : s.partiesMove t) {v : WorkOrderNo} {w : WorkOrder} (hw : s.workOrder v = some w) :
    ∃ w', t.workOrder v = some w' ∧ w'.options = w.options ∧ w'.isClosing = w.isClosing := by
  rcases h v with h1 | ⟨w', n, hs, h1⟩
  · exact ⟨w, h1.trans hw, rfl, rfl⟩
  · rw [hs, Option.some.injEq] at hw
    exact ⟨_, h1, hw ▸ rfl, hw ▸ rfl⟩

theorem State.changeParty_workOrder (s : State) (w v : WorkOrderNo) (g : Nat → Nat) :
    (s.changeParty w g).workOrder v =
      if v = w then (s.workOrder v).map fun r => { r with party := g r.party } else s.workOrder v := by
  unfold State.changeParty
  split_ifs with hv
  · subst hv
    cases hw : s.workOrder v with
    | none => exact hw
    | some r => simp
  · split
    · rfl
    · rw [State.setWorkOrder_workOrder, if_neg hv]

theorem State.changeParty_partiesMove (s : State) (w : WorkOrderNo) (g : Nat → Nat) :
    s.partiesMove (s.changeParty w g) := by
  intro v
  rw [State.changeParty_workOrder]
  split_ifs
  · cases hv : s.workOrder v with
    | none => exact .inl rfl
    | some r => exact .inr ⟨r, _, rfl, rfl⟩
  · exact .inl rfl

/-! ### The record of a room -/

/-- In sound records a room's record is found by any record that names it (R91). -/
theorem State.recordsSound.recordOf_eq {k : RecordNo} {o : OccupancyRecord} (h : s.recordsSound)
    (ho : s.record k = some o) : s.recordOf o.room = some k :=
  State.recordOf_eq_some.2 ⟨⟨o, ho, rfl⟩, fun j hj o' ho' he => absurd (h.1 j k o' o ho' ho he) (ne_of_lt hj)⟩

/-- What a permit that leaves a room leaves of its record. -/
def OccupancyRecord.without (o : OccupancyRecord) (n : PermitNo) (weight : Nat) : Option OccupancyRecord :=
  let o' := { o with inside := o.inside.erase n, pending := o.pending.erase n, load := o.load - weight }
  if o'.inside = [] ∧ o'.pending = [] then none else some o'

theorem State.leaveRoom_eq {k : RecordNo} {o : OccupancyRecord} {n : PermitNo} {weight : Nat} (h : s.recordsSound)
    (ho : s.record k = some o) : s.leaveRoom o.room n weight = s.setRecord k (o.without n weight) := by
  unfold State.leaveRoom
  rw [h.recordOf_eq ho]
  dsimp only
  rw [ho]
  rfl

/-- Without repeats, a member erased from both of two lists is erased from the whole. -/
theorem erase_append_erase {l m : List PermitNo} {n : PermitNo} (h : (l ++ m).Nodup) :
    l.erase n ++ m.erase n = (l ++ m).erase n := by
  rw [h.erase_eq_filter, (List.nodup_append.1 h).1.erase_eq_filter, (List.nodup_append.1 h).2.1.erase_eq_filter,
    List.filter_append]

/-- A record whose permit has left, and is counted there no more, agrees with the permits. -/
theorem State.recordAgrees.without {o o' : OccupancyRecord} {n : PermitNo} {weight : Nat} (h : s.recordAgrees o)
    (hn : n ∈ o.inside ++ o.pending) (hw : s.weight n = weight) (ho : o.without n weight = some o')
    (hp : ∀ m, m ≠ n → t.permit m = s.permit m) :
    t.recordAgrees o' ∧ o'.room = o.room ∧ ∀ m, m ∈ o'.inside ++ o'.pending ↔ m ≠ n ∧ m ∈ o.inside ++ o.pending := by
  have hnodup := h.1
  have hload := h.2.1
  unfold OccupancyRecord.without at ho
  dsimp only at ho
  split_ifs at ho
  obtain rfl := Option.some.inj ho
  have hlists : o.inside.erase n ++ o.pending.erase n = (o.inside ++ o.pending).erase n := erase_append_erase hnodup
  have hmem : ∀ m, m ∈ o.inside.erase n ++ o.pending.erase n ↔ m ≠ n ∧ m ∈ o.inside ++ o.pending := by
    intro m
    rw [hlists, hnodup.mem_erase_iff]
  have hsum : o.load = weight + (((o.inside ++ o.pending).erase n).map s.weight).sum := by
    rw [hload, ← hw, ((List.perm_cons_erase hn).map s.weight).sum_eq, List.map_cons, List.sum_cons]
  refine ⟨State.recordAgrees.of_same (s := s) ⟨?_, ?_, fun m hm => ?_, fun m hm => ?_⟩ fun m hm =>
    hp m ((hmem m).1 hm).1, rfl, hmem⟩
  · exact hlists ▸ hnodup.erase n
  · dsimp only
    rw [hlists, hsum]
    omega
  · exact h.2.2.1 m (List.mem_of_mem_erase hm)
  · exact h.2.2.2 m (List.mem_of_mem_erase hm)

/-- A record left with a permit on its lists stays in use. -/
theorem OccupancyRecord.without_isSome {o : OccupancyRecord} {n m : PermitNo} {weight : Nat}
    (hnodup : (o.inside ++ o.pending).Nodup) (hm : m ∈ o.inside ++ o.pending) (hne : m ≠ n) :
    ∃ o', o.without n weight = some o' := by
  unfold OccupancyRecord.without
  dsimp only
  rw [if_neg]
  · exact ⟨_, rfl⟩
  · rintro ⟨hi, hp⟩
    have : m ∈ o.inside.erase n ++ o.pending.erase n := by
      rw [erase_append_erase hnodup, hnodup.mem_erase_iff]
      exact ⟨hne, hm⟩
    simp [hi, hp] at this

namespace State.Books

/-- A permit on its room's list: the record, and that no other record has it. -/
theorem record_of_room {n : PermitNo} {p : Permit} {room : Designator} (h : s.Books hush N W)
    (hp : s.permit n = some p) (hroom : p.state.room = some room) :
    ∃ k o, s.record k = some o ∧ o.room = room ∧ n ∈ o.inside ++ o.pending ∧
      ∀ j o', j ≠ k → s.record j = some o' → n ∉ o'.inside ++ o'.pending := by
  obtain ⟨k, o, ho, hr, hmem⟩ := h.rooms.2 n p room hp hroom
  refine ⟨k, o, ho, hr, hmem, fun j o' hj ho' hn => hj (h.records.1 j k o' o ho' ho ?_)⟩
  obtain ⟨q, hq, hqr⟩ := (h.rooms.1 j o' ho').room_of_mem hn
  rw [hp, Option.some.injEq] at hq
  rw [← hq, hroom, Option.some.injEq] at hqr
  exact hqr.symm.trans hr.symm

/-- Where a permit of a room's record has become Idle or been freed, with its weight off the record and off its party
load, the books balance (R113, R122). -/
theorem of_left {n : PermitNo} {p : Permit} {k : RecordNo} {o : OccupancyRecord} {y : Option Permit}
    (h : s.Books hush N W) (hp : s.permit n = some p) (ho : s.record k = some o) (hmem : n ∈ o.inside ++ o.pending)
    (hothers : ∀ j o', j ≠ k → s.record j = some o' → n ∉ o'.inside ++ o'.pending)
    (hy : ∀ q, y = some q → q.state = .idle ∧ q.role = p.role ∧ q.workOrder = p.workOrder ∧ q.revoked = false ∧
      p.revoked = false)
    (hc : s.changesOnly [.occupancy, .workOrders, .permits] t) (hlaws : ∀ L ∈ bookLaws, L.Holds none t)
    (hper : ∀ m, t.permit m = if m = n then y else s.permit m)
    (hord : ∀ w, t.workOrder w = if w = p.workOrder then
      (s.workOrder w).map fun r => { r with party := r.party - p.role.weight } else s.workOrder w)
    (hrec : ∀ j, t.record j = if j = k then o.without n p.role.weight else s.record j) : t.Books hush N W := by
  have hagree := h.rooms.1 k o ho
  have hcounted : p.state.counted = true := by
    obtain ⟨q, hq, hroom⟩ := hagree.room_of_mem hmem
    rw [hp, Option.some.injEq] at hq
    exact hq ▸ PermitState.counted_iff_room.2 ⟨_, hroom⟩
  have hweight : s.weight n = p.role.weight := by simp [State.weight, hp]
  have hshare : ∀ w, partyShare w y = 0 := fun w => partyShare_of_not_counted fun q hq => by rw [(hy q hq).1]; rfl
  have hmove : s.partiesMove t := by
    intro w
    rw [hord]
    split_ifs
    · cases hw : s.workOrder w with
      | none => exact .inl rfl
      | some r => exact .inr ⟨r, _, rfl, rfl⟩
    · exact .inl rfl
  have hunheld := h.pairings.unheld (n := n) fun q hq => by rw [hp, Option.some.injEq] at hq; exact hq ▸ hcounted
  refine h.of_parts hc (by decide) hlaws
    (orders := fun _ => h.orders.transport (fun v w' hw' => hmove.back hw') fun m => by rw [hc.space_eq (by decide)])
    (permits := fun _ => h.permits.transport (fun m q hq => ?_) fun m q w _ hw => ?_)
    (pairings := fun _ => h.pairings.of_slots (hc.slot_eq (by decide)) (fun j x hx hsound => hsound.of_same
      (by simp [hc.door_eq (by decide)]) (by rw [hc.door_eq (by decide)]) (fun m hm => ?_) fun q w _ _ hw => ?_)
      (fun d => by rw [hc.door_eq (by decide)]) fun m => by rw [hc.space_eq (by decide)])
    (rooms := fun _ => ⟨fun j o' hj => ?_, fun m q room hq hqr => ?_⟩)
    (parties := fun _ => h.parties.shift (n := n) (v := p.workOrder) (g := (· - p.role.weight))
      (fun m hm => by rw [hper, if_neg hm]) (fun w hw => ?_) hord fun a ha => ?_)
  · rw [hper] at hq
    split_ifs at hq with hm
    · obtain ⟨-, hrole, hwo, hrev, hno⟩ := hy q hq
      exact ⟨p, hm ▸ hp, hrole, hwo, fun hr => by simp [hrev] at hr, fun hr => by simp [hno] at hr⟩
    · exact ⟨q, hq, rfl, rfl, (h.permits m q hq).2.1, id⟩
  · obtain ⟨w', hw', -, hcl⟩ := hmove.forth hw
    exact ⟨w', hw', fun hc => .inl (hcl ▸ hc)⟩
  · rw [hper, if_neg]
    rintro rfl
    simp [hunheld j x hx] at hm
  · obtain ⟨w', hw', hopt, -⟩ := hmove.forth hw
    exact ⟨w', hw', hopt⟩
  · rw [hrec] at hj
    split_ifs at hj with hjk
    · exact (hagree.without hmem hweight hj fun m hm => by rw [hper, if_neg hm]).1
    · refine (h.rooms.1 j o' hj).of_same fun m hm => ?_
      rw [hper, if_neg]
      rintro rfl
      exact hothers j o' hjk hj hm
  · rw [hper] at hq
    split_ifs at hq with hm
    · simp [(hy q hq).1, PermitState.room] at hqr
    · obtain ⟨j, o', hj, hr, hmem'⟩ := h.rooms.2 m q room hq hqr
      by_cases hjk : j = k
      · subst hjk
        rw [ho, Option.some.injEq] at hj
        subst hj
        obtain ⟨o', ho'⟩ := OccupancyRecord.without_isSome (weight := p.role.weight) hagree.1 hmem' hm
        obtain ⟨-, hroom', hlists⟩ := hagree.without (t := s) hmem hweight ho' fun _ _ => rfl
        exact ⟨j, o', by rw [hrec, if_pos rfl, ho'], hroom'.trans hr, (hlists m).2 ⟨hm, hmem'⟩⟩
      · exact ⟨j, o', by rw [hrec, if_neg hjk, hj], hr, hmem'⟩
  · rw [hper, if_pos rfl, hshare]
    simp [partyShare, hp, hw.symm]
  · rw [hper, if_pos rfl, hshare]
    simp only [partyShare, hp, hcounted, and_self, if_true] at ha ⊢
    omega

/-- A permit leaves Pending or Inside (R113, R116, R122). -/
theorem leave {n : PermitNo} {p : Permit} {room : Designator} {c : ReleaseCause} (h : s.Books hush N W)
    (hp : s.permit n = some p) (hroom : p.state.room = some room) : (s.leave n p room c).Books hush N W := by
  obtain ⟨k, o, ho, rfl, hmem, hothers⟩ := h.record_of_room hp hroom
  have hleave := State.leaveRoom_eq (n := n) (weight := p.role.weight) h.records ho
  have hc : s.changesOnly [.occupancy, .workOrders]
      ((s.leaveRoom o.room n p.role.weight).changeParty p.workOrder (· - p.role.weight)) :=
    ((changesOnly_refl _ s).leaveRoom (by decide)).changeParty (by decide)
  have hrec : ∀ j, ((s.leaveRoom o.room n p.role.weight).changeParty p.workOrder (· - p.role.weight)).record j =
      if j = k then o.without n p.role.weight else s.record j := by
    intro j
    rw [((changesOnly_refl [.workOrders] (s.leaveRoom o.room n p.role.weight)).changeParty (by decide)).record_eq
      (by decide), hleave]
    exact State.setRecord_record ..
  have key : ∀ y : Option Permit, (∀ q, y = some q → q.state = .idle ∧ q.role = p.role ∧ q.workOrder = p.workOrder ∧
      q.revoked = false ∧ p.revoked = false) →
      (((s.leaveRoom o.room n p.role.weight).changeParty p.workOrder (· - p.role.weight)).setPermit n y).Books hush N W :=
    fun y hy => h.of_left hp ho hmem hothers hy ((hc.mono (by decide)).setPermit (by decide))
      (fun L hL => (h.laws L hL).leaveRoom.changeParty.setPermit fun hcr => absurd hcr (ne_credentials_of_book hL))
      (fun m => by rw [State.setPermit_permit, hc.permit_eq (by decide)])
      (fun w => by rw [hleave]; exact State.changeParty_workOrder _ _ _ _) hrec
  unfold State.leave
  dsimp only
  refine freeWorkOrderIfDone ?_
  split
  · unfold State.freePermit
    rw [show ((s.leaveRoom o.room n p.role.weight).changeParty p.workOrder _).permit n = some p by
      rw [hc.permit_eq (by decide), hp]]
    exact (key none (by simp)).notify
  · rename_i hrev
    exact key (some { p with state := .idle }) fun q hq => by obtain rfl := Option.some.inj hq; simpa using hrev

theorem releasePermit {b : Bool} {n : PermitNo} (h : s.Books hush N W) : (State.releasePermit b s n).Books hush N W := by
  unfold State.releasePermit
  split
  · rename_i p hp
    split
    · rename_i room _ _ hst
      have h1 := h.leave (c := .released) hp (room := room) (by rw [hst]; rfl)
      split
      · exact h1.evaluateRoom
      · exact h1
    · exact h
  · exact h

theorem releaseAll {b : Bool} {ns : List PermitNo} (h : s.Books hush N W) : (s.releaseAll b ns).Books hush N W :=
  foldl_keeps h fun _ _ _ hu => hu.releasePermit

theorem exitPermit {n : PermitNo} (h : s.Books hush N W) : (s.exitPermit n).Books hush N W := by
  unfold State.exitPermit
  split
  · rename_i p hp
    split
    · rename_i stay hst
      exact (h.leave hp (by rw [hst]; rfl)).evaluateRoom
    · exact h
  · exact h

theorem closePassages {b : Bool} {ds : List DoorId} (h : s.Books hush N W) : (s.closePassages b ds).Books hush N W :=
  foldl_keeps h.releaseAll fun _ _ _ hu => hu.endPassage

end State.Books

end Sys2Proof.Machine

/-! SUPPORT. The books through reservations and passages (R94, R95, R113, R119, R121, R140). -/

namespace Sys2Proof.Machine

open State (changesOnly_refl)

variable {s t u : State} {fs : List Field} {hush : Prop} {N : PermitNo → Prop} {W : List Waiting} {L : TableLaw}
  {r : Designator} {d : DoorId}

/-! ### Permits made Pending (R113, R119) -/

/-- A permit as a reservation leaves it. -/
def Permit.reserved (p : Permit) (r : Designator) (d : DoorId) (remote : Bool) : Permit :=
  { p with state := .pending r d remote }

theorem State.makePending_eq {n : PermitNo} {p : Permit} (hp : s.permit n = some p) (r : Designator) (d : DoorId)
    (remote : Bool) : s.makePending r d remote n =
      (s.setPermit n (some (p.reserved r d remote))).changeParty p.workOrder (· + p.role.weight) := by
  unfold State.makePending
  rw [hp]
  rfl

/-- Idle permits become Pending one after the other, and the party loads go with them (R113). -/
theorem State.makePending_all {remote : Bool} (ns : List PermitNo) (u : State) (hns : ns.Nodup)
    (hidle : ∀ n ∈ ns, ∃ p, u.permit n = some p ∧ p.state = .idle) :
    let t := ns.foldl (fun s n => s.makePending r d remote n) u
    u.changesOnly [.workOrders, .permits] t ∧
      (∀ m, t.permit m = if m ∈ ns then (u.permit m).map fun p => p.reserved r d remote else u.permit m) ∧
      u.partiesMove t ∧ (u.partiesSound → t.partiesSound) := by
  induction ns generalizing u with
  | nil => exact ⟨changesOnly_refl _ u, by simp, State.partiesMove.refl u, id⟩
  | cons n ns ih =>
    obtain ⟨hn, hns⟩ := List.nodup_cons.1 hns
    obtain ⟨p, hp, hpi⟩ := hidle n List.mem_cons_self
    have hc : u.changesOnly [.workOrders, .permits] (u.makePending r d remote n) :=
      (changesOnly_refl _ u).makePending (by decide)
    have hper : ∀ m, (u.makePending r d remote n).permit m =
        if m = n then some (p.reserved r d remote) else u.permit m := by
      intro m
      rw [State.makePending_eq hp, ((changesOnly_refl [.workOrders] _).changeParty (by decide)).permit_eq (by decide)]
      exact State.setPermit_permit ..
    have hord : ∀ w, (u.makePending r d remote n).workOrder w = if w = p.workOrder then
        (u.workOrder w).map fun q => { q with party := q.party + p.role.weight } else u.workOrder w := by
      intro w
      rw [State.makePending_eq hp, State.changeParty_workOrder]
      rfl
    have hmove : u.partiesMove (u.makePending r d remote n) := by
      rw [State.makePending_eq hp]
      exact State.changeParty_partiesMove (u.setPermit n _) _ _
    have hzero : ∀ w, partyShare w (u.permit n) = 0 := fun w => partyShare_of_not_counted fun q hq => by
      rw [hp, Option.some.injEq] at hq
      rw [← hq, hpi]
      rfl
    have hparties : u.partiesSound → (u.makePending r d remote n).partiesSound := fun h =>
      h.shift (n := n) (v := p.workOrder) (g := (· + p.role.weight)) (fun m hm => by rw [hper, if_neg hm])
        (fun w hw => by rw [hzero, hper]; simp [partyShare, Permit.reserved, hw.symm]) hord
        fun a _ => by rw [hzero, hper]; simp [partyShare, Permit.reserved, PermitState.counted]
    obtain ⟨htc, htp, htm, hts⟩ := ih (u.makePending r d remote n) hns fun m hm => by
      obtain ⟨q, hq, hqi⟩ := hidle m (List.mem_cons_of_mem _ hm)
      exact ⟨q, by rw [hper, if_neg (fun he : m = n => hn (he ▸ hm)), hq], hqi⟩
    refine ⟨hc.trans htc, fun m => ?_, hmove.trans htm, fun h => hts (hparties h)⟩
    rw [List.foldl_cons, htp, hper]
    by_cases hm : m = n
    · subst hm
      simp [hn, hp]
    · simp [hm]

/-! ### Reservations (R92, R94) -/

/-- The flag of a record is all that its evaluation writes. -/
theorem State.evaluateOver_record {k : RecordNo} {o : OccupancyRecord} (ho : s.record k = some o) :
    ∃ b, ∀ j, (s.evaluateOver k).record j = if j = k then some { o with overAllowance := b } else s.record j := by
  have hset : ∀ b j, (s.setRecord k (some { o with overAllowance := b })).record j =
      if j = k then some { o with overAllowance := b } else s.record j := fun _ _ => State.setRecord_record ..
  unfold State.evaluateOver
  rw [ho]
  dsimp only
  split_ifs with h1 h2
  · refine ⟨o.overAllowance, fun j => ?_⟩
    split_ifs with hj
    · rw [hj, ho]
    · rfl
  · exact ⟨true, hset true⟩
  · exact ⟨false, hset false⟩

/-- The record that a reservation uses is the room's own, or one just taken into use (R92). -/
theorem State.recordFor_cases {k : RecordNo} (h : s.recordFor r = some k) :
    (∃ o, s.record k = some o ∧ o.room = r) ∨ (s.record k = none ∧ ∀ j o, s.record j = some o → o.room ≠ r) := by
  unfold State.recordFor at h
  split at h
  · rename_i j hj
    obtain rfl := Option.some.inj h
    exact .inl (State.recordOf_eq_some.1 hj).1
  · rename_i hnone
    exact .inr ⟨Option.isNone_iff_eq_none.1 (lowest_eq_some.1 h).1, State.recordOf_eq_none.1 hnone⟩

/-- A record as a reservation leaves it but for its flag: with permits of a load on its pending list, and the guaranteed
load and ceiling of their summary (R94). -/
def OccupancyRecord.taking (o : OccupancyRecord) (ns : List PermitNo) (load guaranteed ceiling : Nat) :
    OccupancyRecord :=
  { o with pending := o.pending ++ ns, load := o.load + load, guaranteed := guaranteed, ceiling := ceiling }

theorem State.reserve_eq {k : RecordNo} (hk : s.recordFor r = some k) (g c : Nat) (d : DoorId) (remote : Bool)
    (ns : List PermitNo) : s.reserve r g c d remote ns =
      ns.foldl (fun s n => s.makePending r d remote n) ((s.setRecord k
        (some (((s.record k).getD (.taken r)).taking ns (ns.map s.weight).sum g c))).evaluateOver k) := by
  unfold State.reserve
  rw [hk]
  rfl

/-- The record that a reservation uses agrees with the permits, or is one just taken into use. -/
theorem State.roomsSound.recordFor {k : RecordNo} (h : s.roomsSound) (hk : s.recordFor r = some k) :
    ∃ o, (s.record k).getD (.taken r) = o ∧ s.recordAgrees o ∧ o.room = r ∧ ∀ o', s.record k = some o' → o' = o := by
  rcases State.recordFor_cases hk with ⟨o, ho, hr⟩ | ⟨hnone, -⟩
  · exact ⟨o, by rw [ho]; rfl, h.1 k o ho, hr, fun o' ho' => by rw [ho, Option.some.injEq] at ho'; exact ho'.symm⟩
  · refine ⟨.taken r, by rw [hnone]; rfl, ⟨?_, ?_, ?_, ?_⟩, rfl, fun o' ho' => by rw [hnone] at ho'; exact nomatch ho'⟩ <;>
      simp [OccupancyRecord.taken]

/-- A record whose room takes in Idle permits, which become Pending for it, agrees with the permits. -/
theorem State.recordAgrees.reserve {o : OccupancyRecord} {ns : List PermitNo} {remote b : Bool} {g c : Nat}
    (h : s.recordAgrees o) (hns : ns.Nodup) (hidle : ∀ n ∈ ns, ∃ p, s.permit n = some p ∧ p.state = .idle)
    (hper : ∀ m, t.permit m = if m ∈ ns then (s.permit m).map fun p => p.reserved o.room d remote else s.permit m) :
    t.recordAgrees { o.taking ns (ns.map s.weight).sum g c with overAllowance := b } := by
  have hout : ∀ m ∈ o.inside ++ o.pending, m ∉ ns := by
    intro m hm hmn
    obtain ⟨p, hp, hroom⟩ := h.room_of_mem hm
    obtain ⟨q, hq, hqi⟩ := hidle m hmn
    rw [hp, Option.some.injEq] at hq
    simp [hq, hqi, PermitState.room] at hroom
  have hweight : ∀ m, t.weight m = s.weight m := by
    intro m
    simp only [State.weight, hper]
    split_ifs
    · cases s.permit m <;> rfl
    · rfl
  obtain ⟨h1, h2, h3, h4⟩ := h
  refine ⟨?_, ?_, fun m hm => ?_, fun m hm => ?_⟩
  · show (o.inside ++ (o.pending ++ ns)).Nodup
    rw [← List.append_assoc, List.nodup_append]
    exact ⟨h1, hns, fun m hm m' hm' he => hout m hm (he ▸ hm')⟩
  · show o.load + (ns.map s.weight).sum = ((o.inside ++ (o.pending ++ ns)).map t.weight).sum
    simp only [funext hweight, h2, ← List.append_assoc, List.map_append, List.sum_append]
  · obtain ⟨p, stay, hp, hst⟩ := h3 m hm
    exact ⟨p, stay, by rw [hper, if_neg (hout m (List.mem_append_left _ hm)), hp], hst⟩
  · rcases List.mem_append.1 hm with hm | hm
    · obtain ⟨p, e, b', hp, hst⟩ := h4 m hm
      exact ⟨p, e, b', by rw [hper, if_neg (hout m (List.mem_append_right _ hm)), hp], hst⟩
    · obtain ⟨p, hp, -⟩ := hidle m hm
      exact ⟨_, d, remote, by rw [hper, if_pos hm, hp]; rfl, rfl⟩

namespace State.Books

/-- Idle permits that no slot holds are reserved for a room (R94). -/
theorem reserve {g c : Nat} {remote : Bool} {ns : List PermitNo} (h : s.Books hush N W) (hne : ns ≠ []) (hns : ns.Nodup)
    (hidle : ∀ n ∈ ns, ∃ p, s.permit n = some p ∧ p.state = .idle)
    (hheld : ∀ n ∈ ns, ∀ k x, s.slot k = some x → x.holds n = false) : (s.reserve r g c d remote ns).Books hush N W := by
  have hlaws : ∀ L ∈ bookLaws, L.Holds none (s.reserve r g c d remote ns) := fun L hL => (h.laws L hL).reserve hne
  cases hk : s.recordFor r with
  | none =>
    unfold State.reserve
    rwa [hk]
  | some k =>
    rw [State.reserve_eq hk] at hlaws ⊢
    obtain ⟨o, hget, hown, hroomo, huniq⟩ := h.rooms.recordFor hk
    rw [hget] at hlaws ⊢
    obtain ⟨b, hrec⟩ := State.evaluateOver_record
      (State.setRecord_record_self s k (some (o.taking ns (ns.map s.weight).sum g c)))
    simp only [State.setRecord_record] at hrec
    have hc0 : s.changesOnly [.occupancy, .ports]
        ((s.setRecord k (some (o.taking ns (ns.map s.weight).sum g c))).evaluateOver k) :=
      ((changesOnly_refl _ s).setRecord (by decide)).evaluateOver (by decide)
    generalize (s.setRecord k _).evaluateOver k = u at *
    have hpu : u.permit = s.permit := hc0.permit_eq (by decide)
    obtain ⟨hc1, hper, hmove, hparties⟩ := State.makePending_all (r := r) (d := d) (remote := remote) ns u hns
      (by rwa [hpu])
    generalize ns.foldl (fun s n => s.makePending r d remote n) u = t at *
    have hc : s.changesOnly [.occupancy, .ports, .workOrders, .permits] t :=
      (hc0.mono (by decide)).trans (hc1.mono (by decide))
    have hmove' : s.partiesMove t := by
      intro v
      have := hmove v
      rwa [hc0.workOrder_eq (by decide)] at this
    rw [hpu] at hper
    rw [← hc1.record_eq (by decide)] at hrec
    have hout : ∀ m p, s.permit m = some p → p.state.counted = true → m ∉ ns := by
      intro m p hp hcount hm
      obtain ⟨q, hq, hqi⟩ := hidle m hm
      rw [hp, Option.some.injEq] at hq
      simp [hq, hqi, PermitState.counted] at hcount
    refine h.of_parts hc (by decide) hlaws
      (orders := fun _ => h.orders.transport (fun v w' hw' => hmove'.back hw') fun m => by rw [hc.space_eq (by decide)])
      (permits := fun _ => h.permits.transport (fun m q hq => ?_) fun m q w _ hw => ?_)
      (pairings := fun _ => h.pairings.of_slots (hc.slot_eq (by decide)) (fun j x hx hsound => hsound.of_same
        (by simp [hc.door_eq (by decide)]) (by rw [hc.door_eq (by decide)]) (fun m hm => ?_) fun q w _ _ hw => ?_)
        (fun e => by rw [hc.door_eq (by decide)]) fun m => by rw [hc.space_eq (by decide)])
      (rooms := fun _ => ⟨fun j o' hj => ?_, fun m q room hq hroom => ?_⟩)
      (parties := fun _ => hparties (h.parties.transport (fun w m => by rw [hpu]) fun v w hw =>
        ⟨w, by rwa [hc0.workOrder_eq (by decide)] at hw, rfl⟩))
    · rw [hper] at hq
      split_ifs at hq with hm
      · obtain ⟨p, hp, rfl⟩ := Option.map_eq_some_iff.1 hq
        exact ⟨p, hp, rfl, rfl, fun _ => rfl, id⟩
      · exact ⟨q, hq, rfl, rfl, (h.permits m q hq).2.1, id⟩
    · obtain ⟨w', hw', -, hcl⟩ := hmove'.forth hw
      exact ⟨w', hw', fun hc => .inl (hcl ▸ hc)⟩
    · rw [hper, if_neg]
      intro hmn
      simp [hheld m hmn j x hx] at hm
    · obtain ⟨w', hw', hopt, -⟩ := hmove'.forth hw
      exact ⟨w', hw', hopt⟩
    · rw [hrec] at hj
      split_ifs at hj with hjk
      · rw [Option.some.injEq] at hj
        exact hj ▸ hown.reserve hns hidle (by rwa [hroomo])
      · refine (h.rooms.1 j o' hj).of_same fun m hm => ?_
        obtain ⟨p, hp, hroom⟩ := (h.rooms.1 j o' hj).room_of_mem hm
        rw [hper, if_neg (hout m p hp (PermitState.counted_iff_room.2 ⟨_, hroom⟩))]
    · rw [hper] at hq
      split_ifs at hq with hm
      · obtain ⟨p, hp, rfl⟩ := Option.map_eq_some_iff.1 hq
        obtain rfl : r = room := by simpa [Permit.reserved, PermitState.room] using hroom
        exact ⟨k, _, (hrec k).trans (if_pos rfl), hroomo, by simp [OccupancyRecord.taking, hm]⟩
      · obtain ⟨j, o', hj, hr, hmem⟩ := h.rooms.2 m q room hq hroom
        by_cases hjk : j = k
        · subst hjk
          obtain rfl := huniq o' hj
          refine ⟨j, _, (hrec j).trans (if_pos rfl), hr, ?_⟩
          simp only [OccupancyRecord.taking, ← List.append_assoc]
          exact List.mem_append_left _ hmem
        · exact ⟨j, o', by rw [hrec, if_neg hjk, if_neg hjk, hj], hr, hmem⟩

/-- A door opened for an Enter outside Lockdown, with Idle permits that no slot holds (R140). -/
theorem openEnter {g c : Nat} {remote : Bool} {l : List HeldPermit} (h : s.Books hush N W)
    (hd : (s.door d).admission.contractorSpace = none) (hp : hush → s.posture ≠ .lockdown) (hne : l ≠ [])
    (hl : (l.map HeldPermit.permit).Nodup)
    (hidle : ∀ x ∈ l, ∃ p, s.permit x.permit = some p ∧ p.state = .idle)
    (hheld : ∀ x ∈ l, ∀ k y, s.slot k = some y → y.holds x.permit = false) :
    (s.openEnter d r g c remote l).Books hush N W := by
  have hc : s.changesOnly [.occupancy, .workOrders, .permits, .ports]
      (s.reserve r g c d remote (l.map HeldPermit.permit)) := (changesOnly_refl _ s).reserve (by decide)
  have h1 : (s.reserve r g c d remote (l.map HeldPermit.permit)).Books hush N W :=
    h.reserve (by simpa using hne) hl (by simpa using hidle) (by simpa using hheld)
  have hp1 : hush → (s.reserve r g c d remote (l.map HeldPermit.permit)).posture ≠ .lockdown := by
    rwa [show (s.reserve r g c d remote (l.map HeldPermit.permit)).posture = s.posture from hc .posture (by decide)]
  refine addVerdict (h1.setDoor (.inr ⟨by rwa [hc.door_eq (by decide)], rfl⟩) fun hh hl => absurd hl (hp1 hh))
    fun hh hl => absurd hl (hp1 hh)

/-! ### Passages (R95, R121) -/

/-- A Pending permit goes in (R95): its place on the record's lists moves, and it is Inside the same room. -/
theorem moveInside {n : PermitNo} {p q : Permit} {e : DoorId} {remote : Bool} {stay : Stay} (h : s.Books hush N W)
    (hp : s.permit n = some p) (hpend : p.state = .pending r e remote) (hq : q.state = .inside stay)
    (hroom : stay.room = r) (hrole : q.role = p.role) (hwo : q.workOrder = p.workOrder) (hrev : q.revoked = p.revoked) :
    ((s.moveInside r n).setPermit n (some q)).Books hush N W := by
  obtain ⟨k, o, ho, rfl, hmem, hothers⟩ := h.record_of_room (room := r) hp (by rw [hpend]; rfl)
  have hagree := h.rooms.1 k o ho
  have hnotin : n ∉ o.inside := by
    intro hn
    obtain ⟨p', x, hp', hst, -⟩ := hagree.2.2.1 n hn
    rw [hp, Option.some.injEq] at hp'
    rw [hp', hst] at hpend
    exact nomatch hpend
  have hin : n ∈ o.pending := (List.mem_append.1 hmem).resolve_left hnotin
  have hmove : s.moveInside o.room n =
      s.setRecord k (some { o with pending := o.pending.erase n, inside := o.inside ++ [n] }) := by
    unfold State.moveInside
    rw [h.records.recordOf_eq ho]
    dsimp only
    rw [ho]
  have hpc : p.state.counted = true := by rw [hpend]; rfl
  have hqc : q.state.counted = true := by rw [hq]; rfl
  have hc : s.changesOnly [.occupancy, .permits] ((s.moveInside o.room n).setPermit n (some q)) := by
    rw [hmove]
    exact ((changesOnly_refl _ s).setRecord (by decide)).setPermit (by decide)
  have hlaws : ∀ L ∈ bookLaws, L.Holds none ((s.moveInside o.room n).setPermit n (some q)) := fun L hL =>
    (h.laws L hL).moveInside.setPermit fun hcr => absurd hcr (ne_credentials_of_book hL)
  have hper : ∀ m, ((s.moveInside o.room n).setPermit n (some q)).permit m = if m = n then some q else s.permit m := by
    intro m
    rw [State.setPermit_permit, hmove]
    rfl
  have hrec : ∀ j, ((s.moveInside o.room n).setPermit n (some q)).record j = if j = k then
      some { o with pending := o.pending.erase n, inside := o.inside ++ [n] } else s.record j := by
    intro j
    rw [hmove]
    exact State.setRecord_record ..
  generalize (s.moveInside o.room n).setPermit n (some q) = t at *
  have hunheld := h.pairings.unheld (n := n) fun p' hp' => by rw [hp, Option.some.injEq] at hp'; exact hp' ▸ hpc
  have hweight : ∀ m, t.weight m = s.weight m := by
    intro m
    simp only [State.weight, hper]
    split_ifs with hm
    · simp [hm, hp, hrole]
    · rfl
  have hperm : ((o.inside ++ [n]) ++ o.pending.erase n).Perm (o.inside ++ o.pending) := by
    rw [List.append_assoc]
    exact List.Perm.append_left _ (List.perm_cons_erase hin).symm
  refine h.of_parts hc (by decide) hlaws
    (permits := fun _ => h.permits.transport (fun m q' hq' => ?_) fun _ _ w _ hw =>
      ⟨w, by rwa [hc.workOrder_eq (by decide)], .inl⟩)
    (pairings := fun _ => h.pairings.of_slots (hc.slot_eq (by decide)) (fun j x hx hsound => hsound.of_same
      (by simp [hc.door_eq (by decide)]) (by rw [hc.door_eq (by decide)]) (fun m hm => ?_) fun _ w _ _ hw =>
        ⟨w, by rwa [hc.workOrder_eq (by decide)], rfl⟩)
      (fun e => by rw [hc.door_eq (by decide)]) fun m => by rw [hc.space_eq (by decide)])
    (rooms := fun _ => ⟨fun j o' hj => ?_, fun m q' room hq' hqr => ?_⟩)
    (parties := fun _ => h.parties.transport (fun w m => ?_) fun v w hw =>
      ⟨w, by rwa [hc.workOrder_eq (by decide)] at hw, rfl⟩)
  · rw [hper] at hq'
    split_ifs at hq' with hm
    · rw [Option.some.injEq] at hq'
      subst hq'
      exact ⟨p, hm ▸ hp, hrole, hwo, fun _ => hqc, fun hr => hrev ▸ hr⟩
    · exact ⟨q', hq', rfl, rfl, (h.permits m q' hq').2.1, id⟩
  · rw [hper, if_neg]
    rintro rfl
    simp [hunheld j x hx] at hm
  · rw [hrec] at hj
    split_ifs at hj with hjk
    · rw [Option.some.injEq] at hj
      subst hj
      refine ⟨hperm.nodup_iff.2 hagree.1, ?_, fun m hm => ?_, fun m hm => ?_⟩
      · rw [funext hweight, (hperm.map s.weight).sum_eq]
        exact hagree.2.1
      · rw [hper]
        split_ifs with hmn
        · exact ⟨q, stay, rfl, hq, hroom⟩
        · exact hagree.2.2.1 m ((List.mem_append.1 hm).resolve_right (by simpa using hmn))
      · rw [hper, if_neg]
        · exact hagree.2.2.2 m (List.mem_of_mem_erase hm)
        · rintro rfl
          exact ((List.nodup_append.1 hagree.1).2.1.mem_erase_iff.1 hm).1 rfl
    · refine (h.rooms.1 j o' hj).of_same fun m hm => ?_
      rw [hper, if_neg]
      rintro rfl
      exact hothers j o' hjk hj hm
  · have hk : ∃ k' o', t.record k' = some o' ∧ o'.room = o.room ∧ ∀ m, m ∈ o.inside ++ o.pending →
        m ∈ o'.inside ++ o'.pending :=
      ⟨k, _, (hrec k).trans (if_pos rfl), rfl, fun m hm => hperm.mem_iff.2 hm⟩
    obtain ⟨k', o', hk', hr', hsub⟩ := hk
    rw [hper] at hq'
    split_ifs at hq' with hm
    · rw [Option.some.injEq] at hq'
      subst hq'
      obtain rfl : o.room = room := by simpa [hq, PermitState.room, hroom] using hqr
      exact ⟨k', o', hk', hr', hm ▸ hsub n hmem⟩
    · obtain ⟨j, o1, hj, hr, hmem1⟩ := h.rooms.2 m q' room hq' hqr
      by_cases hjk : j = k
      · subst hjk
        rw [ho, Option.some.injEq] at hj
        subst hj
        exact ⟨k', o', hk', hr'.trans hr, hsub m hmem1⟩
      · exact ⟨j, o1, by rw [hrec, if_neg hjk, hj], hr, hmem1⟩
  · rw [hper]
    split_ifs with hm
    · subst hm
      simp [partyShare, hp, hpc, hqc, hrole, hwo]
    · rfl

theorem enterPermit {x : HeldPermit} (h : s.Books hush N W) : (s.enterPermit d x).Books hush N W := by
  unfold State.enterPermit
  split
  · exact h
  · rename_i p hp
    split
    · rename_i room e remote hst
      have hin : ∀ stay : Stay, stay.room = room → ((s.moveInside room x.permit).setPermit x.permit
          (some { p with state := .inside stay })).Books hush N W :=
        fun stay hs => h.moveInside hp hst rfl hs rfl rfl rfl
      dsimp only
      refine notifyBoth ?_
      split
      · exact (hin _ rfl).notifyBoth
      · exact hin _ rfl
    · exact h

end State.Books

end Sys2Proof.Machine

/-! SUPPORT. The books through what becomes of spaces and pairings (R29 to R32, R149 to R151). -/

namespace Sys2Proof.Machine

open State (changesOnly_refl)

variable {s t u : State} {fs : List Field} {hush : Prop} {N : PermitNo → Prop} {W : List Waiting} {L : TableLaw}
  {d : DoorId} {k : SlotNo} {x : Slot} {f : Option SpaceNo}

/-! ### Owners (R21, R29) -/

/-- A switch under way, or a drain count lowered, leaves a space with its owner: its staged descriptor is the owner's. -/
theorem SpaceRecord.lowered_owner {n : SpaceNo} {r : SpaceRecord} (h : r.soundAt n) (forced : Bool) :
    (r.lowered forced).owner = r.owner := by
  unfold SpaceRecord.lowered
  split
  · rfl
  · rename_i w hw
    split_ifs
    · exact (h.2.2 w hw).symm
    · rfl

theorem State.foldl_lowerDrain_owner (f : Option SpaceNo) (m : SpaceNo) (ns : List SpaceNo) (s : State)
    (h : s.spacesSound) : ((ns.foldl (fun s n => s.lowerDrain f n) s).space m).owner = (s.space m).owner := by
  induction ns generalizing s with
  | nil => rfl
  | cons n ns ih =>
    have hs : (s.lowerDrain f n).spacesSound := TableLaw.Holds.lowerDrain (L := .spaces) (f := f) h (.inr rfl)
    rw [List.foldl_cons, ih _ hs, State.lowerDrain_space]
    split_ifs with hm
    · rw [hm, SpaceRecord.lowered_owner (State.spacesSound_iff.1 h n)]
    · rfl

theorem State.endPairing_owner (h : s.spacesSound) (m : SpaceNo) :
    ((s.endPairing k d f).space m).owner = (s.space m).owner := by
  unfold State.endPairing
  dsimp only
  split
  · rfl
  · exact State.foldl_lowerDrain_owner f m _ ((s.setSlot k none).endAdmission d) h

theorem State.endPairing_slot (s : State) (k : SlotNo) (d : DoorId) (f : Option SpaceNo) (j : SlotNo) :
    (s.endPairing k d f).slot j = if j = k then none else s.slot j := by
  rw [(s.endPairing_changes k d f).slot_eq (by decide)]
  exact State.setSlot_slot ..

theorem State.endPairing_door (s : State) (k : SlotNo) (d : DoorId) (f : Option SpaceNo) (e : DoorId) :
    (s.endPairing k d f).door e = if e = d then
      { s.door d with admission := .idle, outgoing := (s.door d).outgoing.map Verdict.ended } else s.door e := by
  rw [(s.endPairing_changes k d f).door_eq (by decide)]
  exact State.setDoor_door ..

/-! ### Pairings that end and begin (R30, R150, R151) -/

/-- One pairing fewer: the slots and doors of the others stay, and the drain counts of its spaces are one lower. -/
theorem State.pairingsSound.remove (h : s.pairingsSound) (hx : s.slot k = some x)
    (hcount : ∀ n, (s.door x.door).admission.counts n ≤ 1)
    (hslot : ∀ j, t.slot j = if j = k then none else s.slot j)
    (hdoor : ∀ e, e ≠ x.door → t.door e = s.door e)
    (hidle : (t.door x.door).admission.contractorSpace = none)
    (hdrain : ∀ n, (t.space n).drain = (s.space n).drain - (s.door x.door).admission.counts n)
    (hp : t.permit = s.permit) (hw : t.workOrder = s.workOrder) : t.pairingsSound := by
  obtain ⟨h1, h2, h3, h4⟩ := h
  have hback : ∀ j y, t.slot j = some y → j ≠ k ∧ s.slot j = some y ∧ t.door y.door = s.door y.door := by
    intro j y hy
    rw [hslot] at hy
    split_ifs at hy with hj
    exact ⟨hj, hy, hdoor _ fun he => hj (h2 j k y x hy hx (.inl he))⟩
  have hcounts : ∀ n j, j ≠ k → (s.countsIn n j ↔ t.countsIn n j) := by
    intro n j hj
    rw [State.countsIn_iff, State.countsIn_iff, hslot, if_neg hj]
    refine exists_congr fun y => and_congr_right fun hy => ?_
    rw [hdoor _ fun he => hj (h2 j k y x hy hx (.inl he))]
  have hk : ∀ n, ¬ t.countsIn n k := by
    rintro n ⟨y, -, hy, -⟩
    rw [hslot, if_pos rfl] at hy
    exact nomatch hy
  refine ⟨fun j y hy => ?_, fun i j y z hy hz => h2 i j y z (hback i y hy).2.1 (hback j z hz).2.1, fun e he => ?_,
    fun n => ?_⟩
  · obtain ⟨-, hs, hd⟩ := hback j y hy
    exact (h1 j y hs).of_same (by rw [hd]; exact id) (by rw [hd]) (fun n _ => by rw [hp]) fun p w _ _ hw' =>
      ⟨w, by rwa [hw], rfl⟩
  · have hne : e ≠ x.door := by
      rintro rfl
      exact he hidle
    rw [hdoor e hne] at he
    obtain ⟨j, y, hy, hyd⟩ := h3 e he
    refine ⟨j, y, ?_, hyd⟩
    rw [hslot, if_neg]
    · exact hy
    · rintro rfl
      rw [hx, Option.some.injEq] at hy
      exact hne (by rw [hy, hyd])
  · rw [hdrain, h4]
    by_cases hc : (s.door x.door).admission.counts n = 0
    · rw [hc, Nat.sub_zero]
      refine State.slotsCounted_congr fun j => ?_
      by_cases hj : j = k
      · subst hj
        refine iff_of_false (fun hs => ?_) (hk n)
        obtain ⟨y, hy, hpos⟩ := State.countsIn_iff.1 hs
        rw [hx, Option.some.injEq] at hy
        rw [← hy, hc] at hpos
        exact absurd hpos (lt_irrefl 0)
      · exact hcounts n j hj
    · have hone : (s.door x.door).admission.counts n = 1 := by have := hcount n; omega
      rw [State.slotsCounted_add (hcounts n) (hk n) (State.countsIn_iff.2 ⟨x, hx, by omega⟩), hone, Nat.add_sub_cancel]

/-- One pairing more: at a door that had none, for permits that no slot holds, with the drain counts of its spaces one
higher. -/
theorem State.pairingsSound.insert (h : s.pairingsSound) (hk : s.slot k = none)
    (hfree : (s.door x.door).admission.contractorSpace = none)
    (hheld : ∀ n, x.holds n = true → ∀ j y, s.slot j = some y → y.holds n = false)
    (hcount : ∀ n, (t.door x.door).admission.counts n ≤ 1) (hsound : t.slotSound x)
    (hslot : ∀ j, t.slot j = if j = k then some x else s.slot j)
    (hdoor : ∀ e, e ≠ x.door → t.door e = s.door e)
    (hdrain : ∀ n, (t.space n).drain = (s.space n).drain + (t.door x.door).admission.counts n)
    (hp : t.permit = s.permit) (hw : t.workOrder = s.workOrder) : t.pairingsSound := by
  obtain ⟨h1, h2, h3, h4⟩ := h
  have hne : ∀ j y, s.slot j = some y → y.door ≠ x.door := by
    intro j y hy he
    obtain ⟨-, ⟨v, p, w, ⟨-, hv⟩ | ⟨-, hv⟩, -⟩, -⟩ := h1 j y hy <;>
      simp [← he, hv, Admission.contractorSpace] at hfree
  have hread : ∀ j y, t.slot j = some y → j = k ∧ y = x ∨ j ≠ k ∧ s.slot j = some y := by
    intro j y hy
    rw [hslot] at hy
    split_ifs at hy with hj
    · exact .inl ⟨hj, (Option.some.inj hy).symm⟩
    · exact .inr ⟨hj, hy⟩
  have hapart : ∀ j y, s.slot j = some y → ¬ (y.door = x.door ∨ ∃ n, y.holds n = true ∧ x.holds n = true) := by
    rintro j y hy (he | ⟨n, hyn, hxn⟩)
    · exact hne j y hy he
    · simp [hheld n hxn j y hy] at hyn
  have hcounts : ∀ n j, j ≠ k → (t.countsIn n j ↔ s.countsIn n j) := by
    intro n j hj
    rw [State.countsIn_iff, State.countsIn_iff, hslot, if_neg hj]
    refine exists_congr fun y => and_congr_right fun hy => ?_
    rw [hdoor _ (hne j y hy)]
  have hkt : ∀ n, t.countsIn n k ↔ 0 < (t.door x.door).admission.counts n := by
    intro n
    rw [State.countsIn_iff, hslot, if_pos rfl]
    simp
  have hks : ∀ n, ¬ s.countsIn n k := by
    rintro n ⟨y, -, hy, -⟩
    rw [hk] at hy
    exact nomatch hy
  refine ⟨fun j y hy => ?_, fun i j y z hy hz hor => ?_, fun e he => ?_, fun n => ?_⟩
  · rcases hread j y hy with ⟨-, rfl⟩ | ⟨-, hs⟩
    · exact hsound
    · have hd := hdoor _ (hne j y hs)
      exact (h1 j y hs).of_same (by rw [hd]; exact id) (by rw [hd]) (fun n _ => by rw [hp]) fun p w _ _ hw' =>
        ⟨w, by rwa [hw], rfl⟩
  · rcases hread i y hy with ⟨hi, rfl⟩ | ⟨-, hys⟩ <;> rcases hread j z hz with ⟨hj, rfl⟩ | ⟨-, hzs⟩
    · exact hi.trans hj.symm
    · exact absurd (hor.imp Eq.symm fun ⟨n, a, b⟩ => ⟨n, b, a⟩) (hapart j z hzs)
    · exact absurd hor (hapart i y hys)
    · exact h2 i j y z hys hzs hor
  · by_cases hex : e = x.door
    · exact ⟨k, x, by rw [hslot, if_pos rfl], hex.symm⟩
    · rw [hdoor e hex] at he
      obtain ⟨j, y, hy, hyd⟩ := h3 e he
      refine ⟨j, y, ?_, hyd⟩
      rw [hslot, if_neg]
      · exact hy
      · rintro rfl
        rw [hk] at hy
        exact nomatch hy
  · rw [hdrain, h4]
    by_cases hc : (t.door x.door).admission.counts n = 0
    · rw [hc, Nat.add_zero]
      refine (State.slotsCounted_congr fun j => ?_).symm
      by_cases hj : j = k
      · subst hj
        exact iff_of_false (fun ht => by have := (hkt n).1 ht; omega) (hks n)
      · exact hcounts n j hj
    · have hone : (t.door x.door).admission.counts n = 1 := by have := hcount n; omega
      rw [State.slotsCounted_add (hcounts n) (hks n) ((hkt n).2 (by omega)), hone]

/-- A general space is counted at most once (R30). -/
theorem Admission.counts_le_one {a : Admission} (h : ∀ sp, a.contractorSpace = some sp → 2 ≤ sp.val) (n : SpaceNo) :
    a.counts n ≤ 1 := by
  unfold Admission.counts
  split
  · exact Nat.zero_le 1
  · rename_i sp hsp
    rw [count_countedSpaces (h sp hsp)]
    split_ifs <;> simp

namespace State.Books

/-- A work order that is not 0 names general spaces alone, and so does the admission of a contractor (R30, R100). -/
theorem general_of_contractor {n : PermitNo} {p : Permit} {w : WorkOrder} {o : WorkOption} (h : s.Books hush N W)
    (hp : s.permit n = some p) (hrole : p.role ≠ .escort) (hw : s.workOrder p.workOrder = some w) (ho : o ∈ w.options) :
    2 ≤ o.space.val :=
  ((h.orders _ w hw fun h0 => hrole ((h.permits n p hp).1.2 h0)).2 o ho).1

theorem contractorSpace_of_slot (h : s.Books hush N W) (hx : s.slot k = some x) :
    ∃ sp, (s.door x.door).admission.contractorSpace = some sp ∧ 2 ≤ sp.val := by
  obtain ⟨-, ⟨v, p, w, hadm, hp, hrole, -, hw, o, ho, hov⟩, -⟩ := h.pairings.1 k x hx
  have hspace : 2 ≤ v.space.val := hov ▸ h.general_of_contractor hp hrole hw ho
  rcases hadm with ⟨-, hv⟩ | ⟨-, hv⟩ <;> exact ⟨v.space, by rw [hv]; rfl, hspace⟩

theorem counts_le_one_of_slot (h : s.Books hush N W) (hx : s.slot k = some x) (n : SpaceNo) :
    (s.door x.door).admission.counts n ≤ 1 := by
  obtain ⟨sp, hsp, h2⟩ := h.contractorSpace_of_slot hx
  exact Admission.counts_le_one (fun sp' h' => by rw [hsp, Option.some.injEq] at h'; exact h' ▸ h2) n

/-- A pairing ends (R151). -/
theorem endPairing (h : s.Books hush N W) (hx : s.slot k = some x) : (s.endPairing k x.door f).Books hush N W := by
  have hc : s.changesOnly [.spaces, .doors, .slots, .ports] (s.endPairing k x.door f) :=
    (changesOnly_refl _ s).endPairing (by decide)
  have hdoor := s.endPairing_door k x.door f
  refine h.of_parts hc (by decide) (fun L hL => laws_any hL ((laws_any (g := f) hL (h.laws L hL)).endPairing (.inr rfl)))
    (orders := fun _ => h.orders.transport (fun v w hw => ⟨w, by rwa [← hc.workOrder_eq (by decide)], rfl, rfl⟩)
      (State.endPairing_owner h.spaces))
    (pairings := fun _ => h.pairings.remove hx (h.counts_le_one_of_slot hx) (s.endPairing_slot k x.door f)
      (fun e he => by rw [hdoor, if_neg he]) (by rw [hdoor, if_pos rfl]; rfl) (s.endPairing_drain k x.door f)
      (hc.permit_eq (by decide)) (hc.workOrder_eq (by decide)))
    (quiet := fun _ hh => ?_) (unheld := fun _ n j y hn hy => ?_)
  · have hq := h.quiet hh
    rw [State.lockdownQuiet_iff] at hq ⊢
    rw [hc.lane_eq (by decide), show (s.endPairing k x.door f).posture = s.posture from hc .posture (by decide)]
    intro hp
    obtain ⟨hdoors, hlanes⟩ := hq hp
    refine ⟨fun e => ?_, hlanes⟩
    rw [hdoor]
    split_ifs
    · exact ⟨quiet_map_ended (hdoors x.door).1, rfl, rfl⟩
    · exact hdoors e
  · rw [State.endPairing_slot] at hy
    split_ifs at hy
    exact h.unheld n j y hn hy

theorem denyPairing {c : DenyCode} {v : Bool} (h : s.Books hush N W) : (s.denyPairing k c f v).Books hush N W := by
  unfold State.denyPairing
  split
  · exact h
  · rename_i x hx
    dsimp only
    refine foldl_keeps ?_ fun _ _ _ hu => hu.notifyDenied
    split
    · exact (h.endPairing hx).addVerdict fun _ _ => VerdictOutcome.noConfusion
    · exact h.endPairing hx

theorem cancelPairing {v : Bool} (h : s.Books hush N W) : (s.cancelPairing v d).Books hush N W := by
  unfold State.cancelPairing
  split
  · exact h.denyPairing
  · exact h

theorem abandonHolding {n : PermitNo} (h : s.Books hush N W) : (s.abandonHolding n).Books hush N W := by
  unfold State.abandonHolding
  split
  · exact h
  · exact h.denyPairing

theorem breakPairing (h : s.Books hush N W) : (s.breakPairing k).Books hush N W := h.denyPairing

end State.Books

/-- The slot that holds a permit is the one found (R149). -/
theorem State.slotHolding_eq_some {n : PermitNo} (h : s.slotHolding n = some k) :
    ∃ x, s.slot k = some x ∧ x.holds n = true := by
  have hk := (lowest_eq_some.1 h).1
  have hget : s.slots.get k = s.slot k := rfl
  rw [hget] at hk
  cases hx : s.slot k with
  | none => simp [hx] at hk
  | some x => exact ⟨x, rfl, by simpa [hx] using hk⟩

theorem State.unheld_of_slotHolding {n : PermitNo} (h : s.slotHolding n = none) :
    ∀ j y, s.slot j = some y → y.holds n = false := by
  intro j y hy
  have hj := lowest_eq_none.1 h j
  have hget : s.slots.get j = s.slot j := rfl
  rw [hget, hy] at hj
  exact hj

/-- After its pairing is abandoned a permit is held by no slot (R128). -/
theorem State.abandonHolding_unheld {n : PermitNo} (h : s.pairingsSound) :
    ∀ j y, (s.abandonHolding n).slot j = some y → y.holds n = false := by
  unfold State.abandonHolding
  cases hk : s.slotHolding n with
  | none => exact State.unheld_of_slotHolding hk
  | some k =>
    obtain ⟨x, hx, hxn⟩ := State.slotHolding_eq_some hk
    intro j y hy
    dsimp only at hy
    rw [State.denyPairing_slot hx] at hy
    split_ifs at hy with hj
    by_contra hne
    exact hj (h.2.1 j k y x hy hx (.inr ⟨n, Bool.not_eq_false _ ▸ hne, hxn⟩))

namespace State.Books

/-! ### Spaces -/

/-- A space is written with its owner and its drain count. -/
theorem setSpace {n : SpaceNo} {r : SpaceRecord} (h : s.Books hush N W) (howner : r.owner = (s.space n).owner)
    (hdrain : r.drain = (s.space n).drain) (hlaws : ∀ L ∈ bookLaws, L.Holds none (s.setSpace n r)) :
    (s.setSpace n r).Books hush N W := by
  have hread : ∀ m, ((s.setSpace n r).space m).owner = (s.space m).owner ∧
      ((s.setSpace n r).space m).drain = (s.space m).drain := by
    intro m
    rw [State.setSpace_space]
    split_ifs with hm
    · subst hm
      exact ⟨howner, hdrain⟩
    · exact ⟨rfl, rfl⟩
  exact h.of_parts (fs := [.spaces]) ((changesOnly_refl _ s).setSpace (by decide)) (by decide) hlaws
    (orders := fun _ => h.orders.transport (fun v w hw => ⟨w, hw, rfl, rfl⟩) fun m => (hread m).1)
    (pairings := fun _ => h.pairings.of_slots rfl (fun j y _ hy => hy.of_same id rfl (fun _ _ => rfl) fun p w _ _ hw =>
      ⟨w, hw, rfl⟩) (fun _ => rfl) fun m => (hread m).2)

/-- The staged descriptor becomes current (R29). -/
theorem applySwitch {n : SpaceNo} {c : SwitchCause} {j : Nat} (h : s.Books hush N W) :
    (s.applySwitch n c j).Books hush N W := by
  unfold State.applySwitch
  dsimp only
  split
  · exact h
  · rename_i w hw
    have hset : (s.setSpace n ⟨some w.descriptor, none, (s.space n).generation + 1, (s.space n).drain⟩).Books hush N W :=
      h.setSpace ((State.spacesSound_iff.1 h.spaces n).2.2 w hw).symm rfl fun L hL =>
        (h.laws L hL).setSpace_switched hw
    exact hset.notify

theorem forceSwitch {n : SpaceNo} (h : s.Books hush N W) : (s.forceSwitch n).Books hush N W :=
  applySwitch (foldl_keeps h fun _ _ _ hu => hu.denyPairing)

/-! ### A pairing that begins (R150) -/

theorem enterPairing {count : Nat} {c : Credential} {n : PermitNo} {p : Permit} {w : WorkOrder} {o : WorkOption}
    {v : DecisionValues} (h : s.Books hush N W) (hpost : hush → s.posture ≠ .lockdown)
    (hadm : (s.door d).admission.contractorSpace = none) (hbind : (s.door d).binding ≠ none)
    (hp : s.permit n = some p) (hrole : p.role ≠ .escort) (hidle : p.state = .idle)
    (hheld : ∀ j y, s.slot j = some y → y.holds n = false) (hN : ¬ N n) (hw : s.workOrder p.workOrder = some w)
    (ho : o ∈ w.options) (hv : o.space = v.space) : (s.enterPairing count d c n v).Books hush N W := by
  have hspace : 2 ≤ v.space.val := hv ▸ h.general_of_contractor hp hrole hw ho
  cases hk : lowest Option.isNone s.slots with
  | none =>
    unfold State.enterPairing
    rw [hk]
    exact h.denyPresentation
  | some k =>
    obtain ⟨hkfree, hlow⟩ := lowest_eq_some.1 hk
    have hkn : s.slot k = none := Option.isNone_iff_eq_none.1 hkfree
    have hlaws : ∀ L ∈ bookLaws, L.Holds none (s.enterPairing count d c n v) := fun L hL =>
      (h.laws L hL).enterPairing
    obtain ⟨t, ht, hc, hslot, hdoor, hsp⟩ := State.enterPairing_begun (count := count) (d := d) (c := c) (n := n) (v := v)
      hkn fun j hj hn => by
        have := hlow j hj
        rw [show s.slots.get j = s.slot j from rfl, hn] at this
        exact nomatch this
    rw [ht] at hlaws ⊢
    have hper := hc.permit_eq (by decide)
    have hord := hc.workOrder_eq (by decide)
    have hcounts : ∀ m, (t.door d).admission.counts m = (countedSpaces v.space).count m := by
      intro m
      rw [hdoor, if_pos rfl]
      rfl
    refine h.of_parts hc (by decide) hlaws
      (orders := fun _ => h.orders.transport (fun v w hw => ⟨w, hord ▸ hw, rfl, rfl⟩) fun m => by rw [hsp]; rfl)
      (pairings := fun _ => h.pairings.insert hkn hadm (fun m hm => ?_) (Admission.counts_le_one fun sp hsp' => ?_)
        ⟨?_, ⟨v, p, w, .inl ⟨by simp, ?_⟩, by rw [hper, hp], hrole, hidle, by rw [hord, hw], o, ho, hv⟩, by simp⟩ hslot
        (fun e he => by rw [hdoor, if_neg he]) (fun m => by rw [hsp, hcounts]) hper hord)
      (quiet := fun _ hh hl => absurd hl ?_) (unheld := fun _ m j y hm hy => ?_)
    · obtain rfl : n = m := by simpa [Slot.holds] using hm
      exact hheld
    · rw [hdoor, if_pos rfl] at hsp'
      exact Option.some.inj hsp' ▸ hspace
    · rw [hdoor, if_pos rfl]
      exact hbind
    · rw [hdoor, if_pos rfl]
    · rw [show t.posture = s.posture from hc .posture (by decide)]
      exact hpost hh
    · by_cases hj : j = k
      · rw [hslot, if_pos hj] at hy
        obtain rfl := Option.some.inj hy
        have hne : n ≠ m := fun he => hN (he ▸ hm)
        simpa [Slot.holds] using hne
      · rw [hslot, if_neg hj] at hy
        exact h.unheld m j y hm hy

end State.Books

end Sys2Proof.Machine

/-! SUPPORT. The books through the commands of the spaces, the work orders and the permits, and through a day change. -/

namespace Sys2Proof.Machine

open State (changesOnly_refl)

variable {s t u : State} {fs : List Field} {hush : Prop} {N : PermitNo → Prop} {W : List Waiting} {p : Authority}

/-- A fold that reaches every element of its list: what a round establishes for its element, later rounds keep. -/
theorem foldl_reaches {σ α : Type} {I : σ → Prop} {P : α → σ → Prop} {f : σ → α → σ} {l : List α} {u : σ} (h : I u)
    (hI : ∀ u a, a ∈ l → I u → I (f u a)) (hP : ∀ u a, a ∈ l → I u → P a (f u a))
    (hkeep : ∀ u a b, a ∈ l → I u → P b u → P b (f u a)) : ∀ b, (b ∈ l ∨ P b u) → P b (l.foldl f u) := by
  induction l generalizing u with
  | nil => simp
  | cons a l ih =>
    intro b hb
    refine ih (hI u a (by simp) h) (fun u c hc => hI u c (by simp [hc])) (fun u c hc => hP u c (by simp [hc]))
      (fun u c d hc => hkeep u c d (by simp [hc])) b ?_
    rcases hb with hb | hb
    · rcases List.mem_cons.1 hb with rfl | hb
      · exact .inr (hP u b (by simp) h)
      · exact .inl hb
    · exact .inr (hkeep u a b (by simp) h hb)

/-! ### What the commands of the spaces come to -/

theorem defineSpace_cases (p : Authority) (a : DescriptorArgs) (s : State) : (defineSpace p a s).1 = s ∨
    ∃ (n : SpaceNo) (r : SpaceRecord), 2 ≤ n.val ∧ (s.space n).owner = none ∧ r.drain = 0 ∧
      (defineSpace p a s).1 = s.setSpace n r := by
  unfold defineSpace
  split
  · exact .inl rfl
  · split
    · exact .inl rfl
    · split
      · exact .inl rfl
      · split
        · exact .inl rfl
        · split
          · exact .inl rfl
          · rename_i n hn
            obtain ⟨hn2, hfree, -⟩ := lowestFrom_eq_some.1 hn
            have hfree' : (!(s.space n).inUse) = true := hfree
            refine .inr ⟨n, _, hn2, ?_, rfl, rfl⟩
            simpa [SpaceRecord.inUse, SpaceRecord.owner] using hfree'

/-- STAGE SPACE writes one space, with its owner and its drain count (R27, R28). -/
theorem stageSpace_cases (p : Authority) (a : StageSpaceArgs) (s : State) : (stageSpace p a s).1 = s ∨
    ∃ n : SpaceNo, s.changesOnly [.spaces, .ports] (stageSpace p a s).1 ∧
      (∀ m, m ≠ n → (stageSpace p a s).1.space m = s.space m) ∧
      ((stageSpace p a s).1.space n).owner = (s.space n).owner ∧
      ((stageSpace p a s).1.space n).drain = (s.space n).drain := by
  unfold stageSpace
  split
  · rename_i n d _ hd
    split
    · exact .inl rfl
    · split
      · exact .inl rfl
      · rename_i howner
        rw [ne_eq, not_not] at howner
        split
        · exact .inl rfl
        · split
          · exact .inl rfl
          · have hstage : s.changesOnly [.spaces, .ports] (s.setSpace n
                { s.space n with waiting := some ⟨d, s.count + 120⟩ }) :=
              (changesOnly_refl _ s).setSpace (by decide)
            refine .inr ⟨n, ?_⟩
            dsimp only
            split
            · refine ⟨hstage.applySwitch (by decide), fun m hm => ?_, ?_, ?_⟩
              · simp [State.applySwitch, State.notify, State.setSpace_space, hm]
              · rw [howner]
                simp [State.applySwitch, State.notify, SpaceRecord.owner, authority_of_descriptor? hd]
              · simp [State.applySwitch, State.notify]
            · refine ⟨hstage, fun m hm => ?_, ?_, ?_⟩
              · rw [State.setSpace_space, if_neg hm]
              · rw [State.setSpace_space_self]
                rfl
              · rw [State.setSpace_space_self]
  · exact .inl rfl

theorem cancelStage_cases (p : Authority) (a : NumberArgs) (s : State) : (cancelStage p a s).1 = s ∨
    ∃ n, (cancelStage p a s).1 = s.setSpace n { s.space n with waiting := none } := by
  unfold cancelStage
  repeat' split
  all_goals first
    | exact .inl rfl
    | exact .inr ⟨_, rfl⟩

theorem retireSpace_cases (p : Authority) (a : NumberArgs) (s : State) : (retireSpace p a s).1 = s ∨
    ∃ n, s.workOrderNaming n = none ∧ (retireSpace p a s).1 = s.setSpace n { s.space n with current := none } := by
  unfold retireSpace
  repeat' split
  all_goals first
    | exact .inl rfl
    | exact .inr ⟨_, ‹_›, rfl⟩

/-! ### What the commands of the work orders and the permits come to -/

theorem createWorkOrder_cases (p : Authority) (a : CreateWorkOrderArgs) (s : State) : (createWorkOrder p a s).1 = s ∨
    ∃ n w, n ≠ 0 ∧ s.workOrder n = none ∧ w.party = 0 ∧ w.issuer ≠ .sec ∧
      (∀ o ∈ w.options, (s.space o.space).owner = some w.issuer) ∧
      (createWorkOrder p a s).1 = s.setWorkOrder n (some w) := by
  unfold createWorkOrder
  split
  · exact .inl rfl
  · rename_i w hnew
    have hw : w.issuer = p ∧ w.party = 0 := by
      unfold newWorkOrder? at hnew
      split at hnew
      · split_ifs at hnew
        exact Option.some.inj hnew ▸ ⟨rfl, rfl⟩
      · exact nomatch hnew
    split
    · exact .inl rfl
    · rename_i hsec
      split
      · exact .inl rfl
      · rename_i hforeign
        split
        · exact .inl rfl
        · rename_i n hn
          obtain ⟨h1, hfree, -⟩ := lowestFrom_eq_some.1 hn
          refine .inr ⟨n, w, fun h0 => by simp [h0] at h1, Option.isNone_iff_eq_none.1 hfree, hw.2, hw.1 ▸ hsec,
            fun o ho => ?_, rfl⟩
          unfold State.foreignOption at hforeign
          rw [Option.map_eq_none_iff, List.findIdx?_eq_none_iff] at hforeign
          rw [hw.1]
          simpa using hforeign o ho

theorem endorse_cases (p : Authority) (a : EndorseArgs) (s : State) : (endorse p a s).1 = s ∨
    ∃ n w v, n ≠ 0 ∧ s.workOrder n = some w ∧ (endorse p a s).1 = s.setWorkOrder n (some (w.endorse p v)) := by
  unfold endorse
  split
  · split
    · exact .inl rfl
    · split
      · exact .inl rfl
      · rename_i hr
        split
        · exact .inl rfl
        · exact .inr ⟨_, _, _, fun h0 => hr (.inr (.inl (by simp [h0]))), ‹_›, rfl⟩
  · exact .inl rfl

theorem withdraw_cases (p : Authority) (a : NumberArgs) (s : State) : (withdraw p a s).1 = s ∨
    ∃ n, n ≠ 0 ∧ (withdraw p a s).1 = s.closeWorkOrder n .withdrawn := by
  unfold withdraw
  split
  · exact .inl rfl
  · split
    · exact .inl rfl
    · split
      · exact .inl rfl
      · rename_i hr
        split
        · exact .inl rfl
        · exact .inr ⟨_, fun h0 => hr (.inl (by simp [h0])), rfl⟩

theorem issuePermit_cases (p : Authority) (a : IssuePermitArgs) (s : State) : (issuePermit p a s).1 = s ∨
    ∃ n q, s.permit n = none ∧ (q.state = .idle ∧ q.revoked = false ∧ (q.role = .escort ↔ q.workOrder = 0) ∧
      ∃ w, s.workOrder q.workOrder = some w ∧ w.isClosing = false) ∧
      (issuePermit p a s).1 = s.setPermit n (some q) := by
  unfold issuePermit
  split
  · split
    · exact .inl rfl
    · rename_i role _ hbad
      simp only [not_or, not_and, not_not] at hbad
      split
      · exact .inl rfl
      · rename_i w hw
        split
        · exact .inl rfl
        · split
          · exact .inl rfl
          · rename_i hcl
            split
            · exact .inl rfl
            · split
              · exact .inl rfl
              · rename_i n hn
                refine .inr ⟨n, _, Option.isNone_iff_eq_none.1 (lowest_eq_some.1 hn).1,
                  ⟨rfl, rfl, ⟨fun hr => ?_, fun h0 => ?_⟩, w, hw, Bool.eq_false_iff.2 hcl⟩, rfl⟩
                · exact Fin.ext (hbad.2.1 hr)
                · by_contra hr
                  exact hbad.2.2 hr (by simpa using congrArg Fin.val h0)
  · exact .inl rfl

/-! ### A work order that closes (R114, R115, R129) -/

theorem State.abandonHolding_permit (s : State) (n : PermitNo) : (s.abandonHolding n).permit = s.permit :=
  ((changesOnly_refl [.spaces, .doors, .slots, .ports] s).abandonHolding (by decide)).permit_eq (by decide)

/-- A permit that its work order's closing treats is marked, or out of use; no other is touched. -/
theorem State.closePermit_permit (c : ClosingCause) (s : State) (n m : PermitNo) :
    (State.closePermit c s n).permit m = if m = n then (s.permit n).bind fun q =>
      if q.state.counted = true then some { q with revoked := true } else none else s.permit m := by
  unfold State.closePermit
  split
  · rename_i hn
    split_ifs with hm
    · rw [hm, hn]
      rfl
    · rfl
  · rename_i q hq
    split
    · rename_i hc
      rw [State.setPermit_permit, hq]
      simp [hc]
    · rename_i hc
      have hq' : (s.abandonHolding n).permit n = some q := by rw [State.abandonHolding_permit, hq]
      unfold State.freePermit
      rw [hq']
      show ((s.abandonHolding n).setPermit n none).permit m = _
      rw [State.setPermit_permit, State.abandonHolding_permit, hq]
      simp [hc]

/-- Once its permits are treated, every permit of the work order in use is revoked (R129). -/
theorem State.closePermit_all (c : ClosingCause) (w : WorkOrderNo) (s : State) (m : PermitNo) (q : Permit)
    (hq : ((s.permitsOf w).foldl (State.closePermit c) s).permit m = some q) (hw : q.workOrder = w) :
    q.revoked = true := by
  refine foldl_reaches (I := fun _ => True) (P := fun m u => ∀ q, u.permit m = some q → q.workOrder = w →
    q.revoked = true) (f := State.closePermit c) (l := s.permitsOf w) trivial (fun _ _ _ _ => trivial)
    (fun u n _ _ q hq hw => ?_) (fun u n b _ _ hb q hq hw => ?_) m ?_ q hq hw
  · rw [State.closePermit_permit, if_pos rfl] at hq
    obtain ⟨r, -, hr⟩ := Option.bind_eq_some_iff.1 hq
    split_ifs at hr
    exact Option.some.inj hr ▸ rfl
  · rw [State.closePermit_permit] at hq
    split_ifs at hq with hbn
    · obtain ⟨r, -, hr⟩ := Option.bind_eq_some_iff.1 hq
      split_ifs at hr
      exact Option.some.inj hr ▸ rfl
    · exact hb q hq hw
  · by_cases hm : m ∈ s.permitsOf w
    · exact .inl hm
    · refine .inr fun r hr hrw => absurd ?_ hm
      unfold State.permitsOf
      rw [mem_numbersWhere, show s.permits.get m = some r from hr]
      simpa using hrw

namespace State.Books

/-! ### Spaces -/

/-- Spaces are written with their drain counts, and with their owners where a work order names them. -/
theorem of_spaces (h : s.Books hush N W) (hc : s.changesOnly [.spaces, .ports] t)
    (howner : ∀ v w, s.workOrder v = some w → v ≠ 0 → ∀ o ∈ w.options,
      (t.space o.space).owner = (s.space o.space).owner)
    (hdrain : ∀ m, (t.space m).drain = (s.space m).drain) (hlaws : ∀ L ∈ bookLaws, L.Holds none t) :
    t.Books hush N W := by
  have hord := hc.workOrder_eq (by decide)
  refine h.of_parts hc (by decide) hlaws (orders := fun _ v w hw hv => ?_)
    (pairings := fun _ => h.pairings.of_slots (hc.slot_eq (by decide)) (fun j y _ hy => hy.of_same
      (by rw [hc.door_eq (by decide)]; exact id) (by rw [hc.door_eq (by decide)])
      (fun _ _ => by rw [hc.permit_eq (by decide)]) fun q w _ _ hw => ⟨w, by rwa [hord], rfl⟩)
      (fun _ => by rw [hc.door_eq (by decide)]) hdrain)
  rw [hord] at hw
  obtain ⟨h1, h2⟩ := h.orders v w hw hv
  exact ⟨h1, fun o ho => ⟨(h2 o ho).1, (howner v w hw hv o ho).trans (h2 o ho).2⟩⟩

/-- A space out of use counts no admission (R35). -/
theorem drain_eq_zero {n : SpaceNo} (h : s.Books hush N W) (hn : 2 ≤ n.val) (hfree : (s.space n).owner = none) :
    (s.space n).drain = 0 := by
  rw [h.pairings.2.2.2 n, List.length_eq_zero_iff, List.eq_nil_iff_forall_not_mem]
  intro k hk
  obtain ⟨x, sp, hx, hsp, hnc⟩ := mem_slotsCounted.1 hk
  obtain ⟨-, ⟨v, q, w, hadm, hq, hrole, -, hw, o, ho, hov⟩, -⟩ := h.pairings.1 k x hx
  have hspv : sp = v.space := by
    rcases hadm with ⟨-, ha⟩ | ⟨-, ha⟩ <;> rw [ha] at hsp <;> exact (Option.some.inj hsp).symm
  have hsn : n = sp := by
    simp only [countedSpaces, List.mem_cons, List.not_mem_nil, or_false] at hnc
    rcases hnc with rfl | rfl | rfl
    · rfl
    · exact absurd hn (by decide)
    · exact absurd hn (by decide)
  have hne : q.workOrder ≠ 0 := fun h0 => hrole ((h.permits _ q hq).1.2 h0)
  have := ((h.orders _ w hw hne).2 o ho).2
  rw [hov, ← hspv, ← hsn, hfree] at this
  exact nomatch this

theorem defineSpace {a : DescriptorArgs} (h : s.Books hush N W) : (Machine.defineSpace p a s).1.Books hush N W := by
  have hlaws : ∀ L ∈ bookLaws, L.Holds none (Machine.defineSpace p a s).1 := fun L hL => (h.laws L hL).defineSpace
  rcases defineSpace_cases p a s with hs | ⟨n, r, hn, hfree, hr, hs⟩ <;> rw [hs] at hlaws ⊢
  · exact h
  · refine h.of_spaces ((changesOnly_refl _ s).setSpace (by decide)) (fun v w hw hv o ho => ?_) (fun m => ?_) hlaws
    · have hne : o.space ≠ n := by
        rintro rfl
        have := ((h.orders v w hw hv).2 o ho).2
        rw [hfree] at this
        exact nomatch this
      rw [State.setSpace_space, if_neg hne]
    · rw [State.setSpace_space]
      split_ifs with hm
      · rw [hm, hr, h.drain_eq_zero hn hfree]
      · rfl

theorem stageSpace {a : StageSpaceArgs} (h : s.Books hush N W) : (Machine.stageSpace p a s).1.Books hush N W := by
  have hlaws : ∀ L ∈ bookLaws, L.Holds none (Machine.stageSpace p a s).1 := fun L hL => (h.laws L hL).stageSpace
  rcases stageSpace_cases p a s with hs | ⟨n, hc, hsame, howner, hdrain⟩
  · rwa [hs]
  · refine h.of_spaces hc (fun v w _ _ o _ => ?_) (fun m => ?_) hlaws
    · by_cases hm : o.space = n
      · rw [hm, howner]
      · rw [hsame _ hm]
    · by_cases hm : m = n
      · rw [hm, hdrain]
      · rw [hsame _ hm]

theorem cancelStage {a : NumberArgs} (h : s.Books hush N W) : (Machine.cancelStage p a s).1.Books hush N W := by
  have hlaws : ∀ L ∈ bookLaws, L.Holds none (Machine.cancelStage p a s).1 := fun L hL => (h.laws L hL).cancelStage
  rcases cancelStage_cases p a s with hs | ⟨n, hs⟩ <;> rw [hs] at hlaws ⊢
  · exact h
  · exact h.setSpace rfl rfl hlaws

theorem retireSpace {a : NumberArgs} (h : s.Books hush N W) : (Machine.retireSpace p a s).1.Books hush N W := by
  have hlaws : ∀ L ∈ bookLaws, L.Holds none (Machine.retireSpace p a s).1 := fun L hL => (h.laws L hL).retireSpace
  rcases retireSpace_cases p a s with hs | ⟨n, hnone, hs⟩ <;> rw [hs] at hlaws ⊢
  · exact h
  · have hunnamed := State.workOrderNaming_eq_none.1 hnone
    refine h.of_spaces ((changesOnly_refl _ s).setSpace (by decide)) (fun v w hw hv o ho => ?_) (fun m => ?_) hlaws
    · have hne : o.space ≠ n := fun he => hunnamed v ⟨w, hw, o, ho, he⟩
      rw [State.setSpace_space, if_neg hne]
    · rw [State.setSpace_space]
      split_ifs with hm
      · rw [hm]
      · rfl

/-! ### Work orders and permits -/

theorem createWorkOrder {a : CreateWorkOrderArgs} (h : s.Books hush N W) :
    (Machine.createWorkOrder p a s).1.Books hush N W := by
  rcases createWorkOrder_cases p a s with hs | ⟨n, w, hn, hfree, hparty, hsec, howned, hs⟩ <;> rw [hs]
  · exact h
  · refine h.setWorkOrder_empty hn (fun m q hq he => ?_) fun w' hw' => ?_
    · obtain ⟨-, -, v, hv, -⟩ := h.permits m q hq
      rw [he, hfree] at hv
      exact nomatch hv
    · obtain rfl := Option.some.inj hw'
      refine ⟨hparty, hsec, fun o ho => ⟨?_, howned o ho⟩⟩
      by_contra hlow
      obtain ⟨d, hd, hauth⟩ := Option.map_eq_some_iff.1 (howned o ho)
      exact hsec (hauth ▸ ((h.spaces.2.2.1 o.space d (.inl hd)).1 (by omega)).1)

theorem endorse {a : EndorseArgs} (h : s.Books hush N W) : (Machine.endorse p a s).1.Books hush N W := by
  rcases endorse_cases p a s with hs | ⟨n, w, v, hn, hw, hs⟩ <;> rw [hs]
  · exact h
  · have hsame : (w.endorse p v).issuer = w.issuer ∧ (w.endorse p v).options = w.options ∧
        (w.endorse p v).party = w.party ∧ (w.endorse p v).state = w.state := by
      cases p <;> exact ⟨rfl, rfl, rfl, rfl⟩
    obtain ⟨hi, ho, hp, hst⟩ := hsame
    refine h.setWorkOrder hw hn hi ho hp fun hc => .inl ?_
    rwa [WorkOrder.isClosing, hst] at hc

/-- Revocation marks a counted permit, and frees another, its pairing abandoned first (R114, R127). -/
theorem closePermit {n : PermitNo} {c : ClosingCause} (h : s.Books hush N W) :
    (State.closePermit c s n).Books hush N W := by
  unfold State.closePermit
  split
  · exact h
  · rename_i q hq
    split
    · rename_i hc
      exact h.setPermit_counted hq rfl rfl (fun _ => rfl) (.inr ⟨rfl, hc⟩)
    · rename_i hc
      refine h.abandonHolding.freePermit (fun r hr => ?_) (State.abandonHolding_unheld h.pairings)
      rw [State.abandonHolding_permit, hq, Option.some.injEq] at hr
      exact hr ▸ Bool.eq_false_iff.2 hc

theorem revokePermit {n : PermitNo} {q : Permit} (h : s.Books hush N W) (hq : s.permit n = some q) :
    (s.revokePermit p n q).Books hush N W := by
  unfold State.revokePermit
  split
  · rename_i hc
    exact h.setPermit_counted hq rfl rfl (fun _ => rfl) (.inr ⟨rfl, hc⟩)
  · rename_i hc
    have hfree : ∀ r, (s.abandonHolding n).permit n = some r → r.state.counted = false := by
      intro r hr
      rw [State.abandonHolding_permit, hq, Option.some.injEq] at hr
      exact hr ▸ Bool.eq_false_iff.2 hc
    dsimp only
    split
    · exact h.abandonHolding.setPermit_uncounted hfree (State.abandonHolding_unheld h.pairings) nofun
    · exact h.abandonHolding.freePermit hfree (State.abandonHolding_unheld h.pairings)

theorem closeWorkOrder {n : WorkOrderNo} {c : ClosingCause} (h : s.Books hush N W) (hn : n ≠ 0) :
    (s.closeWorkOrder n c).Books hush N W := by
  have hfold : ((s.permitsOf n).foldl (State.closePermit c) s).Books hush N W :=
    foldl_keeps h fun _ _ _ hu => hu.closePermit
  have hrevoked := State.closePermit_all c n s
  unfold State.closeWorkOrder
  dsimp only
  split
  · exact hfold
  · rename_i w hw
    have hset : (((s.permitsOf n).foldl (State.closePermit c) s).setWorkOrder n (some { w with
        state := .closing c, selected := none, capInForce := 0, deadline := none })).Books hush N W :=
      hfold.setWorkOrder hw hn rfl rfl rfl fun _ => .inr hrevoked
    exact hset.freeWorkOrderIfDone

theorem dayChange {day : Nat} (h : s.Books hush N W) : (s.dayChange day).Books hush N W := by
  refine foldl_keeps h fun u n hn hu => ?_
  have hn0 := mem_generalWorkOrders.1 hn
  unfold expireOf
  split
  · split
    · exact hu
    · split
      · exact hu.closeWorkOrder hn0
      · exact hu
    · exact hu
  · exact hu

theorem withdraw {a : NumberArgs} (h : s.Books hush N W) : (Machine.withdraw p a s).1.Books hush N W := by
  rcases withdraw_cases p a s with hs | ⟨n, hn, hs⟩ <;> rw [hs]
  · exact h
  · exact h.closeWorkOrder hn

theorem issuePermit {a : IssuePermitArgs} (h : s.Books hush N W) : (Machine.issuePermit p a s).1.Books hush N W := by
  rcases issuePermit_cases p a s with hs | ⟨n, q, hfree, hq, hs⟩ <;> rw [hs]
  · exact h
  · refine h.setPermit_uncounted (fun r hr => by rw [hfree] at hr; exact nomatch hr)
      (h.pairings.unheld fun r hr => by rw [hfree] at hr; exact nomatch hr) fun r hr => Option.some.inj hr ▸ hq

theorem revoke {a : NumberArgs} (h : s.Books hush N W) : (Machine.revoke p a s).1.Books hush N W := by
  unfold Machine.revoke
  dsimp only
  split
  · exact h
  · split
    · exact h
    · exact h.revokePermit ‹_›

end State.Books

end Sys2Proof.Machine

/-! SUPPORT. The books through the reports and deadlines of the doors, the turns of the lanes, and the commands for them;
and Lockdown made quiet at the change to it (R86, R87, R147). -/

namespace Sys2Proof.Machine

open State (changesOnly_refl)

variable {s t u : State} {fs : List Field} {hush : Prop} {N : PermitNo → Prop} {W : List Waiting} {p : Authority}
  {d : DoorId} {c : Credential} {k : SlotNo} {x : Slot} {l : LaneNo} {n : PermitNo}

/-! ### What a door says -/

theorem Admission.contractorSpace_of_state {a : Admission} (h : a.state = .idle ∨ a.state = .passageOpen) :
    a.contractorSpace = none := by
  cases a <;> simp_all [Admission.state, Admission.contractorSpace]

theorem Admission.contractorSpace_of_isEntry {a : Admission} (h : a.isEntry = true) : a.contractorSpace = none := by
  cases a <;> simp_all [Admission.isEntry, Admission.contractorSpace]

theorem Admission.withDeadline_contractorSpace (a : Admission) (t : Nat) :
    (a.withDeadline t).contractorSpace = a.contractorSpace := by
  cases a <;> rfl

theorem Admission.withDeadline_isEntry (a : Admission) (t : Nat) : (a.withDeadline t).isEntry = a.isEntry := by
  cases a <;> rfl

theorem State.endAdmission_contractorSpace (s : State) (d e : DoorId)
    (h : (s.door e).admission.contractorSpace = none) : ((s.endAdmission d).door e).admission.contractorSpace = none := by
  unfold State.endAdmission
  rw [State.setDoor_door]
  split_ifs
  · rfl
  · exact h

/-- A pairing denied leaves its door Idle, and every other as it was. -/
theorem State.denyPairing_admission {code : DenyCode} {f : Option SpaceNo} {v : Bool} (hx : s.slot k = some x)
    (e : DoorId) : ((s.denyPairing k code f v).door e).admission =
      if e = x.door then .idle else (s.door e).admission := by
  rw [(State.denyPairing_changes hx v).door_eq (by decide)]
  have hend : ((s.endPairing k x.door f).door e).admission = if e = x.door then .idle else (s.door e).admission := by
    rw [State.endPairing_door]
    split_ifs <;> rfl
  cases v
  · exact hend
  · show (((s.endPairing k x.door f).addVerdict x.door _).door e).admission = _
    rw [← hend]
    unfold State.addVerdict
    rw [State.setDoor_door]
    split_ifs with he
    · rw [he]
    · rfl

/-- A passage that leaves a room leaves the doors as they are. -/
theorem State.passExit_door (s : State) (d : DoorId) (n : PermitNo) : (s.passExit d n).door = s.door := by
  unfold State.passExit
  split
  · split
    · exact (((changesOnly_refl [.occupancy, .workOrders, .permits, .ports] s).notifyBoth (by decide)).exitPermit
        (by decide)).door_eq (by decide)
    · rfl
  · rfl

/-- In Lockdown no admission waits for an escort or a consent (R86). -/
theorem State.Books.ne_lockdown (h : s.Books hush N W) (hd : (s.door d).admission.contractorSpace ≠ none) :
    hush → s.posture ≠ .lockdown := by
  intro hh hp
  exact hd ((State.lockdownQuiet_iff.1 (h.quiet hh) hp).1 d).2.1

/-- The slot of a door in Pairing or Awaiting Consent expects what its door says, and holds the contractor. -/
theorem State.pairingsSound.slot_of_door (h : s.pairingsSound) (hk : s.slotOf d = some k) :
    ∃ x, s.slot k = some x ∧ x.door = d ∧ s.slotSound x := by
  obtain ⟨⟨x, hx, hd⟩, -⟩ := State.slotOf_eq_some.1 hk
  exact ⟨x, hx, hd, h.1 k x hx⟩

/-- A door with a slot is the door of that slot alone. -/
theorem State.pairingsSound.slotOf_eq (h : s.pairingsSound) (hx : s.slot k = some x) : s.slotOf x.door = some k := by
  refine State.slotOf_eq_some.2 ⟨⟨x, hx, rfl⟩, fun j hj y hy hd => ?_⟩
  exact absurd (h.2.1 j k y x hy hx (.inl hd)) (ne_of_lt hj)

theorem Slot.freeze_same (count : Nat) (y : Slot) : (y.freeze count).door = y.door ∧
    (y.freeze count).contractor = y.contractor ∧ (y.freeze count).expects = y.expects ∧
    (y.freeze count).escort = y.escort := by
  unfold Slot.freeze
  split <;> exact ⟨rfl, rfl, rfl, rfl⟩

theorem Slot.thaw_same (count : Nat) (y : Slot) : (y.thaw count).door = y.door ∧
    (y.thaw count).contractor = y.contractor ∧ (y.thaw count).expects = y.expects ∧
    (y.thaw count).escort = y.escort := by
  unfold Slot.thaw
  split <;> exact ⟨rfl, rfl, rfl, rfl⟩

namespace State.Books

/-! ### Presentations that make no request -/

/-- A pairing ends with the door opened for an Enter: its contractor, and an escort that no other slot holds
(R154, R158). -/
theorem endPairing_openEnter {f : Option SpaceNo} {r : Designator} {g m : Nat} {remote : Bool} {held : List HeldPermit}
    (h : s.Books hush N W) (hx : s.slot k = some x) (hne : held ≠ []) (hl : (held.map HeldPermit.permit).Nodup)
    (hidle : ∀ y ∈ held, ∃ q, s.permit y.permit = some q ∧ q.state = .idle)
    (hheld : ∀ y ∈ held, ∀ j z, s.slot j = some z → z.holds y.permit = true → j = k) :
    ((s.endPairing k x.door f).openEnter x.door r g m remote held).Books hush N W := by
  obtain ⟨sp, hsp, -⟩ := h.contractorSpace_of_slot hx
  have hc : s.changesOnly [.spaces, .doors, .slots, .ports] (s.endPairing k x.door f) :=
    (changesOnly_refl _ s).endPairing (by decide)
  refine (h.endPairing hx).openEnter ?_ ?_ hne hl ?_ fun y hy j z hz => ?_
  · rw [State.endPairing_door, if_pos rfl]
    rfl
  · rw [hc .posture (by decide)]
    exact h.ne_lockdown (d := x.door) (by simp [hsp])
  · rwa [hc.permit_eq (by decide)]
  · rw [State.endPairing_slot] at hz
    split_ifs at hz with hj
    by_contra hne'
    exact hj (hheld y hy j z hz (Bool.not_eq_false _ ▸ hne'))

theorem exitIdle {b : Binding} (h : s.Books hush N W) (hd : (s.door d).admission.contractorSpace = none) :
    (s.exitIdle d b c).Books hush N W := by
  unfold State.exitIdle
  split
  · rename_i n _
    have hdoors : ∀ e ∈ s.exitDoorsOf d n, (s.door e).admission.contractorSpace = none := by
      intro e he
      obtain ⟨-, hm⟩ := List.mem_filter.1 he
      have hopen := (Bool.and_eq_true_iff.1 hm).2
      split at hopen
      · rename_i ha
        rw [ha]
        rfl
      · exact nomatch hopen
    obtain ⟨hfold, hnone⟩ := foldl_keeps (I := fun u => u.Books hush N W ∧ ∀ e, (s.door e).admission.contractorSpace = none →
        (u.door e).admission.contractorSpace = none) (f := State.endAdmission) (l := s.exitDoorsOf d n) ⟨h, fun _ he => he⟩
      fun u e he hu => ⟨hu.1.endAdmission (hu.2 e (hdoors e he)), fun a ha => u.endAdmission_contractorSpace e a (hu.2 a ha)⟩
    exact hfold.openExit (hnone d hd)
  · exact (h.openExit hd).notify

theorem exitBusy {b : Binding} (h : s.Books hush N W) : (s.exitBusy d b c).Books hush N W :=
  State.Books.notify (h.addVerdict (v := ⟨.opened .notRecorded, [c], false⟩) fun _ _ => nofun)

theorem takeExit (h : s.Books hush N W) : (s.takeExit d c).Books hush N W := by
  unfold State.takeExit
  split
  · exact h.denyPresentation
  · split
    · rename_i ha
      exact h.exitIdle (by rw [ha]; rfl)
    · split
      · rename_i j hj
        obtain ⟨y, hy, hyd, -⟩ := h.pairings.slot_of_door hj
        refine h.breakPairing.exitIdle ?_
        unfold State.breakPairing
        rw [State.denyPairing_admission hy, if_pos hyd.symm]
        rfl
      · exact h.exitBusy
    · split
      · exact h.addVerdict fun _ _ => nofun
      · exact h.exitBusy
    all_goals exact h.exitBusy

/-- A stay is written with its room, and announced. -/
theorem setStay {q : Permit} {x y : Stay} {a : Authority} {notice : Notice} (h : s.Books hush N W)
    (hq : s.permit n = some q) (hx : q.state = .inside x) (hroom : y.room = x.room) :
    ((s.setPermit n (some { q with state := .inside y })).notifyBoth a notice).Books hush N W :=
  (h.setPermit_counted (q := { q with state := .inside y }) hq rfl rfl id (.inl ⟨x, y, hx, rfl, hroom⟩)).notifyBoth

theorem judgeCheckIn (h : s.Books hush N W) : (s.judgeCheckIn d c).Books hush N W := by
  unfold State.judgeCheckIn
  split
  · exact h.denyPresentation
  · split
    · exact h.denyPresentation
    · split
      · exact h.denyPresentation
      · rename_i q hq
        split
        · rename_i stay hstay
          split
          · have hv : (s.addVerdict d ⟨.opened .checkIn, [c], false⟩).Books hush N W := h.addVerdict fun _ _ => nofun
            exact hv.setStay hq hstay (by rfl)
          · exact h.denyPresentation
        all_goals exact h.denyPresentation

theorem takeCheckIn (h : s.Books hush N W) : (s.takeCheckIn d c).Books hush N W := by
  unfold State.takeCheckIn
  split
  · split
    · exact h.breakPairing.denyPresentation
    · exact h.denyPresentation
  all_goals exact h.judgeCheckIn

theorem passExit (h : s.Books hush N W) : (s.passExit d n).Books hush N W := by
  unfold State.passExit
  split
  · split
    · exact h.notifyBoth.exitPermit
    · exact h
  · exact h

theorem takePassage (h : s.Books hush N W) : (s.takePassage d).Books hush N W := by
  have hends : ∀ {u : State} {a : Admission}, u.Books hush N W → u.door = s.door → (s.door d).admission = a →
      a.contractorSpace = none → (u.endAdmission d).Books hush N W := by
    intro u a hu hdoor ha hn
    exact hu.endAdmission (by rw [hdoor, ha]; exact hn)
  unfold State.takePassage
  split
  · rename_i held _ _ ha
    have hfold : (held.foldl (fun s x => s.enterPermit d x) s).Books hush N W :=
      foldl_keeps h fun _ _ _ hu => hu.enterPermit
    refine hends hfold ?_ ha rfl
    exact ((changesOnly_refl [.occupancy, .permits, .ports] s).foldl fun u y _ =>
      (changesOnly_refl _ u).enterPermit (by decide)).door_eq (by decide)
  · rename_i ha
    refine hends h.passExit ?_ ha rfl
    exact State.passExit_door ..
  · rename_i ha
    exact hends h rfl ha rfl
  · exact h.notify

/-! ### Deadlines -/

theorem execCheckinDeadline (h : s.Books hush N W) (ht : Machine.execCheckinDeadline n s = .next t) :
    t.Books hush N W := by
  obtain rfl := Host.Outcome.next.inj ht
  split
  · exact h
  · rename_i q hq
    split
    · split
      · exact h.setStay hq ‹_› (by rfl)
      · exact h
    all_goals exact h

theorem execStayDeadline (h : s.Books hush N W) (ht : Machine.execStayDeadline n s = .next t) : t.Books hush N W := by
  obtain rfl := Host.Outcome.next.inj ht
  split
  · exact h
  · rename_i q hq
    split
    · split
      · exact h.setStay hq ‹_› (by rfl)
      · exact h
    all_goals exact h

/-- The pairing of a slot moves to Awaiting Consent (R157). -/
theorem awaitConsent {m : PermitNo} {v : DecisionValues} (h : s.Books hush N W) (hx : s.slot k = some x)
    (ha : (s.door x.door).admission = .pairing m v) : (s.awaitConsent k x v).Books hush N W := by
  have hslot : ∀ j, (s.awaitConsent k x v).slot j = if j = k then
      some { x with expects := .consent, timer := .running (s.count + s.timings.consentWait) } else s.slot j := fun _ =>
    State.setSlot_slot ..
  have hdoor : ∀ e, (s.awaitConsent k x v).door e = if e = x.door then
      { s.door x.door with admission := .awaitingConsent x.contractor v } else s.door e := fun _ =>
    State.setDoor_door ..
  have hc : s.changesOnly [.doors, .slots, .ports] (s.awaitConsent k x v) :=
    (((changesOnly_refl _ s).setSlot (by decide)).setDoor (by decide)).notify (by decide)
  have hper := hc.permit_eq (by decide)
  have hord := hc.workOrder_eq (by decide)
  refine h.of_parts hc (by decide) (fun L hL => TableLaw.Holds.notify (TableLaw.Holds.setDoor (h.laws L hL).setSlot))
    (pairings := fun _ => h.pairings.transport (fun j y hy => ?_) (fun j y hy => ?_) (fun e => ?_) fun m => by
      rw [hc.space_eq (by decide)]) (quiet := fun _ hh hl => ?_) (unheld := fun _ m j y hm hy => ?_)
  · rw [hslot] at hy
    split_ifs at hy with hj
    · obtain rfl := Option.some.inj hy
      refine ⟨x, hj ▸ hx, rfl, fun _ hn => hn, fun ⟨h1, ⟨v', q, w, hadm, hq, hrole, hidle, hw, ho⟩, h3⟩ => ?_⟩
      have hv : v' = v := by
        rcases hadm with ⟨-, hadm⟩ | ⟨-, hadm⟩ <;> rw [hadm] at ha
        · exact (Admission.pairing.inj ha).2
        · exact nomatch ha
      refine ⟨?_, ⟨v, q, w, .inr ⟨rfl, ?_⟩, by rwa [hper], hrole, hidle, by rwa [hord], hv ▸ ho⟩, by rwa [hper]⟩
      · rw [hdoor, if_pos rfl]
        exact h1
      · rw [hdoor, if_pos rfl]
    · have hne : y.door ≠ x.door := fun he => hj (h.pairings.2.1 j k y x hy hx (.inl he))
      exact ⟨y, hy, rfl, fun _ hn => hn, fun hsound => hsound.of_same (by rw [hdoor, if_neg hne]; exact id)
        (by rw [hdoor, if_neg hne]) (fun _ _ => by rw [hper]) fun _ w _ _ hw => ⟨w, by rwa [hord], rfl⟩⟩
  · rw [hslot]
    split_ifs with hj
    · rw [hj, hx, Option.some.injEq] at hy
      exact ⟨_, rfl, hy ▸ rfl⟩
    · exact ⟨y, hy, rfl⟩
  · rw [hdoor]
    split_ifs with he
    · rw [he, ha]
      rfl
    · rfl
  · refine absurd ?_ (h.ne_lockdown (d := x.door) (by simp [ha, Admission.contractorSpace]) hh)
    rwa [← hc .posture (by decide)]
  · rw [hslot] at hy
    split_ifs at hy
    · obtain rfl := Option.some.inj hy
      exact h.unheld m k x hm hx
    · exact h.unheld m j y hm hy

theorem stepTimeout (h : s.Books hush N W) (hx : s.slot k = some x) : (s.stepTimeout k x).Books hush N W := by
  unfold State.stepTimeout
  split
  · split
    · exact h.awaitConsent hx ‹_›
    · exact h.denyPairing
  · exact h.denyPairing

/-! ### Turns of the lanes (R162, R163) -/

theorem cutMessages {y : Door} (h : s.Books hush N W) (ha : y.admission = (s.door d).admission)
    (hb : y.binding = (s.door d).binding) (ho : ∀ v ∈ y.outgoing, v ∈ (s.door d).outgoing) :
    (s.setDoor d y).Books hush N W :=
  h.setDoor_messages ha hb fun _ _ v hv => .inl (ho v hv)

theorem failDoor (h : s.Books hush N W) : (s.failDoor d).Books hush N W := by
  have hfail : (((s.setDoor d { s.door d with presence := .failed, misses := 3 }).notify .sec
      (.doorFailed d (s.door d).binding)).cancelPairing true d).Books hush N W :=
    State.Books.cancelPairing (State.Books.notify (h.cutMessages rfl rfl fun _ hv => hv))
  unfold State.failDoor
  dsimp only
  split
  · refine State.Books.closePassages ?_
    exact hfail.cutMessages rfl rfl fun v hv => List.mem_of_mem_filter hv
  · exact hfail

theorem endTurn (h : s.Books hush N W) : (s.endTurn l).Books hush N W := h.setLane_silent nofun

theorem missPoll (h : s.Books hush N W) : (s.missPoll l).Books hush N W := by
  have hturn : (s.endTurn l).Books hush N W := h.endTurn
  unfold State.missPoll
  dsimp only
  split
  · exact hturn
  · exact hturn
  · split
    · exact hturn.cutMessages rfl rfl fun _ hv => hv
    · exact hturn.failDoor

theorem announce (h : s.Books hush N W) : (s.announce d).Books hush N W := by
  have hdoor : (s.setDoor d { s.door d with presence := .ready, misses := 0 }).Books hush N W :=
    h.cutMessages rfl rfl fun _ hv => hv
  unfold State.announce
  dsimp only
  split
  · exact hdoor
  · exact hdoor.notify
  · exact hdoor.notify

theorem verdictSent (h : s.Books hush N W) (ht : execVerdictSent l s = .next t) : t.Books hush N W := by
  obtain rfl := Host.Outcome.next.inj ht
  split
  · rename_i v hv
    have hgone : (s.verdictGone l v).Books hush N W ∧ (s.verdictGone l v).lane = s.lane := by
      unfold State.verdictGone
      dsimp only
      split
      · rename_i v' rest hout
        split
        · refine ⟨h.setDoor ?_ fun _ _ ⟨h1, h2, h3⟩ => ⟨fun z hz => h1 z (by rw [hout]; exact List.mem_cons_of_mem _ hz),
            ?_, ?_⟩, rfl⟩
          · by_cases hn : (s.door (s.turnDoor l)).admission.contractorSpace = none
            · refine .inr ⟨hn, ?_⟩
              dsimp only
              split_ifs
              · rwa [Admission.withDeadline_contractorSpace]
              · exact hn
            · refine .inl ⟨?_, id⟩
              dsimp only
              split_ifs
              · cases ha : (s.door (s.turnDoor l)).admission <;>
                  simp_all [Admission.withDeadline, Admission.contractorSpace]
              · rfl
          · dsimp only
            split_ifs
            · rwa [Admission.withDeadline_contractorSpace]
            · exact h2
          · dsimp only
            split_ifs
            · rwa [Admission.withDeadline_isEntry]
            · exact h3
        · exact ⟨h, rfl⟩
      · exact ⟨h, rfl⟩
    refine State.Books.sendNext (hgone.1.setLane fun _ _ hq => ?_)
    rwa [hgone.2] at hq
  all_goals exact h

end State.Books

/-- A report that answers a poll, or that counts as an unanswered poll, or that is discarded (R134, R163). -/
theorem State.answerPoll_cases (s : State) (d : DoorId) (report : State → State) :
    s.answerPoll d report = s ∨ s.answerPoll d report = s.missPoll d.lane ∨
      s.answerPoll d report = report ((s.endTurn d.lane).announce d) := by
  unfold State.answerPoll
  split_ifs <;> simp

theorem State.answerPresent_cases (s : State) (d : DoorId) (c : Credential) (report : State → State) :
    s.answerPresent d c report = s ∨ s.answerPresent d c report = s.missPoll d.lane ∨
      s.answerPresent d c report = report ((s.endTurn d.lane).announce d) := by
  unfold State.answerPresent
  split_ifs
  · exact .inr (.inl rfl)
  · exact .inl rfl
  · exact s.answerPoll_cases d report

namespace State.Books

theorem answerPoll {report : State → State} (h : s.Books hush N W)
    (hr : ∀ u : State, u.Books hush N W → (report u).Books hush N W) : (s.answerPoll d report).Books hush N W := by
  rcases s.answerPoll_cases d report with hs | hs | hs <;> rw [hs]
  · exact h
  · exact h.missPoll
  · exact hr _ h.endTurn.announce

theorem answerPresent {report : State → State} (h : s.Books hush N W)
    (hr : ∀ u : State, u.Books hush N W → (report u).Books hush N W) : (s.answerPresent d c report).Books hush N W := by
  rcases s.answerPresent_cases d c report with hs | hs | hs <;> rw [hs]
  · exact h
  · exact h.missPoll
  · exact hr _ h.endTurn.announce

/-! ### Commands for doors and lanes -/

theorem bindDoor {a : BindDoorArgs} (h : s.Books hush N W) : (Machine.bindDoor p a s).1.Books hush N W := by
  unfold Machine.bindDoor
  split
  · exact h
  · split
    · dsimp only
      split
      · exact h
      · rename_i hidle
        have hn := Admission.contractorSpace_of_state (.inl (not_not.1 hidle))
        exact h.setDoor (.inr ⟨hn, hn⟩) fun _ _ hq => hq
    · exact h

theorem forceExit {a : NumberArgs} (h : s.Books hush N W) : (Machine.forceExit p a s).1.Books hush N W := by
  unfold Machine.forceExit
  split
  · exact h
  · dsimp only
    split
    · exact h
    · split
      · refine State.Books.exitPermit (State.Books.notifyBoth (foldl_keeps h fun u e _ hu => ?_))
        unfold dropExitHold
        dsimp only
        split
        · rename_i ha
          split
          · exact hu.setDoor (.inr ⟨by rw [ha]; rfl, rfl⟩) fun _ _ hq => ⟨hq.1, rfl, rfl⟩
          · exact hu
        · exact hu
      all_goals exact h

theorem remoteConsent {a : RemoteConsentArgs} (h : s.Books hush N W) :
    (Machine.remoteConsent p a s).1.Books hush N W := by
  unfold Machine.remoteConsent
  split
  · exact h
  · split
    · exact h
    · split
      · exact h
      · split
        · rename_i ha _ hk
          dsimp only
          split
          · unfold State.grantConsent
            split
            · exact h.denyPairing
            · obtain ⟨x, hx, rfl, -, ⟨v, q, w, hadm, hq, -, hidle, -⟩, -⟩ := h.pairings.slot_of_door hk
              have hm := hadm.elim (fun he => nomatch he.2.symm.trans ha) fun he =>
                (Admission.awaitingConsent.inj (he.2.symm.trans ha)).1
              subst hm
              refine h.endPairing_openEnter hx (by simp) (by simp) ?_ ?_
              · simpa using ⟨q, hq, hidle⟩
              · simp only [List.mem_singleton, forall_eq]
                exact fun j z hz hh => h.pairings.2.1 j _ z x hz hx (.inr ⟨_, hh, by simp [Slot.holds]⟩)
          · exact h.denyPairing
        · exact h

/-- The deadlines of the slots of a lane are frozen or thawed (R159, R164). -/
theorem mapLaneSlots {g : Slot → Slot} (h : s.Books hush N W) (hg : ∀ y, (g y).door = y.door ∧
    (g y).contractor = y.contractor ∧ (g y).expects = y.expects ∧ (g y).escort = y.escort) :
    (s.mapLaneSlots l g).Books hush N W := by
  have hslot : ∀ j, (s.mapLaneSlots l g).slot j = (s.slot j).map fun y => if y.door.lane = l then g y else y := fun j =>
    Vector.getElem_map ..
  have hone : ∀ y, let z := if y.door.lane = l then g y else y
      z.door = y.door ∧ z.contractor = y.contractor ∧ z.expects = y.expects ∧ z.escort = y.escort := by
    intro y
    dsimp only
    split_ifs
    · exact hg y
    · exact ⟨rfl, rfl, rfl, rfl⟩
  have hholds : ∀ y n, (if y.door.lane = l then g y else y).holds n = y.holds n := by
    intro y n
    obtain ⟨-, h2, -, h4⟩ := hone y
    rw [Slot.holds, h2, h4, ← Slot.holds]
  refine h.of_parts (fs := [.slots]) ((changesOnly_refl _ s).slots_update (by decide)) (by decide)
    (fun L hL => (h.laws L hL).of_plain ((changesOnly_refl plainFields s).slots_update (by decide)))
    (pairings := fun _ => h.pairings.transport (fun j z hz => ?_) (fun j y hy => ?_) (fun _ => rfl) fun _ => rfl)
    (unheld := fun _ m j z hm hz => ?_)
  · obtain ⟨y, hy, rfl⟩ := Option.map_eq_some_iff.1 (hslot j ▸ hz)
    obtain ⟨h1, h2, h3, h4⟩ := hone y
    refine ⟨y, hy, h1, fun m hm => hholds y m ▸ hm, fun hsound => ?_⟩
    unfold State.slotSound at hsound ⊢
    rw [h1, h2, h3, h4]
    exact hsound
  · exact ⟨_, by rw [hslot, hy]; rfl, (hone y).1⟩
  · obtain ⟨y, hy, rfl⟩ := Option.map_eq_some_iff.1 (hslot j ▸ hz)
    rw [hholds]
    exact h.unheld m j y hm hy

theorem setHold {hold : Bool} {g : Nat → Slot → Slot} {a : NumberArgs} (h : s.Books hush N W)
    (hg : ∀ n y, (g n y).door = y.door ∧ (g n y).contractor = y.contractor ∧ (g n y).expects = y.expects ∧
      (g n y).escort = y.escort) : (Machine.setHold hold g p a s).1.Books hush N W := by
  unfold Machine.setHold
  split
  · exact h
  · split
    · exact h
    · dsimp only
      split
      · exact h
      · exact State.Books.mapLaneSlots (h.setLane fun _ _ hq => hq) (hg _)

theorem resetLaneTo (h : s.Books hush N W) : (s.resetLaneTo l).Books hush N W := by
  refine State.Books.setLane_silent (foldl_keeps (foldl_keeps (State.Books.closePassages ?_) ?_) ?_) nofun
  · exact foldl_keeps h fun _ _ _ hu => hu.cutMessages rfl rfl nofun
  · exact fun _ _ _ hu => hu.cancelPairing
  · exact fun _ _ _ hu => hu.cutMessages rfl rfl fun _ hv => hv

theorem resetLane {a : NumberArgs} (h : s.Books hush N W) : (Machine.resetLane p a s).1.Books hush N W := by
  unfold Machine.resetLane
  split
  · exact h
  · split
    · exact h
    · exact h.resetLaneTo

/-! ### Lockdown (R86, R87, R147) -/

theorem endForLockdown {a : LockdownEnding} (h : s.Books hush N W) : (s.endForLockdown a).Books hush N W := by
  unfold State.endForLockdown
  split
  · split
    · exact h.denyPairing
    · exact h
  · exact h.releasePermit

/-- The door actions of Lockdown leave the books in balance. -/
theorem lockDoors (h : s.Books False N W) : s.lockDoors.Books False N W := by
  refine foldl_keeps (foldl_keeps (foldl_keeps h fun u e _ hu => ?_) fun _ _ _ hu => hu.endForLockdown)
    fun u e _ hu => ?_
  · exact hu.cutMessages rfl rfl fun v hv => List.mem_of_mem_filter hv
  · unfold State.endEntry
    split
    · exact hu.endAdmission (Admission.contractorSpace_of_isEntry ‹_›)
    · exact hu

end State.Books

end Sys2Proof.Machine

/-! SUPPORT. The books through a change of the posture, with Lockdown quiet behind it (R86, R87, R147), and through every
command and event that makes no request. -/

namespace Sys2Proof.Machine

open State (changesOnly_refl)

variable {s t u : State} {N : PermitNo → Prop} {W : List Waiting} {p : Authority} {d e : DoorId} {k : SlotNo} {i : Instr}

/-! ### The doors behind the door actions of Lockdown -/

/-- No Open to an Enter waits to be sent to the door. -/
def Door.Withdrawn (x : Door) : Prop := ∀ v ∈ x.outgoing, v.outcome ≠ .admitted

theorem State.withdrawEntries_door (s : State) (d e : DoorId) : (s.withdrawEntries d).door e = if e = d then
    { s.door d with
      outgoing := (s.door d).outgoing.filter fun v => !v.isEntry
      cancelPending := (s.door d).cancelPending || (s.door d).outgoing.any Verdict.isEntry || s.entryInFlight d ||
        (s.door d).admission.isEntry } else s.door e := State.setDoor_door ..

theorem Door.withdrawn_filter (x : Door) : ∀ v ∈ x.outgoing.filter fun v => !v.isEntry, v.outcome ≠ .admitted := by
  intro v hv
  simpa [Verdict.isEntry] using (List.mem_filter.1 hv).2

theorem State.endAdmission_door (s : State) (d e : DoorId) : (s.endAdmission d).door e = if e = d then
    { s.door d with admission := .idle, outgoing := (s.door d).outgoing.map Verdict.ended } else s.door e :=
  State.setDoor_door ..

/-- A pairing denied puts no Open to an Enter on a list. -/
theorem State.denyPairing_withdrawn {code : DenyCode} (h : (s.door e).Withdrawn) :
    ((s.denyPairing k code none true).door e).Withdrawn := by
  cases hx : s.slot k with
  | none =>
    unfold State.denyPairing
    rw [hx]
    exact h
  | some x =>
    rw [State.denyPairing_door hx]
    split_ifs with he
    · subst he
      intro v hv
      rcases List.mem_append.1 hv with hv | hv
      · exact State.Books.quiet_map_ended h v hv
      · rw [List.mem_singleton.1 hv]
        nofun
    · exact h

/-- What an ending of Lockdown has ended (R147). -/
def LockdownEnding.Done (u : State) : LockdownEnding → Prop
  | .abandon _ d => (u.door d).admission.contractorSpace = none
  | .release _ => True

theorem State.endForLockdown_withdrawn (s : State) (a : LockdownEnding) (h : (s.door e).Withdrawn) :
    ((s.endForLockdown a).door e).Withdrawn := by
  unfold State.endForLockdown
  split
  · split
    · exact State.denyPairing_withdrawn h
    · exact h
  · rwa [((changesOnly_refl [.occupancy, .workOrders, .permits, .ports] s).releasePermit (by decide)).door_eq (by decide)]

theorem State.endForLockdown_contractorSpace (s : State) (a : LockdownEnding)
    (h : (s.door e).admission.contractorSpace = none) :
    ((s.endForLockdown a).door e).admission.contractorSpace = none := by
  unfold State.endForLockdown
  split
  · split
    · rename_i k hk
      obtain ⟨⟨x, hx, -⟩, -⟩ := State.slotOf_eq_some.1 hk
      rw [State.denyPairing_admission hx]
      split_ifs
      · rfl
      · exact h
    · exact h
  · rwa [((changesOnly_refl [.occupancy, .workOrders, .permits, .ports] s).releasePermit (by decide)).door_eq (by decide)]

/-- An ending does what it is there for: a door in Pairing or Awaiting Consent has a slot (R149). -/
theorem State.endForLockdown_done (h : s.pairingsSound) (a : LockdownEnding) : a.Done (s.endForLockdown a) := by
  cases a with
  | release n => trivial
  | abandon n d =>
    by_cases hd : (s.door d).admission.contractorSpace = none
    · exact s.endForLockdown_contractorSpace _ hd
    · obtain ⟨k, x, hx, rfl⟩ := h.2.2.1 d hd
      show ((match s.slotOf x.door with
        | some k => s.denyPairing k .lockdown none true
        | none => s).door x.door).admission.contractorSpace = none
      rw [h.slotOf_eq hx]
      dsimp only
      rw [State.denyPairing_admission hx, if_pos rfl]
      rfl

/-- Behind the door actions of Lockdown every door is quiet. -/
theorem State.Books.lockDoors_quiet (h : s.Books False N W) (d : DoorId) : (s.lockDoors.door d).Quiet := by
  unfold State.lockDoors
  dsimp only
  set s1 := allDoors.foldl State.withdrawEntries s with hs1
  have h1 : s1.Books False N W := foldl_keeps h fun u e _ hu =>
    hu.cutMessages rfl rfl fun v hv => List.mem_of_mem_filter hv
  have hadm : ∀ e, (s1.door e).admission = (s.door e).admission := by
    refine foldl_keeps (I := fun u : State => ∀ e, (u.door e).admission = (s.door e).admission) (fun _ => rfl)
      fun u a _ hu e => ?_
    rw [State.withdrawEntries_door]
    split_ifs with he
    · exact he ▸ hu a
    · exact hu e
  have hout : ∀ e, (s1.door e).Withdrawn := fun e =>
    foldl_reaches (I := fun _ => True) (P := fun e (u : State) => (u.door e).Withdrawn) (f := State.withdrawEntries) trivial
      (fun _ _ _ _ => trivial)
      (fun u a _ _ => by rw [State.withdrawEntries_door, if_pos rfl]; exact Door.withdrawn_filter _)
      (fun u a b _ _ hb => by
        rw [State.withdrawEntries_door]
        split_ifs
        · exact Door.withdrawn_filter _
        · exact hb) e (.inl (mem_allDoors e))
  set l := byNumber (fun e : LockdownEnding => e.permit.val) (allDoors.flatMap s.lockdownEndings) with hl
  have h2 : (l.foldl State.endForLockdown s1).Books False N W ∧ ∀ e, ((l.foldl State.endForLockdown s1).door e).Withdrawn :=
    foldl_keeps (I := fun u : State => u.Books False N W ∧ ∀ e, (u.door e).Withdrawn) ⟨h1, hout⟩
      fun u a _ hu => ⟨hu.1.endForLockdown, fun e => u.endForLockdown_withdrawn a (hu.2 e)⟩
  have h3 : ∀ e, ((l.foldl State.endForLockdown s1).door e).admission.contractorSpace = none := by
    intro e
    have hdone : ∀ a, a ∈ l ∨ a.Done s1 → a.Done (l.foldl State.endForLockdown s1) := by
      refine foldl_reaches (I := fun u : State => u.Books False N W) (P := fun a u => a.Done u) h1
        (fun u a _ hu => hu.endForLockdown) (fun u a _ hu => State.endForLockdown_done hu.pairings a) fun u a b _ _ hb => ?_
      cases b with
      | release n => trivial
      | abandon n d => exact u.endForLockdown_contractorSpace a hb
    cases ha : (s.door e).admission with
    | pairing n v =>
      refine hdone (.abandon n e) (.inl (mem_byNumber.2 (List.mem_flatMap.2 ⟨e, mem_allDoors e, ?_⟩)))
      simp [State.lockdownEndings, ha]
    | awaitingConsent n v =>
      refine hdone (.abandon n e) (.inl (mem_byNumber.2 (List.mem_flatMap.2 ⟨e, mem_allDoors e, ?_⟩)))
      simp [State.lockdownEndings, ha]
    | _ => exact hdone (.abandon 0 e) (.inr (by simp [LockdownEnding.Done, hadm, ha, Admission.contractorSpace]))
  set s2 := l.foldl State.endForLockdown s1
  have h4 : ∀ e, (((allDoors.foldl State.endEntry s2).door e).Withdrawn ∧
      ((allDoors.foldl State.endEntry s2).door e).admission.contractorSpace = none) := by
    refine foldl_keeps (I := fun u : State => ∀ e, (u.door e).Withdrawn ∧ (u.door e).admission.contractorSpace = none)
      (fun e => ⟨h2.2 e, h3 e⟩) fun u a _ hu e => ?_
    unfold State.endEntry
    split
    · rw [State.endAdmission_door]
      split_ifs
      · exact ⟨State.Books.quiet_map_ended (hu a).1, rfl⟩
      · exact hu e
    · exact hu e
  have h5 : ((allDoors.foldl State.endEntry s2).door d).admission.isEntry = false := by
    refine foldl_reaches (I := fun _ => True) (P := fun e (u : State) => (u.door e).admission.isEntry = false)
      (f := State.endEntry) trivial (fun _ _ _ _ => trivial) (fun u a _ _ => ?_) (fun u a b _ _ hb => ?_) d
      (.inl (mem_allDoors d))
    · unfold State.endEntry
      split
      · rw [State.endAdmission_door, if_pos rfl]
        rfl
      · exact Bool.eq_false_iff.2 ‹_›
    · unfold State.endEntry
      split
      · rw [State.endAdmission_door]
        split_ifs
        · rfl
        · exact hb
      · exact hb
  exact ⟨(h4 d).1, (h4 d).2, h5⟩

/-! ### The lanes (R86) -/

/-- A lane goes on in its turn with what a quiet door has for it. -/
theorem State.sendNext_quiet {l m : LaneNo} (hd : ∀ d, (s.door d).Quiet) (hm : m = l ∨ (s.lane m).phase.Quiet) :
    ((s.sendNext l).lane m).phase.Quiet := by
  unfold State.sendNext
  dsimp only
  split <;> rw [State.setLane_lane] <;> split_ifs with hml
  · rename_i hout
    intro v' hv'
    obtain rfl := LanePhase.sendingVerdict.inj hv'
    exact (hd (s.turnDoor l)).1 _ (by rw [hout]; exact List.mem_cons_self)
  · exact hm.resolve_left hml
  · nofun
  · exact hm.resolve_left hml
  · nofun
  · exact hm.resolve_left hml

theorem State.withdrawFrame_quiet {l m : LaneNo} (hd : ∀ d, (s.door d).Quiet) (hm : m = l ∨ (s.lane m).phase.Quiet) :
    ((s.withdrawFrame l).lane m).phase.Quiet := by
  unfold State.withdrawFrame
  split
  · exact State.sendNext_quiet hd hm
  · rename_i hno
    rcases hm with rfl | hm
    · intro v hv
      simpa [hv, LanePhase.sendsEntry, Verdict.isEntry] using hno
    · exact hm

theorem State.withdrawFrames_quiet (hd : ∀ d, (s.door d).Quiet) (m : LaneNo) :
    ((((List.finRange 4).foldl State.withdrawFrame s).lane m).phase.Quiet) := by
  have hkeep : ∀ (u : State) (l : LaneNo), (∀ d, (u.door d).Quiet) → ∀ d, ((u.withdrawFrame l).door d).Quiet := by
    intro u l hu d
    rw [((changesOnly_refl [.lanes] u).withdrawFrame (by decide)).door_eq (by decide)]
    exact hu d
  exact foldl_reaches (I := fun u : State => ∀ d, (u.door d).Quiet) (P := fun m u => (u.lane m).phase.Quiet)
    (f := State.withdrawFrame) hd (fun u l _ hu => hkeep u l hu) (fun u l _ hu => State.withdrawFrame_quiet hu (.inl rfl))
    (fun u l b _ hu hb => State.withdrawFrame_quiet hu (.inr hb)) m (.inl (List.mem_finRange m))

namespace State.Books

variable {hush : Prop}

theorem withdrawFrame {l : LaneNo} (h : s.Books hush N W) : (s.withdrawFrame l).Books hush N W := by
  unfold State.withdrawFrame
  split
  · exact h.sendNext
  · exact h

/-- The posture is written, and Lockdown not asked to be quiet. -/
theorem unhush {x : Posture} (h : s.Books hush N W) : ({ s with posture := x } : State).Books False N W := by
  refine State.Books.of_parts (s := s) (fs := [.posture]) { h with quiet := nofun }
    ((changesOnly_refl _ s).posture_update (by decide)) (by decide) (fun L hL => ?_) (quiet := fun _ hf => hf.elim)
  exact (h.laws L hL).of_plain ((changesOnly_refl plainFields s).posture_update (by decide))

theorem changePosture {x : Posture} (h : s.Books True N W) : (s.changePosture x).Books True N W := by
  unfold State.changePosture
  dsimp only
  refine State.Books.evaluateWhere ?_
  split
  · have hdoors := (h.unhush (x := x)).lockDoors_quiet
    have hlock : (({ s with posture := x } : State).lockDoors).Books False N W := h.unhush.lockDoors
    have hframes : ((List.finRange 4).foldl State.withdrawFrame ({ s with posture := x } : State).lockDoors).Books False N W :=
      foldl_keeps hlock fun _ _ _ hu => hu.withdrawFrame
    refine { hframes with quiet := fun _ => State.lockdownQuiet_iff.2 fun _ => ⟨fun d => ?_, fun m => ?_⟩ }
    · rw [((changesOnly_refl [.lanes] _).foldl fun u l _ => (changesOnly_refl _ u).withdrawFrame (by decide)).door_eq
        (by decide)]
      exact hdoors d
    · exact State.withdrawFrames_quiet hdoors m
  · rename_i hold
    refine { h.unhush (x := x) with quiet := fun _ => State.lockdownQuiet_iff.2 fun hx => ?_ }
    have hs : s.posture = .lockdown := by_contra fun hne => hold ⟨hx, hne⟩
    have hq := State.lockdownQuiet_iff.1 (h.quiet trivial) hs
    exact hq

theorem setPosture {a : SetPostureArgs} (h : s.Books True N W) : (Machine.setPosture p a s).1.Books True N W := by
  unfold Machine.setPosture
  split
  · exact h
  · split
    · exact h
    · exact h.changePosture

theorem setSiteAllowance {a : SetSiteAllowanceArgs} (h : s.Books hush N W) :
    (Machine.setSiteAllowance p a s).1.Books hush N W := by
  unfold Machine.setSiteAllowance
  split
  · exact h
  · split
    · exact h
    · dsimp only
      refine State.Books.evaluateWhere ?_
      exact h.of_bookless ((changesOnly_refl _ s).setSite (by decide))

theorem setTimings {a : SetTimingsArgs} (h : s.Books hush N W) : (Machine.setTimings p a s).1.Books hush N W := by
  unfold Machine.setTimings
  split
  · exact h
  · exact h.of_bookless ((changesOnly_refl _ s).timings_update (by decide))

end State.Books

end Sys2Proof.Machine

/-! SUPPORT. The books right after power-on and after an ESTATE CLEAR, and through every row that makes no request. -/

namespace Sys2Proof.Machine

open State (changesOnly_refl)

variable {s t u : State} {N : PermitNo → Prop} {W : List Waiting} {p : Authority} {d : DoorId} {i : Instr}

/-! ### With the tables of power-on (R173, R179) -/

/-- The parts that the books read nothing of, or that may stand as they are with the tables of power-on. -/
def resetFields : List Field := [.clock, .count, .posture, .lanes, .ports, .timings, .meetings, .pending]

/-- The books balance, nothing waits, and no slot holds a permit. -/
def State.Cleared (s : State) : Prop := s.Books True (fun _ => True) []

theorem State.Cleared.books (h : s.Cleared) : s.Books True N [] := h.hold fun n k x _ hx => h.unheld n k x trivial hx

theorem State.cleared_of_reset (hc : State.reset.changesOnly resetFields t)
    (hq : t.posture = .lockdown → ∀ l, (t.lane l).phase.Quiet) : t.Cleared := by
  have hper : ∀ n, t.permit n = none := fun n => by rw [hc.permit_eq (by decide), reset_permit]
  have hslot : ∀ k, t.slot k = none := fun k => by rw [hc.slot_eq (by decide), reset_slot]
  have hdoor : ∀ d, t.door d = Door.initial := fun d => by rw [hc.door_eq (by decide), reset_door]
  have hrec : ∀ k, t.record k = none := fun k => by rw [hc.record_eq (by decide), reset_record]
  have hord : ∀ n w, t.workOrder n = some w → n = 0 ∧ w = .escortRoster := by
    intro n w hw
    rw [hc.workOrder_eq (by decide), reset_workOrder] at hw
    split_ifs at hw with hn
    exact ⟨hn, (Option.some.inj hw).symm⟩
  refine ⟨fun L hL => ?_, fun n w hw hn => absurd (hord n w hw).1 hn, fun n q hq => ?_,
    ⟨fun k x hx => ?_, fun j k x y hx => ?_, fun d hd => ?_, fun n => ?_⟩, ⟨fun k o ho => ?_, fun n q r hq => ?_⟩,
    fun n w hw => ?_, fun _ => State.lockdownQuiet_iff.2 fun hp => ⟨fun d => ?_, hq hp⟩, fun n k x _ hx => ?_,
    (hc .waiting (by decide)).trans reset_waiting⟩
  · simp only [bookLaws, List.mem_cons, List.not_mem_nil, or_false] at hL
    rcases hL with rfl | rfl | rfl <;>
      exact (TableLaw.holds_reset (by decide)).of_changes hc (by decide)
  · rw [hper] at hq
    exact nomatch hq
  · rw [hslot] at hx
    exact nomatch hx
  · rw [hslot] at hx
    exact nomatch hx
  · rw [hdoor] at hd
    exact absurd rfl hd
  · have hcount : t.slotsCounted n = [] := List.eq_nil_iff_forall_not_mem.2 fun k hk => by
      obtain ⟨x, -, hx, -⟩ := State.mem_slotsCounted.1 hk
      rw [hslot] at hx
      exact nomatch hx
    rw [hcount, hc.space_eq (by decide), reset_space]
    split_ifs <;> rfl
  · rw [hrec] at ho
    exact nomatch ho
  · rw [hper] at hq
    exact nomatch hq
  · rw [(hord n w hw).2]
    refine (Finset.sum_eq_zero fun m _ => ?_).symm
    rw [hper]
    rfl
  · rw [hdoor]
    exact ⟨nofun, rfl, rfl⟩
  · rw [hslot] at hx
    exact nomatch hx

namespace State.Books

/-- An ESTATE CLEAR leaves the lanes as they are (R173). -/
theorem cleared (h : s.Books True N W) : s.cleared.Cleared := by
  refine State.cleared_of_reset (fun f hf => ?_) fun hp => (State.lockdownQuiet_iff.1 (h.quiet trivial) hp).2
  cases f <;> first
    | rfl
    | exact absurd (by decide) hf

/-! ### Commands that make no request -/

theorem judgePayload {α : Type} {a : Payload α} {body : α → State → State × Answer} (h : s.Books True N W)
    (hb : ∀ x, (body x s).1.Books True N W) : (Machine.judgePayload a body s).1.Books True N W := by
  cases a with
  | fields x => exact hb x
  | malformed _ => exact h

end State.Books

/-- The command is an ESTATE CLEAR that is accepted. -/
def State.isCleared (s : State) (i : Instr) : Prop := (∃ a, i = .estateClear .sec (.fields a)) ∧ ∀ j, s.record j = none

theorem State.Books.plainCommand {body : State → State × Answer} (h : s.Books True N W)
    (hb : Machine.plainCommand i = some body) :
    (body s).1.Books True N W ∨ (s.isCleared i ∧ (body s).1.Cleared) := by
  have hblocks : ∀ u, s.changesOnly [.blocks] u → u.Books True N W := fun u hu =>
    h.of_bookless (hu.mono (by decide))
  cases i with
  | writeBlock p a =>
    cases hb
    exact .inl (h.judgePayload fun _ => hblocks _ ((changesOnly_refl _ s).writeBlock (by decide)))
  | freeBlocks p a =>
    cases hb
    exact .inl (h.judgePayload fun _ => hblocks _ ((changesOnly_refl _ s).freeBlocks (by decide)))
  | readBlock p a => cases hb; exact .inl (h.judgePayload fun x => by rwa [readBlock_state])
  | defineSpace p a => cases hb; exact .inl (h.judgePayload fun _ => h.defineSpace)
  | stageSpace p a => cases hb; exact .inl (h.judgePayload fun _ => h.stageSpace)
  | cancelStage p a => cases hb; exact .inl (h.judgePayload fun _ => h.cancelStage)
  | retireSpace p a => cases hb; exact .inl (h.judgePayload fun _ => h.retireSpace)
  | readSpace p a => cases hb; exact .inl (h.judgePayload fun x => by rwa [readSpace_state])
  | purge p a =>
    cases hb
    exact .inl (h.judgePayload fun _ => h.of_bookless ((changesOnly_refl _ s).purge (by decide)))
  | setPosture p a => cases hb; exact .inl (h.judgePayload fun _ => h.setPosture)
  | setSiteAllowance p a => cases hb; exact .inl (h.judgePayload fun _ => h.setSiteAllowance)
  | forceExit p a => cases hb; exact .inl (h.judgePayload fun _ => h.forceExit)
  | readRoom p a => cases hb; exact .inl (h.judgePayload fun x => by rwa [readRoom_state])
  | createWorkOrder p a => cases hb; exact .inl (h.judgePayload fun _ => h.createWorkOrder)
  | endorse p a => cases hb; exact .inl (h.judgePayload fun _ => h.endorse)
  | withdraw p a => cases hb; exact .inl (h.judgePayload fun _ => h.withdraw)
  | readWorkOrder p a => cases hb; exact .inl (h.judgePayload fun x => by rwa [readWorkOrder_state])
  | issuePermit p a => cases hb; exact .inl (h.judgePayload fun _ => h.issuePermit)
  | revoke p a => cases hb; exact .inl (h.judgePayload fun _ => h.revoke)
  | readPermit p a => cases hb; exact .inl (h.judgePayload fun x => by rwa [readPermit_state])
  | bindDoor p a => cases hb; exact .inl (h.judgePayload fun _ => h.bindDoor)
  | readDoor p a => cases hb; exact .inl (h.judgePayload fun x => by rwa [readDoor_state])
  | remoteConsent p a => cases hb; exact .inl (h.judgePayload fun _ => h.remoteConsent)
  | holdLane p a => cases hb; exact .inl (h.judgePayload fun _ => h.setHold Slot.freeze_same)
  | releaseLane p a => cases hb; exact .inl (h.judgePayload fun _ => h.setHold Slot.thaw_same)
  | resetLane p a => cases hb; exact .inl (h.judgePayload fun _ => h.resetLane)
  | setTimings p a => cases hb; exact .inl (h.judgePayload fun _ => h.setTimings)
  | readStatus p a => cases hb; exact .inl (h.judgePayload fun x => by rwa [readStatus_state])
  | estateClear p a =>
    cases hb
    cases a with
    | malformed _ => exact .inl h
    | fields a =>
      show (Machine.estateClear p a s).1.Books True N W ∨ _ ∧ (Machine.estateClear p a s).1.Cleared
      unfold Machine.estateClear
      split
      · exact .inl h
      · rename_i hp
        split
        · exact .inl h
        · rename_i hr
          refine .inr ⟨⟨⟨a, by rw [not_not.1 hp]⟩, s.anyRecord_eq_false.1 (Bool.eq_false_iff.2 hr)⟩, h.cleared⟩
  | unknownCommand p code bytes => cases hb; exact .inl h
  | setClock p a => cases a <;> cases hb; exact .inl h
  | activate p a => cases a <;> cases hb; exact .inl h
  | _ => cases hb

end Sys2Proof.Machine

/-! SUPPORT. What the books ask of a decision that waits (R38): what it found when it began still stands; and the books
through selections, up to the request that one of them makes. -/

namespace Sys2Proof.Machine

open State (changesOnly_refl)

variable {s t u : State} {N : PermitNo → Prop} {W : List Waiting} {p : Authority} {d : DoorId} {c : Credential} {i : Instr}
  {n : WorkOrderNo} {w : WorkOrder} {run : SelectionRun} {now : Reading}

/-! ### Decisions that wait -/

/-- The permit that a decision will have a slot or a room take, which no slot holds while it waits. -/
def Errand.claims : Errand → PermitNo → Prop
  | .contractor e => fun n => n = e.permit
  | .escort e => fun n => n = e.permit ∧ e.slot.holds n = false
  | .selection _ => fun _ => False

/-- What a decision found when it began. -/
def Errand.Valid (s : State) : Errand → Prop
  | .contractor e => s.posture ≠ .lockdown ∧ (s.door e.door).admission = .idle ∧ (s.door e.door).binding ≠ none ∧
      s.permit e.permit = some e.record ∧ e.record.state = .idle ∧
      s.workOrder e.record.workOrder = some e.workOrder ∧ e.option ∈ e.workOrder.options
  | .escort e => s.posture ≠ .lockdown ∧ s.slot e.slotNo = some e.slot ∧ e.slot.door = e.door ∧ e.slot.expects ≠ .consent ∧
      (s.door e.door).admission.contractorSpace ≠ none ∧
      (∃ q, s.permit e.permit = some q ∧ q.role = .escort ∧ q.state = .idle ∧ q.credential = e.credential) ∧
      ∃ q, s.permit e.slot.contractor = some q ∧ q.workOrder = e.job
  | .selection e => s.workOrder e.number = some e.workOrder

/-- A decision that begins: what it found, and the permit it will take held by no slot. -/
def Errand.Ready (s : State) (e : Errand) : Prop :=
  e.Valid s ∧ ∀ n, e.claims n → ∀ k x, s.slot k = some x → x.holds n = false

/-- A decision that begins waits. -/
theorem State.Books.wait {e : Errand} {asks : WaitingFor} (h : s.Books True N W) (he : e.general) :
    (s.wait e asks).Books True N (W ++ [⟨e, asks⟩]) :=
  { h with
    laws := fun L hL => (h.laws L hL).wait fun _ => he
    line := congrArg (· ++ _) h.line }

/-- Other decisions of the line wait. -/
theorem State.Books.cut {v : List Waiting} (h : s.Books True N W) (hv : ∀ x ∈ v, x ∈ s.waiting) :
    ({ s with waiting := v } : State).Books True N v :=
  { h with
    laws := fun L hL => (h.laws L hL).cut hv
    line := rfl }

/-! ### Selections -/

/-- What selections of these work orders come to: the books stand, and one selection of them waits, or none. -/
structure State.RunsTo (N : PermitNo → Prop) (W : List Waiting) (l : List WorkOrderNo) (s t : State) : Prop where
  changes : s.changesOnly [.waiting, .workOrders, .ports] t
  others : ∀ m, m ∉ l → t.workOrder m = s.workOrder m
  books : ∃ B, t.Books True N (W ++ B) ∧ (B = [] ∨ ∃ e : SelectionEntry, B = [⟨.selection e, .grant⟩] ∧
    (Errand.selection e).Valid t ∧ ∀ m ∈ e.number :: e.run.later, m ∈ l)

namespace State.Books

theorem applyResult {r : SelectionResult} (h : s.Books True N W) (hw : s.workOrder n = some w)
    (hn : n ≠ 0) : (s.applyResult now n w r).Books True N W := by
  have hset : ∀ w' : WorkOrder, w'.issuer = w.issuer → w'.options = w.options → w'.party = w.party →
      w'.isClosing = false → (s.setWorkOrder n (some w')).Books True N W := fun w' hi ho hp hc =>
    h.setWorkOrder hw hn hi ho hp fun hc' => absurd hc' (by simp [hc])
  unfold State.applyResult
  split
  · unfold State.applySelection
    dsimp only
    split
    · exact (hset _ (by rfl) (by rfl) (by rfl) (by rfl)).notify.notify
    · exact (hset _ (by rfl) (by rfl) (by rfl) (by rfl)).notify
  · split
    · exact (hset _ (by rfl) (by rfl) (by rfl) (by rfl)).notify
    · exact h
  · exact h

theorem endSelection {tested : List (Resolution Candidate)} (h : s.Books True N W) (hw : s.workOrder n = some w)
    (hn : n ≠ 0) : (s.endSelection run now n w tested).Books True N W := by
  have hres := fun r => h.applyResult (now := now) (r := r) hw hn
  unfold State.endSelection
  dsimp only
  split
  · exact (hres _).makeReply
  all_goals exact hres _

end State.Books

theorem State.applyResult_workOrder {r : SelectionResult} {m : WorkOrderNo} (hm : m ≠ n) :
    (s.applyResult now n w r).workOrder m = s.workOrder m := by
  have hset : ∀ w' : WorkOrder, (s.setWorkOrder n (some w')).workOrder m = s.workOrder m := fun w' => by
    rw [State.setWorkOrder_workOrder, if_neg hm]
  unfold State.applyResult
  split
  · unfold State.applySelection
    dsimp only
    split <;> exact hset _
  · split
    · exact hset _
    · rfl
  · rfl

theorem State.endSelection_workOrder {tested : List (Resolution Candidate)} {m : WorkOrderNo} (hm : m ≠ n) :
    (s.endSelection run now n w tested).workOrder m = s.workOrder m := by
  unfold State.endSelection
  dsimp only
  split <;> exact State.applyResult_workOrder hm

/-- A selection goes on: it ends with the books in balance, or it waits with one more request. -/
theorem State.Books.selectFrom_cases {index : Nat} {left : List WorkOption} {tested : List (Resolution Candidate)}
    (h : s.Books True N W) (hw : s.workOrder n = some w) (hn : n ≠ 0)
    (hl : 0 ∉ run.later) :
    (∃ u, s.selectFrom run now n w index left tested = (u, true) ∧ u.Books True N W ∧
      s.changesOnly [.workOrders, .ports] u ∧ ∀ m, m ≠ n → u.workOrder m = s.workOrder m) ∨
    ∃ u, s.selectFrom run now n w index left tested = (u, false) ∧ s.RunsTo N W (n :: run.later) u := by
  unfold State.selectFrom
  split
  · refine .inr ⟨_, rfl, (changesOnly_refl _ s).waiting_update (by decide), fun _ _ => rfl, _, h.wait ⟨hn, hl⟩,
      .inr ⟨_, rfl, hw, fun m hm => hm⟩⟩
  · exact .inl ⟨_, rfl, h.endSelection hw hn, (changesOnly_refl _ s).endSelection (by simp),
      fun m hm => State.endSelection_workOrder hm⟩

/-- The turn of a work order writes that work order alone, which is then as the turn takes it. -/
theorem State.Books.turnOf {b : Bool} (h : s.Books True N W) (hn : n ≠ 0) (ht : s.turnOf b n = some (t, w)) :
    t.Books True N W ∧ t.workOrder n = some w ∧ ∀ m, m ≠ n → t.workOrder m = s.workOrder m := by
  unfold State.turnOf at ht
  split at ht
  · rename_i v hv
    dsimp only at ht
    split_ifs at ht with ha hlapsed
    · obtain ⟨rfl, rfl⟩ := Prod.mk.inj (Option.some.inj ht)
      refine ⟨h.setWorkOrder hv hn rfl rfl rfl .inl, by rw [State.setWorkOrder_workOrder, if_pos rfl], fun m hm => ?_⟩
      rw [State.setWorkOrder_workOrder, if_neg hm]
    · obtain ⟨rfl, rfl⟩ := Prod.mk.inj (Option.some.inj ht)
      exact ⟨h, hv, fun _ _ => rfl⟩
  · exact nomatch ht

/-- What comes before a run and touches its work orders alone. -/
theorem State.RunsTo.before {l : List WorkOrderNo} (h : t.RunsTo N W l u)
    (hc : s.changesOnly [.waiting, .workOrders, .ports] t) (ho : ∀ m, m ∉ l → t.workOrder m = s.workOrder m) :
    s.RunsTo N W l u where
  changes := hc.trans h.changes
  others m hm := (h.others m hm).trans (ho m hm)
  books := h.books

theorem State.RunsTo.mono {l l' : List WorkOrderNo} (h : s.RunsTo N W l t) (hl : ∀ m ∈ l, m ∈ l') : s.RunsTo N W l' t where
  changes := h.changes
  others m hm := h.others m (mt (hl m) hm)
  books := by
    obtain ⟨B, hB, hcase⟩ := h.books
    exact ⟨B, hB, hcase.imp_right fun ⟨e, he, hv, hm⟩ => ⟨e, he, hv, fun m hm' => hl m (hm m hm')⟩⟩

theorem State.RunsTo.of_books {l : List WorkOrderNo} (h : s.Books True N W) : s.RunsTo N W l s where
  changes := changesOnly_refl _ s
  others _ _ := rfl
  books := ⟨[], by simpa using h, .inl rfl⟩

/-- The replies of the ports come behind a run. -/
theorem State.RunsTo.makeReply {l : List WorkOrderNo} {b : Bool} {r : Reply} (h : s.RunsTo N W l t) :
    s.RunsTo N W l (t.makeReply p b r) where
  changes := h.changes.makeReply (by decide)
  others := h.others
  books := by
    obtain ⟨B, hB, hcase⟩ := h.books
    exact ⟨B, hB.makeReply, hcase⟩

theorem State.Books.takeTurns {b : Bool} {run : List WorkOrderNo → SelectionRun} (hrun : ∀ rest, (run rest).later = rest)
    {l : List WorkOrderNo} (h : s.Books True N W) (hl : 0 ∉ l) : s.RunsTo N W l (s.takeTurns b run now l) := by
  induction l generalizing s with
  | nil => exact .of_books h
  | cons n rest ih =>
    simp only [List.mem_cons, not_or] at hl
    have hn : n ≠ 0 := Ne.symm hl.1
    unfold State.takeTurns
    cases ht : s.turnOf b n with
    | none => exact (ih h hl.2).mono fun m hm => List.mem_cons_of_mem _ hm
    | some q =>
      obtain ⟨s1, w⟩ := q
      obtain ⟨h1, hw, hother⟩ := h.turnOf hn ht
      have hchanges : s.changesOnly [.waiting, .workOrders, .ports] s1 := (State.turnOf_changes ht).mono (by decide)
      have hother' : ∀ m, m ∉ n :: rest → s1.workOrder m = s.workOrder m := fun m hm =>
        hother m fun he => hm (he ▸ List.mem_cons_self)
      dsimp only
      unfold State.beginSelection
      rcases h1.selectFrom_cases (index := 1) (left := w.options.take 7) (tested := []) (run := run rest) (now := now)
        hw hn (by rw [hrun]; exact hl.2) with ⟨u, hu, hub, huc, hum⟩ | ⟨u, hu, hruns⟩ <;> rw [hu]
      · refine State.RunsTo.before ((ih hub hl.2).mono fun m hm => List.mem_cons_of_mem _ hm)
          (hchanges.trans (huc.mono (by decide))) fun m hm => ?_
        exact (hum m fun he => hm (he ▸ List.mem_cons_self)).trans (hother' m hm)
      · rw [hrun] at hruns
        exact hruns.before hchanges hother'

theorem State.Books.goOn (h : s.Books True N W) (hl : 0 ∉ run.later) : s.RunsTo N W run.later (s.goOn now run) := by
  cases run with
  | activate p b => exact .of_books h
  | deadline => exact .of_books h
  | minute rest => exact h.takeTurns (fun _ => rfl) hl
  | clockSet b a rest =>
    have hturns := h.takeTurns (b := true) (run := .clockSet b a) (now := now) (fun _ => rfl) hl
    unfold State.goOn
    dsimp only
    split
    · exact hturns.makeReply
    · exact hturns

/-- A waiting selection goes on (R105 to R112). -/
theorem State.Books.resumeSelection {e : SelectionEntry} {rights : Resolution (GrantSummary × OverlaySummary)}
    (h : s.Books True N W) (hv : (Errand.selection e).Valid s) (hg : (Errand.selection e).general) :
    s.RunsTo N W (e.number :: e.run.later) (s.resume rights (.selection e)) := by
  unfold State.resume
  dsimp only
  rcases h.selectFrom_cases (index := e.index + 1) (left := e.left)
    (tested := e.tested ++ [s.optionResult e.index e.option e.home e.time rights]) (run := e.run) (now := e.now)
    hv hg.1 hg.2 with ⟨u, hu, hub, huc, hum⟩ | ⟨u, hu, hruns⟩ <;> rw [hu]
  · refine State.RunsTo.before ((hub.goOn hg.2).mono fun m hm => List.mem_cons_of_mem _ hm) (huc.mono (by decide))
      fun m hm => hum m fun he => hm (he ▸ List.mem_cons_self)
  · exact hruns

end Sys2Proof.Machine

/-! SUPPORT. The books through an Enter presentation: what it finds before its requests, and what it comes to behind them
(R134 to R140, R150 to R155). -/

namespace Sys2Proof.Machine

open State (changesOnly_refl)

variable {s t u : State} {N : PermitNo → Prop} {W : List Waiting} {d : DoorId} {c : Credential}
  {rights : Resolution (GrantSummary × OverlaySummary)}

/-! ### Up to the requests -/

/-- What a presentation comes to before its requests: settled with the books in balance, or ready to make them. -/
def EnterStage.Sound (s : State) (N : PermitNo → Prop) (W : List Waiting) : EnterStage → Prop
  | .settled t => t.Books True N W
  | .contractor e => (Errand.contractor e).Ready s
  | .escort e => (Errand.escort e).Ready s

theorem WorkOrder.selectedOption_mem {w : WorkOrder} {o : WorkOption} (h : w.selectedOption = some o) : o ∈ w.options := by
  obtain ⟨k, -, hk⟩ := Option.bind_eq_some_iff.1 h
  exact List.mem_of_getElem? hk

/-- The Escort-role permit bound to a credential (R152). -/
theorem State.escortOf_eq_some {n : PermitNo} {q : Permit} (h : s.escortOf c = some (n, q)) :
    q.credential = c ∧ s.permit n = some q ∧ q.role = .escort := by
  unfold State.escortOf at h
  split at h
  · exact nomatch h
  · rename_i m hm
    split at h
    · exact nomatch h
    · rename_i p hp
      split_ifs at h with hrole
      obtain ⟨rfl, rfl⟩ := Prod.mk.inj (Option.some.inj h)
      obtain ⟨⟨p', hp', hc⟩, -⟩ := State.permitOf_eq_some.1 hm
      rw [hp, Option.some.injEq] at hp'
      exact ⟨hp' ▸ hc, hp, hrole⟩

namespace State.Books

theorem enterIdle (h : s.Books True N W) (hd : (s.door d).admission = .idle) :
    (s.enterIdle d c).Sound s N W := by
  have hdeny : ∀ code, (s.settleDeny d c code).Sound s N W := fun _ => h.denyPresentation
  unfold State.enterIdle
  split
  · exact hdeny _
  · rename_i b hb
    split
    · exact hdeny _
    · split
      · exact hdeny _
      · split
        · exact hdeny _
        · rename_i hpost
          split
          · exact hdeny _
          · split
            · exact hdeny _
            · rename_i n p hp
              unfold State.enterWithPermit
              split
              · exact hdeny _
              · split
                · exact hdeny _
                · rename_i hfree
                  simp only [Bool.or_eq_true, not_or, Bool.not_eq_true, Option.isSome_eq_false_iff,
                    Option.isNone_iff_eq_none] at hfree
                  split
                  · exact hdeny _
                  · rename_i w hw
                    split
                    · exact hdeny _
                    · split
                      · exact hdeny _
                      · split
                        · exact hdeny _
                        · rename_i o ho
                          refine ⟨⟨hpost, hd, by simp [hb], hp, PermitState.eq_idle_of_not_counted hfree.1, hw,
                            WorkOrder.selectedOption_mem ho⟩, ?_⟩
                          rintro m rfl
                          exact State.unheld_of_slotHolding hfree.2

/-- An escort's step, with the permit that it presents: one that the slot holds at the last step, and one that no slot
holds at another (R152, R153, R155). -/
theorem escortStep {k : SlotNo} {x : Slot} {r : Designator} {v : DecisionValues} {n : PermitNo} {q : Permit}
    (h : s.Books True N W) (hx : s.slot k = some x) (hd : x.door = d) (hexp : x.expects ≠ .consent)
    (hq : s.permit n = some q) (hrole : q.role = .escort) (hcred : q.credential = c)
    (hheld : x.expects = .finalEscort → x.holds n = true) : (s.escortStep d k x r v c n q).Sound s N W := by
  have hdeny : ∀ code, (s.settleDeny d c code).Sound s N W := fun _ => h.denyPresentation
  obtain ⟨sp, hsp, -⟩ := h.contractorSpace_of_slot hx
  have hadm : (s.door d).admission.contractorSpace ≠ none := by rw [← hd, hsp]; simp
  obtain ⟨-, ⟨-, qc, -, -, hqc, -⟩, -⟩ := h.pairings.1 k x hx
  unfold State.escortStep
  split
  · exact hdeny _
  · split
    · exact hdeny _
    · split
      · exact hdeny _
      · rename_i hfree
        simp only [Bool.or_eq_true, Bool.and_eq_true, bne_iff_ne, ne_eq, not_or, not_and, Bool.not_eq_true,
          Option.isSome_eq_false_iff, Option.isNone_iff_eq_none] at hfree
        split
        · refine ⟨⟨h.ne_lockdown hadm trivial, hx, hd, hexp, hadm, ⟨q, hq, hrole,
            PermitState.eq_idle_of_not_counted hfree.1, hcred⟩, qc, hqc, ?_⟩, ?_⟩
          · dsimp only
            rw [hqc]
          · rintro m ⟨rfl, hno⟩
            refine State.unheld_of_slotHolding (hfree.2 fun he => ?_)
            rw [hheld he] at hno
            exact nomatch hno
        · exact hdeny _

theorem contractorStep {k : SlotNo} {x : Slot} (h : s.Books True N W) (hx : s.slot k = some x)
    (hexp : x.expects ≠ .consent) : (s.contractorStep d k x c).Books True N W := by
  unfold State.contractorStep
  split
  · exact h.denyPresentation
  · exact h.setSlot_same hx rfl rfl (by simp [hexp]) rfl

theorem enterPairingDoor {v : DecisionValues} (h : s.Books True N W) : (s.enterPairingDoor d v c).Sound s N W := by
  have hbreak : ∀ k, ((s.breakPairing k).settleDeny d c .pairingBroken).Sound s N W :=
    fun _ => State.Books.denyPresentation h.breakPairing
  have hdeny : (s.settleDeny d c .doorBusy).Sound s N W := h.denyPresentation
  unfold State.enterPairingDoor
  split
  · rename_i k b hk _
    obtain ⟨x, hx, hd, -, -, hescort⟩ := h.pairings.slot_of_door hk
    rw [hx]
    dsimp only
    split
    · rename_i hexp
      split
      · rename_i n q hof
        obtain ⟨hcred, hq, hrole⟩ := State.escortOf_eq_some hof
        exact h.escortStep hx hd (by rw [hexp]; nofun) hq hrole hcred fun he => by rw [hexp] at he; exact nomatch he
      · exact hbreak k
    · rename_i hexp
      split
      · exact h.contractorStep hx (by rw [hexp]; nofun)
      · exact hbreak k
    · rename_i hexp
      split
      · rename_i e he
        obtain ⟨q, hq, hrole, -, hcred⟩ := hescort e he
        rw [hq]
        dsimp only
        split
        · rename_i hec
          exact h.escortStep hx hd (by rw [hexp]; nofun) hq hrole (hcred.trans hec) fun _ => by simp [Slot.holds, he]
        · exact hbreak k
      · exact hbreak k
    · exact hdeny
  · exact hdeny

theorem enterStage (h : s.Books True N W) : (s.enterStage d c).Sound s N W := by
  unfold State.enterStage
  split
  · exact h.enterIdle ‹_›
  · exact h.enterPairingDoor
  all_goals exact h.denyPresentation

/-! ### Behind the requests -/

/-- An Enter presentation from the judgement of its rights on (R138 to R140, R150). -/
theorem endContractor {e : ContractorEntry} (h : s.Books True N W) (hr : (Errand.contractor e).Ready s)
    (hN : ¬ N e.permit) : (s.endContractor e rights).Books True N W := by
  obtain ⟨⟨hpost, hd, hb, hp, hidle, hw, ho⟩, hheld⟩ := hr
  have hfree := hheld _ rfl
  have hnone : (s.door e.door).admission.contractorSpace = none := by rw [hd]; rfl
  unfold State.endContractor
  split
  · exact h
  · exact h.denyPresentation
  · unfold State.enterWithRights
    dsimp only
    split
    · split
      · exact h.denyPresentation
      · refine h.openEnter hnone (fun _ => hpost) (by simp) (by simp) ?_ ?_
        · simpa using ⟨_, hp, hidle⟩
        · simpa using hfree
    · rename_i hrole
      rw [not_or] at hrole
      exact h.enterPairing (fun _ => hpost) hnone hb hp hrole.1 hidle hfree hN hw ho rfl

/-- An escort step from the judgement of the escort's rights on (R153 to R155). -/
theorem endEscort {e : EscortEntry} (h : s.Books True N W) (hr : (Errand.escort e).Ready s)
    (hN : (Errand.escort e).claims e.permit → ¬ N e.permit) : (s.endEscort e rights).Books True N W := by
  obtain ⟨⟨-, hx, hd, hexp, -, ⟨q, hq, hrole, hidle, hcred⟩, -⟩, hheld⟩ := hr
  obtain ⟨-, ⟨-, qc, -, -, hqc, hrolec, hidlec, -⟩, -⟩ := h.pairings.1 _ _ hx
  have hhold : ∀ y : Slot, y.door = e.slot.door → y.contractor = e.slot.contractor →
      (y.expects = .consent ↔ e.slot.expects = .consent) → (∀ f, y.escort = some f → f.permit = e.permit ∧
        f.credential = e.credential) → (s.setSlot e.slotNo (some y)).Books True N W := by
    intro y hyd hyc hye hyesc
    refine h.setSlot hx hyd hyc hye fun f hf => ?_
    obtain ⟨hfp, hfc⟩ := hyesc f hf
    rw [hfp, hfc]
    refine ⟨⟨q, hq, hrole, hidle, hcred⟩, ?_⟩
    cases hno : e.slot.holds e.permit with
    | true => exact .inl rfl
    | false => exact .inr ⟨hheld _ ⟨rfl, hno⟩, hN ⟨rfl, hno⟩⟩
  unfold State.endEscort
  split
  · exact h
  · exact h.denyPresentation
  · dsimp only
    split
    · unfold State.completePairing
      split
      · exact State.Books.denyPairing (hhold _ rfl rfl Iff.rfl fun f hf => Option.some.inj hf ▸ ⟨rfl, rfl⟩)
      · rw [← hd]
        refine h.endPairing_openEnter hx (by simp) ?_ ?_ ?_
        · have hne : e.slot.contractor ≠ e.permit := by
            intro he
            rw [he, hq, Option.some.injEq] at hqc
            exact hrolec (hqc ▸ hrole)
          simpa using hne
        · simpa using ⟨⟨qc, hqc, hidlec⟩, q, hq, hidle⟩
        · intro y hy j z hz hyz
          simp only [List.mem_cons, List.not_mem_nil, or_false] at hy
          rcases hy with rfl | rfl
          · exact h.pairings.2.1 j _ z _ hz hx (.inr ⟨_, hyz, by simp [Slot.holds]⟩)
          · by_cases hslot : e.slot.holds e.permit = true
            · exact h.pairings.2.1 j _ z _ hz hx (.inr ⟨_, hyz, hslot⟩)
            · have := hheld _ ⟨rfl, Bool.eq_false_iff.2 hslot⟩ j z hz
              rw [this] at hyz
              exact nomatch hyz
    · exact hhold _ rfl rfl (by simp [hexp]) fun f hf => Option.some.inj hf ▸ ⟨rfl, rfl⟩

end State.Books

end Sys2Proof.Machine

/-! SUPPORT. What a decision leaves that goes on from the judgement of its rights, and that decisions about other doors,
permits and work orders find what they found (R38, R134). -/

namespace Sys2Proof.Machine

open State (changesOnly_refl)

variable {s t u : State} {x : Decision} {d : DoorId} {c : Credential}
  {rights : Resolution (GrantSummary × OverlaySummary)}

/-- A change leaves all but the door of a decision with its slots, the decision's permits and its work orders. -/
structure State.LeavesBut (x : Decision) (s t : State) : Prop where
  posture : t.posture = s.posture
  door : ∀ d, x.door ≠ some d → t.door d = s.door d
  slot : ∀ k y, s.slot k = some y → x.door ≠ some y.door → t.slot k = some y
  permit : ∀ n, n ∉ x.permits → t.permit n = s.permit n
  order : ∀ n, n ∉ x.orders → t.workOrder n = s.workOrder n

namespace State.LeavesBut

theorem refl (x : Decision) (s : State) : s.LeavesBut x s := ⟨rfl, fun _ _ => rfl, fun _ _ h _ => h, fun _ _ => rfl, fun _ _ => rfl⟩

theorem trans (h : s.LeavesBut x t) (h' : t.LeavesBut x u) : s.LeavesBut x u where
  posture := h'.posture.trans h.posture
  door d hd := (h'.door d hd).trans (h.door d hd)
  slot k y hy hd := h'.slot k y (h.slot k y hy hd) hd
  permit n hn := (h'.permit n hn).trans (h.permit n hn)
  order n hn := (h'.order n hn).trans (h.order n hn)

/-- A change of other parts leaves all. -/
theorem of_changes {fs : List Field} (hc : s.changesOnly fs t)
    (hf : ∀ f ∈ fs, f ∉ [Field.posture, .workOrders, .permits, .doors, .slots]) : s.LeavesBut x t where
  posture := hc .posture fun h => hf _ h (by simp)
  door d _ := by rw [hc.door_eq fun h => hf _ h (by simp)]
  slot k y hy _ := by rwa [hc.slot_eq fun h => hf _ h (by simp)]
  permit n _ := by rw [hc.permit_eq fun h => hf _ h (by simp)]
  order n _ := by rw [hc.workOrder_eq fun h => hf _ h (by simp)]

theorem setDoor {y : Door} (hd : x.door = some d) : s.LeavesBut x (s.setDoor d y) where
  posture := rfl
  door e he := by
    rw [State.setDoor_door, if_neg]
    rintro rfl
    exact he hd
  slot _ _ h _ := h
  permit _ _ := rfl
  order _ _ := rfl

theorem setSlot {k : SlotNo} {y : Option Slot} (hk : ∀ z, s.slot k = some z → x.door = some z.door) :
    s.LeavesBut x (s.setSlot k y) where
  posture := rfl
  door _ _ := rfl
  slot j z hz hd := by
    rw [State.setSlot_slot, if_neg]
    · exact hz
    · rintro rfl
      exact hd (hk z hz)
  permit _ _ := rfl
  order _ _ := rfl

theorem addVerdict {v : Verdict} (hd : x.door = some d) : s.LeavesBut x (s.addVerdict d v) := setDoor hd

theorem denyPresentation {code : DenyCode} (hd : x.door = some d) : s.LeavesBut x (s.denyPresentation d c code) :=
  (addVerdict hd).trans (of_changes ((changesOnly_refl [.ports] _).notifyDenied (by decide)) (by decide))

theorem endPairing {k : SlotNo} {f : Option SpaceNo} (hd : x.door = some d)
    (hk : ∀ z, s.slot k = some z → x.door = some z.door) : s.LeavesBut x (s.endPairing k d f) := by
  have h1 : s.LeavesBut x ((s.setSlot k none).endAdmission d) := (setSlot hk).trans (setDoor hd)
  exact h1.trans (of_changes (s.endPairing_changes k d f) (by decide))

theorem denyPairing {k : SlotNo} {code : DenyCode} {f : Option SpaceNo} {v : Bool}
    (hk : ∀ z, s.slot k = some z → x.door = some z.door) : s.LeavesBut x (s.denyPairing k code f v) := by
  cases hz : s.slot k with
  | none =>
    unfold State.denyPairing
    rw [hz]
    exact refl x s
  | some z =>
    have hd := hk z hz
    refine LeavesBut.trans ?_ (of_changes (State.denyPairing_changes hz v) (by decide))
    cases v
    · exact endPairing hd hk
    · exact (endPairing hd hk).trans (addVerdict hd)

theorem enterPairing {count : Nat} {n : PermitNo} {v : DecisionValues} (hd : x.door = some d) :
    s.LeavesBut x (s.enterPairing count d c n v) := by
  unfold State.enterPairing
  split
  · exact denyPresentation hd
  · rename_i k hk
    have hnone : s.slot k = none := Option.isNone_iff_eq_none.1 (lowest_eq_some.1 hk).1
    refine LeavesBut.trans (LeavesBut.trans (setSlot fun z hz => ?_) (setDoor hd)) (of_changes
      ((changesOnly_refl [.spaces] _).foldl fun u m _ => (changesOnly_refl _ u).raiseDrain (by decide)) (by decide))
    rw [hnone] at hz
    exact nomatch hz

/-- A reservation writes its permits and the party loads of their work orders (R94, R113). -/
theorem reserve {r : Designator} {g m : Nat} {remote : Bool} {ns : List PermitNo} (hns : ∀ n ∈ ns, n ∈ x.permits)
    (horders : ∀ n ∈ ns, ∀ q, s.permit n = some q → q.workOrder ∈ x.orders) :
    s.LeavesBut x (s.reserve r g m d remote ns) := by
  cases hk : s.recordFor r with
  | none =>
    unfold State.reserve
    rw [hk]
    exact refl x s
  | some k =>
    rw [State.reserve_eq hk]
    set s1 := (s.setRecord k _).evaluateOver k with hs1
    have hc : s.changesOnly [.occupancy, .ports] s1 :=
      ((changesOnly_refl _ s).setRecord (by decide)).evaluateOver (by decide)
    have h1 : s.LeavesBut x s1 := of_changes hc (by decide)
    have hper := hc.permit_eq (by decide)
    refine (foldl_keeps (I := fun u => s.LeavesBut x u ∧ ∀ n ∈ ns, ∀ q, u.permit n = some q → q.workOrder ∈ x.orders)
      ⟨h1, by rwa [hper]⟩ fun u n hn hu => ?_).1
    obtain ⟨hleaves, hord⟩ := hu
    cases hq : u.permit n with
    | none =>
      have hsame : u.makePending r d remote n = u := by
        unfold State.makePending
        rw [hq]
      rw [hsame]
      exact ⟨hleaves, hord⟩
    | some q =>
      rw [State.makePending_eq hq]
      have hparty : (u.setPermit n (some (q.reserved r d remote))).changesOnly [.workOrders]
          ((u.setPermit n (some (q.reserved r d remote))).changeParty q.workOrder (· + q.role.weight)) :=
        (changesOnly_refl _ _).changeParty (by decide)
      have hread : ∀ j, ((u.setPermit n (some (q.reserved r d remote))).changeParty q.workOrder
          (· + q.role.weight)).permit j = if j = n then some (q.reserved r d remote) else u.permit j := fun j => by
        rw [hparty.permit_eq (by decide)]
        exact State.setPermit_permit ..
      refine ⟨hleaves.trans ⟨hparty .posture (by decide), fun e _ => congrFun (hparty.door_eq (by decide)) e,
        fun j y hy _ => (congrFun (hparty.slot_eq (by decide)) j).trans hy, fun j hj => ?_, fun v hv => ?_⟩,
        fun j hj q' hq' => ?_⟩
      · rw [hread, if_neg]
        rintro rfl
        exact hj (hns j hn)
      · rw [State.changeParty_workOrder, if_neg]
        · rfl
        · rintro rfl
          exact hv (hord n hn q hq)
      · rw [hread] at hq'
        split_ifs at hq' with hjn
        · obtain rfl := Option.some.inj hq'
          exact hord n hn q hq
        · exact hord j hj q' hq'

theorem openEnter {r : Designator} {g m : Nat} {remote : Bool} {held : List HeldPermit} (hd : x.door = some d)
    (hns : ∀ y ∈ held, y.permit ∈ x.permits)
    (horders : ∀ y ∈ held, ∀ q, s.permit y.permit = some q → q.workOrder ∈ x.orders) :
    s.LeavesBut x (s.openEnter d r g m remote held) := by
  have h1 : s.LeavesBut x (s.reserve r g m d remote (held.map HeldPermit.permit)) :=
    reserve (List.forall_mem_map.2 hns) (List.forall_mem_map.2 horders)
  exact h1.trans ((setDoor hd).trans (addVerdict hd))

end State.LeavesBut

/-! ### Decisions behind their requests -/

theorem State.endContractor_leavesBut {e : ContractorEntry} (hv : (Errand.contractor e).Valid s) :
    s.LeavesBut (Errand.contractor e).party.decision (s.endContractor e rights) := by
  obtain ⟨-, -, -, hp, -⟩ := hv
  have hd : (Errand.contractor e).party.decision.door = some e.door := rfl
  unfold State.endContractor
  split
  · exact .refl _ s
  · exact .denyPresentation hd
  · unfold State.enterWithRights
    dsimp only
    split
    · split
      · exact .denyPresentation hd
      · refine .openEnter hd (by simp [Errand.party, Decision.contractor]) ?_
        simp only [List.mem_singleton, forall_eq]
        intro q hq
        rw [hp, Option.some.injEq] at hq
        simp [Errand.party, Decision.contractor, Decision.orders, hq]
    · exact .enterPairing hd

theorem State.endEscort_leavesBut {e : EscortEntry} (hv : (Errand.escort e).Valid s)
    (hroster : ∀ q, s.permit e.permit = some q → q.role = .escort → q.workOrder = 0) :
    s.LeavesBut (Errand.escort e).party.decision (s.endEscort e rights) := by
  obtain ⟨-, hx, hdoor, -, -, ⟨q, hq, hrole, -, -⟩, qc, hqc, hjob⟩ := hv
  have hd : (Errand.escort e).party.decision.door = some e.door := rfl
  have hslot : ∀ z, s.slot e.slotNo = some z → (Errand.escort e).party.decision.door = some z.door := by
    intro z hz
    rw [hx, Option.some.injEq] at hz
    rw [hd, ← hz, hdoor]
  have hset : ∀ y : Slot, y.door = e.slot.door →
      ∀ z, (s.setSlot e.slotNo (some y)).slot e.slotNo = some z → (Errand.escort e).party.decision.door = some z.door := by
    intro y hy z hz
    rw [State.setSlot_slot, if_pos rfl, Option.some.injEq] at hz
    rw [hd, ← hz, hy, hdoor]
  unfold State.endEscort
  split
  · exact .refl _ s
  · exact .denyPresentation hd
  · dsimp only
    split
    · unfold State.completePairing
      split
      · exact (State.LeavesBut.setSlot hslot).trans (.denyPairing (hset _ rfl))
      · have hper : (s.endPairing e.slotNo e.door none).permit = s.permit :=
          ((changesOnly_refl [.spaces, .doors, .slots, .ports] s).endPairing (by decide)).permit_eq (by decide)
        refine (State.LeavesBut.endPairing hd hslot).trans (.openEnter hd ?_ ?_)
        · simp [Errand.party, Decision.escort]
        · intro y hy q' hq'
          rw [hper] at hq'
          simp only [List.mem_cons, List.not_mem_nil, or_false] at hy
          rcases hy with rfl | rfl
          · rw [hqc, Option.some.injEq] at hq'
            simp [Errand.party, Decision.escort, Decision.orders, ← hq', hjob]
          · rw [hq, Option.some.injEq] at hq'
            simp [Errand.party, Decision.escort, Decision.orders, ← hq', hroster q hq hrole]
    · exact .setSlot hslot

theorem State.RunsTo.leavesBut {N : PermitNo → Prop} {W : List Waiting} {l : List WorkOrderNo} (h : s.RunsTo N W l t)
    (hl : ∀ m ∈ l, m ∈ x.orders) : s.LeavesBut x t where
  posture := h.changes .posture (by decide)
  door d _ := by rw [h.changes.door_eq (by decide)]
  slot k y hy _ := by rwa [h.changes.slot_eq (by decide)]
  permit n _ := by rw [h.changes.permit_eq (by decide)]
  order n hn := h.others n (mt (hl n) hn)

/-! ### What another decision found -/

/-- A decision about something else finds what it found. -/
theorem Errand.Valid.of_leavesBut {f : Errand} (hf : f.Valid s) (h : s.LeavesBut x t)
    (ha : x.apart f.party.decision = true) : f.Valid t := by
  obtain ⟨hdoor, -, hper, hord⟩ := Decision.apart_iff.1 ha
  have hper' : ∀ n ∈ f.party.decision.permits, t.permit n = s.permit n := fun n hn =>
    h.permit n fun hx => hper n hx hn
  have hord' : ∀ n ∈ f.party.decision.orders, t.workOrder n = s.workOrder n := fun n hn =>
    h.order n fun hx => hord n hx hn
  have hdoor' : ∀ d, f.party.decision.door = some d → x.door ≠ some d := fun d hd hx => hdoor d hx hd
  cases f with
  | contractor e =>
    obtain ⟨hpost, hd, hb, hp, hidle, hw, ho⟩ := hf
    have hde := h.door e.door (hdoor' _ rfl)
    refine ⟨by rwa [h.posture], by rwa [hde], by rwa [hde], (hper' _ ?_).trans hp, hidle, (hord' _ ?_).trans hw, ho⟩
    · simp [Errand.party, Decision.contractor]
    · simp [Errand.party, Decision.contractor, Decision.orders]
  | escort e =>
    obtain ⟨hpost, hx, hd, hexp, hadm, hq, hqc⟩ := hf
    refine ⟨by rwa [h.posture], h.slot _ _ hx (hd ▸ hdoor' _ rfl), hd, hexp, by rwa [h.door e.door (hdoor' _ rfl)], ?_, ?_⟩
    · rwa [hper' _ (by simp [Errand.party, Decision.escort])]
    · rwa [hper' _ (by simp [Errand.party, Decision.escort])]
  | selection e => exact (hord' _ (by simp [Errand.party, Decision.selection, Decision.orders])).trans hf

/-- A decision that is left as it is finds what it found. -/
theorem Errand.Valid.of_keeps {f : Errand} (hf : f.Valid s) (hs : s.pairingsSound)
    (h : f.party.decision.keeps f.party.room s t = true) : f.Valid t := by
  obtain ⟨hpost, -, hdoor, -, hper, hord⟩ := Decision.keeps_iff.1 h
  cases f with
  | contractor e =>
    obtain ⟨hpost', hd, hb, hp, hidle, hw, ho⟩ := hf
    obtain ⟨hde, -⟩ := State.sameDoor_iff.1 (hdoor e.door rfl)
    refine ⟨by rwa [hpost], by rwa [hde], by rwa [hde], (hper _ ?_).trans hp, hidle, (hord _ ?_).trans hw, ho⟩
    · simp [Errand.party, Decision.contractor]
    · simp [Errand.party, Decision.contractor]
  | escort e =>
    obtain ⟨hpost', hx, hd, hexp, hadm, hq, hqc⟩ := hf
    obtain ⟨hde, -, hso, hbind⟩ := State.sameDoor_iff.1 (hdoor e.door rfl)
    have hslot : s.slotOf e.door = some e.slotNo := hd ▸ hs.slotOf_eq hx
    refine ⟨by rwa [hpost], ?_, hd, hexp, by rwa [hde], ?_, ?_⟩
    · rw [hso, hslot] at hbind
      exact hbind.trans hx
    · rwa [hper _ (by simp [Errand.party, Decision.escort])]
    · rwa [hper _ (by simp [Errand.party, Decision.escort])]
  | selection e => exact (hord _ (by simp [Errand.party, Decision.selection])).trans hf

end Sys2Proof.Machine

/-! SUPPORT. The books through every row of the table, taken while decisions wait (R38): up to the request that it makes, if
it makes any, or with all that waits discarded by an ESTATE CLEAR. -/

namespace Sys2Proof.Machine

open State (changesOnly_refl)

variable {s t u : State} {N : PermitNo → Prop} {W : List Waiting} {p : Authority} {d : DoorId} {c : Credential} {i : Instr}
  {n : WorkOrderNo} {w : WorkOrder} {x : Decision} {code : Byte}

/-- What a row leaves: the books in balance, and a decision that waits with what it found, or none. -/
def State.RowSound (N : PermitNo → Prop) (W : List Waiting) (t : State) : Prop :=
  ∃ B, t.Books True N (W ++ B) ∧ (B = [] ∨ ∃ e a, B = [⟨e, a⟩] ∧ e.Ready t)

theorem State.Books.rowSound (h : s.Books True N W) : s.RowSound N W := ⟨[], by simpa using h, .inl rfl⟩

theorem State.RunsTo.rowSound {l : List WorkOrderNo} (h : s.RunsTo N W l t) : t.RowSound N W := by
  obtain ⟨B, hB, hcase⟩ := h.books
  exact ⟨B, hB, hcase.imp_right fun ⟨e, he, hv, _⟩ => ⟨_, _, he, hv, fun _ hf => hf.elim⟩⟩

theorem State.Books.waitReady {e : Errand} {a : WaitingFor} (h : s.Books True N W) (he : e.general) (hr : e.Ready s) :
    (s.wait e a).RowSound N W := by
  refine ⟨_, h.wait he, .inr ⟨e, a, rfl, ?_⟩⟩
  cases e <;> exact hr

/-! ### Commands -/

theorem State.Books.reserveReply (h : s.Books True N W) : (s.reserveReply p).Books True N W := h.setPort

theorem State.Books.carryOut {body : State → State × Answer}
    (h : (body (s.reserveReply p)).1.Books True N W) : (Machine.carryOut p code body s).Books True N W := h.makeReply

/-- A command that makes no request, taken at its port. -/
theorem State.Books.carryOutPlain {body : State → State × Answer} (h : s.Books True N W)
    (hb : Machine.plainCommand i = some body) : (Machine.carryOut p code body s).Books True N W ∨
      (s.isCleared i ∧ (Machine.carryOut p code body s).Cleared) :=
  (h.reserveReply.plainCommand hb).imp (fun hu => hu.makeReply) fun hu => ⟨hu.1, State.Books.makeReply hu.2⟩

theorem State.Books.takePlain {payload : List Byte} {body : State → State × Answer} (h : s.Books True N W)
    (hb : Machine.plainCommand i = some body) : (Machine.takeCommand p code payload body s).Books True N W ∨
      (s.isCleared i ∧ (Machine.takeCommand p code payload body s).Cleared) := by
  unfold Machine.takeCommand
  dsimp only
  split
  · split
    · exact .inl h.setPort
    · exact h.carryOutPlain hb
  · exact .inl h

theorem activateOf_workOrder {a : NumberArgs} (h : activateOf p a s = .ok (n, w)) : s.workOrder n = some w := by
  unfold activateOf at h
  split at h
  · exact nomatch h
  · split at h
    · exact nomatch h
    · rename_i v hv
      split_ifs at h
      obtain ⟨rfl, rfl⟩ := Prod.mk.inj (Except.ok.inj h)
      exact hv

/-- A selection that begins ends, or waits with its first request. -/
theorem State.Books.beginSelection {run : SelectionRun} {now : Reading} (h : s.Books True N W)
    (hw : s.workOrder n = some w) (hn : n ≠ 0) (hl : 0 ∉ run.later) :
    (s.beginSelection run now n w).1.RowSound N W := by
  unfold State.beginSelection
  rcases h.selectFrom_cases (index := 1) (left := w.options.take 7) (tested := []) (now := now) hw hn hl with
    ⟨u, hu, hub, -⟩ | ⟨u, hu, hruns⟩ <;> rw [hu]
  · exact hub.rowSound
  · exact hruns.rowSound

theorem State.Books.beginActivate {a : NumberArgs} (h : s.Books True N W) : (s.beginActivate p a).RowSound N W := by
  unfold State.beginActivate
  split
  · exact (State.Books.carryOut h.reserveReply).rowSound
  · rename_i n w ha
    exact h.reserveReply.beginSelection (activateOf_workOrder ha) (ne_zero_of_activateOf ha) (by simp [SelectionRun.later])

theorem State.Books.clock {v : Option ClockTime} (h : s.Books True N W) : ({ s with clock := v } : State).Books True N W :=
  h.of_bookless ((changesOnly_refl _ s).clock_update (by decide))

theorem State.Books.setClockTo {v : ClockTime} (h : s.Books True N W) : (s.setClockTo v).Books True N W := by
  unfold State.setClockTo
  dsimp only
  split
  · exact h.clock
  · exact h.clock.dayChange

theorem State.Books.beginSetClock {a : SetClockArgs} (h : s.Books True N W) : (s.beginSetClock p a).RowSound N W := by
  unfold State.beginSetClock
  split
  · exact (State.Books.carryOut h.reserveReply).rowSound
  · refine (State.Books.goOn h.reserveReply.setClockTo ?_).rowSound
    exact zero_notMem_turnsDue

theorem State.Books.beginCommand (h : s.Books True N W) : (s.beginCommand p code i).RowSound N W ∨
    (s.isCleared i ∧ (s.beginCommand p code i).Cleared) := by
  unfold State.beginCommand
  split
  · exact .inl h.beginSetClock
  · exact .inl h.beginActivate
  · cases hb : Machine.plainCommand i with
    | none => exact .inl (State.Books.carryOut h.reserveReply).rowSound
    | some body => exact (h.carryOutPlain hb).imp_left State.Books.rowSound

theorem State.isCleared.clearedBy (h : s.isCleared i) : s.clearedBy i = true := by
  obtain ⟨⟨a, rfl⟩, hr⟩ := h
  unfold State.clearedBy
  simpa [State.commandTaken] using s.anyRecord_eq_false.2 hr

theorem State.finishFrame_eq {ready : Bool} (h : s.finishFrame p ready = some t) : ∃ y, t = s.setPort p y := by
  unfold State.finishFrame at h
  split at h
  · exact nomatch h
  · exact ⟨_, (Option.some.inj h).symm⟩

theorem State.Books.beginFrameFinished {ready : Bool} (h : s.Books True N W) :
    (s.beginFrameFinished p ready).RowSound N W ∨
      (s.clearedBy (.frameFinished p ready) = true ∧ (s.beginFrameFinished p ready).Cleared) := by
  unfold State.beginFrameFinished
  cases ht : s.finishFrame p ready with
  | none => exact .inl h.rowSound
  | some t =>
    obtain ⟨y, rfl⟩ := State.finishFrame_eq ht
    dsimp only
    cases hf : (s.setPort p y).frameToTake p with
    | none => exact .inl (h.setPort (a := p) (x := y)).rowSound
    | some f =>
      refine (h.setPort (a := p) (x := y)).beginCommand.imp_right fun ⟨hi, hc⟩ => ⟨?_, hc⟩
      obtain ⟨⟨a, ha⟩, hr⟩ := hi
      unfold State.clearedBy
      simpa [State.commandTaken, ht, hf, ha] using s.anyRecord_eq_false.2 hr

/-! ### Events -/

theorem State.Books.advanceClock (h : s.Books True N W) : s.advanceClock.1.Books True N W := by
  have hcount : ({ s with count := s.count + 1 } : State).Books True N W :=
    h.of_bookless ((changesOnly_refl _ s).count_update (by decide))
  unfold State.advanceClock
  dsimp only
  split
  · exact hcount.clock
  · exact hcount.clock
  · exact hcount.clock
  · simpa only using hcount.clock.dayChange

theorem State.Books.beginTick (h : s.Books True N W) : s.beginTick.RowSound N W := by
  have h1 := h.advanceClock
  unfold State.beginTick
  split <;> rename_i hq <;> rw [hq] at h1
  · exact (State.Books.takeTurns (fun _ => rfl) h1 zero_notMem_turnsDue).rowSound
  · exact h1.rowSound

theorem State.Books.ne_zero_of_reached (h : s.Books True N W) (hw : s.workOrder n = some w)
    (hr : s.reached w.deadline = true) : n ≠ 0 :=
  (h.laws .roster (by simp [bookLaws])).ne_zero_of_reached hw hr rfl

theorem State.Books.beginDeadline (h : s.Books True N W) : (s.beginDeadline n).RowSound N W := by
  unfold State.beginDeadline
  split
  · exact h.rowSound
  · rename_i w hw
    split
    · rename_i hr
      exact h.beginSelection hw (h.ne_zero_of_reached hw hr.2) (by simp [SelectionRun.later])
    · exact h.rowSound

theorem State.Books.beginEnter (h : s.Books True N W) : (s.beginEnter d c).RowSound N W := by
  have h1 := h.enterStage (d := d) (c := c)
  unfold State.beginEnter
  split <;> rename_i hq <;> rw [hq] at h1
  · exact State.Books.rowSound h1
  · exact h.waitReady trivial h1
  · exact h.waitReady trivial h1

/-- An event that makes no request, other than POWER_ON. -/
theorem State.Books.event (h : s.Books True N W) (hb : Machine.plainCommand i = none) (hr : makesRequests i = false)
    (hp : i ≠ .powerOn) (ht : exec i s = .next t) : t.Books True N W := by
  cases i with
  | powerOn => exact absurd rfl hp
  | frameGapTimeout p => obtain rfl := Host.Outcome.next.inj ht; exact h.setPort
  | portBreak p => obtain rfl := Host.Outcome.next.inj ht; exact h.setPort
  | readyLineAsserted p => obtain rfl := Host.Outcome.next.inj ht; exact h.setPort
  | framingError p => obtain rfl := Host.Outcome.next.inj ht; exact h.setPort
  | badLength p n =>
    obtain rfl := Host.Outcome.next.inj ht
    split
    · exact h.setPort
    · exact h
  | passageDeadline d =>
    obtain rfl := Host.Outcome.next.inj ht
    split
    all_goals first
      | exact h
      | (split
         · exact h.closePassages
         · exact h)
  | stepDeadline k =>
    obtain rfl := Host.Outcome.next.inj ht
    split
    · exact h
    · split
      · exact h.stepTimeout ‹_›
      · exact h
  | consentDeadline k =>
    obtain rfl := Host.Outcome.next.inj ht
    split
    · exact h
    · split
      · exact h.denyPairing
      · exact h
  | checkinDeadline n => exact h.execCheckinDeadline ht
  | stayDeadline n => exact h.execStayDeadline ht
  | switchDeadline n =>
    obtain rfl := Host.Outcome.next.inj ht
    split
    · exact h
    · split
      · exact h.forceSwitch
      · exact h
  | pollTurn l =>
    obtain rfl := Host.Outcome.next.inj ht
    split
    · exact State.Books.sendNext (h.setLane fun _ _ hq => hq)
    · exact h
  | verdictSent l => exact h.verdictSent ht
  | cancelSent l =>
    obtain rfl := Host.Outcome.next.inj ht
    split
    · exact State.Books.setLane_silent (h.cutMessages rfl rfl fun _ hv => hv) nofun
    · exact h
  | pollUnanswered l =>
    obtain rfl := Host.Outcome.next.inj ht
    split
    · exact h.missPoll
    · exact h
  | presentExit d c =>
    obtain rfl := Host.Outcome.next.inj ht
    exact h.answerPresent fun _ hu => hu.takeExit
  | presentCheckin d c =>
    obtain rfl := Host.Outcome.next.inj ht
    exact h.answerPresent fun _ hu => hu.takeCheckIn
  | passage d =>
    obtain rfl := Host.Outcome.next.inj ht
    exact h.answerPoll fun _ hu => hu.takePassage
  | nothing d =>
    obtain rfl := Host.Outcome.next.inj ht
    exact h.answerPoll fun _ hu => hu
  | laneBreakEnd l =>
    obtain rfl := Host.Outcome.next.inj ht
    split
    · exact h.setLane_silent nofun
    · exact h
  | setClock p a => exact Bool.noConfusion hr
  | activate p a => exact Bool.noConfusion hr
  | presentEnter d c => exact Bool.noConfusion hr
  | selectionDeadline n => exact Bool.noConfusion hr
  | secondTick => exact Bool.noConfusion hr
  | commandFrameReceived p bytes => exact Bool.noConfusion hr
  | frameFinished p ready => exact Bool.noConfusion hr
  | _ => cases hb

/-- A row that makes no request, other than POWER_ON. -/
theorem State.Books.plainRow (h : s.Books True N W) (hr : makesRequests i = false) (hp : i ≠ .powerOn)
    (ht : exec i s = .next t) : t.Books True N W ∨ (s.isCleared i ∧ t.Cleared) := by
  cases hb : Machine.plainCommand i with
  | none => exact .inl (h.event hb hr hp ht)
  | some body =>
    have hrow : Machine.rowEffect i s = some t := by
      cases i with
      | powerOn => cases hb
      | commandFrameReceived p bytes => cases hb
      | setClock p a => exact Bool.noConfusion hr
      | activate p a => exact Bool.noConfusion hr
      | presentEnter d c => exact Bool.noConfusion hr
      | selectionDeadline n => exact Bool.noConfusion hr
      | secondTick => exact Bool.noConfusion hr
      | frameFinished p ready => exact Bool.noConfusion hr
      | _ => exact stateAfter_eq.2 ht
    rcases rowEffect_of_plainCommand hb hr hrow with rfl | ⟨p, code, payload, rfl⟩
    · exact .inl h
    · exact h.takePlain hb

/-! ### Rows taken while decisions wait -/

theorem State.Books.rowEffect (h : s.Books True N W) (ht : Machine.rowEffect i s = some t) : t.RowSound N W ∨
    (s.clearedBy i = true ∧ t.Cleared) := by
  cases hr : makesRequests i with
  | false =>
    have hp : i ≠ .powerOn := by
      rintro rfl
      exact nomatch ht
    exact (h.plainRow hr hp (exec_of_rowEffect hr ht)).imp State.Books.rowSound fun ⟨hi, hc⟩ => ⟨hi.clearedBy, hc⟩
  | true =>
    cases i with
    | setClock p a =>
      obtain rfl := Option.some.inj ht
      exact h.beginCommand.imp_right fun ⟨hi, hc⟩ => ⟨hi.clearedBy, hc⟩
    | activate p a =>
      obtain rfl := Option.some.inj ht
      exact h.beginCommand.imp_right fun ⟨hi, hc⟩ => ⟨hi.clearedBy, hc⟩
    | secondTick => obtain rfl := Option.some.inj ht; exact .inl h.beginTick
    | selectionDeadline n => obtain rfl := Option.some.inj ht; exact .inl h.beginDeadline
    | frameFinished p ready => obtain rfl := Option.some.inj ht; exact h.beginFrameFinished
    | presentEnter d c =>
      obtain rfl := Option.some.inj ht
      refine .inl ?_
      rcases s.answerPresent_cases d c fun u => u.beginEnter d c with hs | hs | hs <;> rw [hs]
      · exact h.rowSound
      · exact h.missPoll.rowSound
      · exact h.endTurn.announce.beginEnter
    | commandFrameReceived p bytes => exact nomatch ht
    | _ => exact Bool.noConfusion hr

/-- An ESTATE CLEAR that its port takes leaves the tables of power-on (R173). -/
theorem State.Books.carryOutClear {a : NoArgs} (h : s.Books True N W) (hr : ∀ j, s.record j = none) :
    (Machine.carryOut p code (Machine.judgePayload (.fields a) (Machine.estateClear .sec)) s).Cleared := by
  have hclear : Machine.estateClear .sec a (s.reserveReply p) = ((s.reserveReply p).cleared, .accepted []) := by
    have hno : (s.reserveReply p).occupancy.toList.any Option.isSome = false :=
      (s.reserveReply p).anyRecord_eq_false.2 hr
    unfold Machine.estateClear
    rw [if_neg (by simp), if_neg (by simp [hno])]
  unfold Machine.carryOut
  dsimp only [Machine.judgePayload]
  rw [hclear]
  exact State.Books.makeReply h.reserveReply.cleared

theorem State.Books.clearedRow (h : s.Books True N W) (ht : Machine.rowEffect i s = some t)
    (hc : s.clearedBy i = true) (hfree : x.leavesFree s i = true) : t.Cleared := by
  cases i with
  | estateClear p a =>
    cases a with
    | malformed bytes => exact Bool.noConfusion hc
    | fields a =>
      obtain ⟨hp, hr⟩ := Bool.and_eq_true_iff.1 hc
      obtain rfl := of_decide_eq_true hp
      have hport : s.portFree .sec = true :=
        (Bool.and_eq_true_iff.1 ((Option.all_eq_true ..).1 (Bool.and_eq_true_iff.1 hfree).1 _ rfl)).1
      obtain ⟨hbuffer, hreply⟩ := Bool.and_eq_true_iff.1 hport
      have htake : execEstateClear .sec (.fields a) s = .next t := stateAfter_eq.1 ht
      obtain rfl := Host.Outcome.next.inj htake
      unfold Machine.takeCommand
      dsimp only
      rw [if_pos (.inl (of_decide_eq_true hbuffer)), if_neg (by simp [of_decide_eq_true hreply])]
      exact h.carryOutClear (s.anyRecord_eq_false.1 ((Bool.not_eq_true' _).mp hr))
  | frameFinished p ready =>
    obtain rfl := Option.some.inj ht
    unfold State.clearedBy State.commandTaken at hc
    unfold State.beginFrameFinished
    cases hs : s.finishFrame p ready with
    | none => simp [hs] at hc
    | some u =>
      obtain ⟨y, rfl⟩ := State.finishFrame_eq hs
      cases hf : (s.setPort p y).frameToTake p with
      | none => simp [hs, hf] at hc
      | some f =>
        simp only [hs, hf, Option.bind_some, Option.map_some] at hc
        dsimp only
        split at hc
        · rename_i q a hq
          obtain ⟨hp, hr⟩ := Bool.and_eq_true_iff.1 hc
          obtain rfl := of_decide_eq_true hp
          rw [hf]
          dsimp only
          rw [Option.some.inj hq]
          exact (h.setPort (a := p) (x := y)).carryOutClear (a := a) (s.anyRecord_eq_false.1 ((Bool.not_eq_true' _).mp hr))
        · exact nomatch hc
  | _ => exact Bool.noConfusion hc

end Sys2Proof.Machine

/-! SUPPORT. The books while requests are served (R38): every decision that waits, or that is taken out of the line, finds
what it found when it began, for no two of them, and none of them and the one in hand, are about the same. -/

namespace Sys2Proof.Machine

open State (changesOnly_refl)

variable {s t u : State} {x : Decision} {M : PermitNo → Prop} {es : List Errand} {e : Errand} {kept : List Party}
  {rights : Resolution (GrantSummary × OverlaySummary)}

/-- The decisions that wait. -/
def State.errands (s : State) : List Errand := s.waiting.map Waiting.errand

/-- Two decisions are about different things. -/
def Errand.Apart (e f : Errand) : Prop := e.party.decision.apart f.party.decision = true

theorem Decision.apart_comm {x y : Decision} (h : x.apart y = true) : y.apart x = true := by
  obtain ⟨h1, h2, h3, h4⟩ := Decision.apart_iff.1 h
  exact Decision.apart_iff.2 ⟨fun d hy hx => h1 d hx hy, fun q hy hx => h2 q hx hy, fun m hy hx => h3 m hx hy,
    fun w hy hx => h4 w hx hy⟩

/-- While a command is carried out, and no decision of it is in hand, every decision is about something else (R169). -/
theorem Decision.carrying_apart (p : Option Authority) (y : Decision) : (Decision.carrying p).apart y = true :=
  Decision.apart_iff.2 ⟨nofun, nofun, by simp [Decision.carrying], by simp [Decision.carrying, Decision.orders]⟩

theorem Errand.Apart.symm {e f : Errand} (h : e.Apart f) : f.Apart e := Decision.apart_comm h

/-- The permit a decision claims is one that it is about. -/
theorem Errand.mem_permits_of_claims {n : PermitNo} (h : e.claims n) : n ∈ e.party.decision.permits := by
  cases e with
  | contractor e => simp [show n = e.permit from h, Errand.party, Decision.contractor]
  | escort e => simp [h.1, Errand.party, Decision.escort]
  | selection e => exact h.elim

/-- The permits that slots may not hold: those claimed by the decision in hand, or by one of these. -/
def claimed (M : PermitNo → Prop) (es : List Errand) (n : PermitNo) : Prop := M n ∨ ∃ e ∈ es, e.claims n

/-- The books balance, no slot holds a permit that is claimed, and the decisions find what they found, beside a decision in
hand that claims the permits of `M`. -/
structure State.Sound (x : Decision) (M : PermitNo → Prop) (es : List Errand) (s : State) : Prop where
  books : s.Books True (claimed M (es ++ s.errands)) s.waiting
  own : ∀ n, M n → n ∈ x.permits
  general : ∀ e ∈ es ++ s.errands, e.general
  valid : ∀ e ∈ es ++ s.errands, e.Valid s
  beside : ∀ e ∈ es ++ s.errands, x.apart e.party.decision = true
  apart : (es ++ s.errands).Pairwise Errand.Apart

namespace State.Sound

variable {es' : List Errand} {B : List Waiting}

/-- Every decision is still there, in another order. -/
theorem perm (h : s.Sound x M es') (hb : t.Books True (claimed M (es' ++ s.errands)) t.waiting)
    (hv : ∀ e ∈ es' ++ s.errands, e.Valid t) (hp : (es ++ t.errands).Perm (es' ++ s.errands)) : t.Sound x M es where
  books := hb.hold fun n k y hn hy => hb.unheld n k y (hn.imp_right fun ⟨e, he, hc⟩ => ⟨e, hp.mem_iff.1 he, hc⟩) hy
  own := h.own
  general e he := h.general e (hp.mem_iff.1 he)
  valid e he := hv e (hp.mem_iff.1 he)
  beside e he := h.beside e (hp.mem_iff.1 he)
  apart := (hp.pairwise_iff fun h => Errand.Apart.symm h).2 h.apart

/-- Some decisions are still there, and at most one has come behind them that is about something else. -/
theorem next (h : s.Sound x M es') (hes : (es ++ s.errands).Sublist (es' ++ s.errands))
    (hb : t.Books True (claimed M (es ++ s.errands)) (s.waiting ++ B)) (hv : ∀ e ∈ es ++ s.errands, e.Valid t)
    (hB : B = [] ∨ ∃ e a, B = [⟨e, a⟩] ∧ e.Ready t ∧ x.apart e.party.decision = true ∧
      ∀ f ∈ es ++ s.errands, f.Apart e) : t.Sound x M es := by
  have hline := hb.line
  have hwas : ∀ f ∈ es ++ s.errands, f.general ∧ x.apart f.party.decision = true := fun f hf =>
    ⟨h.general f (hes.subset hf), h.beside f (hes.subset hf)⟩
  rcases hB with rfl | ⟨e, a, rfl, ⟨hve, hce⟩, hxe, hfe⟩
  · rw [List.append_nil] at hb hline
    have herr : t.errands = s.errands := by rw [State.errands, hline]; rfl
    constructor
    · rw [herr, hline]
      exact hb
    · exact h.own
    · rw [herr]
      exact fun f hf => (hwas f hf).1
    · rwa [herr]
    · rw [herr]
      exact fun f hf => (hwas f hf).2
    · rw [herr]
      exact h.apart.sublist hes
  · have herr : es ++ t.errands = (es ++ s.errands) ++ [e] := by
      rw [State.errands, hline, List.map_append, List.append_assoc]
      rfl
    have hge : e.general := by
      have hlaw := hb.laws .roster (by simp [bookLaws])
      exact hlaw.2 ⟨e, a⟩ (by rw [hline]; simp)
    have hmem : ∀ {P : Errand → Prop}, (∀ f ∈ es ++ s.errands, P f) → P e → ∀ f ∈ es ++ t.errands, P f := by
      intro P hold hnew f hf
      rw [herr] at hf
      rcases List.mem_append.1 hf with hf | hf
      · exact hold f hf
      · exact List.mem_singleton.1 hf ▸ hnew
    refine ⟨?_, h.own, hmem (fun f hf => (hwas f hf).1) hge, hmem hv hve, hmem (fun f hf => (hwas f hf).2) hxe, ?_⟩
    · rw [hline]
      refine hb.hold fun n k y hn hy => ?_
      rcases hn with hn | ⟨f, hf, hfn⟩
      · exact hb.unheld n k y (.inl hn) hy
      · rw [herr] at hf
        rcases List.mem_append.1 hf with hf | hf
        · exact hb.unheld n k y (.inr ⟨f, hf, hfn⟩) hy
        · exact hce n (List.mem_singleton.1 hf ▸ hfn) k y hy
    · rw [herr, List.pairwise_append]
      refine ⟨h.apart.sublist hes, List.pairwise_singleton .., fun f hf g hg => ?_⟩
      exact List.mem_singleton.1 hg ▸ hfe f hf

/-- A change of other parts. -/
theorem of_bookless (h : s.Sound x M es) (hc : s.changesOnly State.Books.bookless t) : t.Sound x M es := by
  have hw : t.waiting = s.waiting := hc .waiting (by decide)
  refine h.perm (hw ▸ h.books.of_bookless hc) (fun e he => ?_) (by rw [State.errands, hw]; exact List.Perm.refl _)
  exact (h.valid e he).of_leavesBut (.of_changes (x := .carrying none) hc (by decide)) (Decision.carrying_apart ..)

/-- Decisions are taken out of the line. -/
theorem cut {l rest : List Waiting} (h : s.Sound x M []) (hw : s.waiting = l ++ rest) :
    ({ s with waiting := rest } : State).Sound x M (l.map Waiting.errand) := by
  have herr : s.errands = l.map Waiting.errand ++ ({ s with waiting := rest } : State).errands := by
    rw [State.errands, hw, List.map_append]
    rfl
  refine h.perm (h.books.cut fun v hv => ?_) h.valid ?_
  · rw [hw]
    exact List.mem_append_right _ hv
  · rw [herr]
    exact List.Perm.refl _

/-- A decision comes behind the line. -/
theorem wait {asks : WaitingFor} (h : s.Sound x M (e :: es)) : (s.wait e asks).Sound x M es := by
  refine h.perm (h.books.wait (h.general e (by simp))) (fun f hf => ?_) ?_
  · have := h.valid f hf
    cases f <;> exact this
  · show (es ++ (s.wait e asks).waiting.map Waiting.errand).Perm _
    rw [State.wait, List.map_append, ← List.append_assoc]
    exact List.perm_append_comm

/-! ### What meets a request, and decisions that go on -/

/-- A row that leaves the decisions as they are, and begins none about the same (R38, R134). -/
theorem row {i : Instr} (h : s.Sound x M es) (ht : rowEffect i s = some t) (hclear : s.clearedBy i = false)
    (hkeeps : ∀ e ∈ es ++ s.errands, e.party.decision.keeps e.party.room s t = true)
    (hbegun : ∀ z ∈ t.parties.drop s.waiting.length, x.apart z.decision = true ∧
      ∀ e ∈ es ++ s.errands, e.party.decision.apart z.decision = true) : t.Sound x M es := by
  rcases h.books.rowEffect ht with ⟨B, hB, hnew⟩ | ⟨hc, -⟩
  · have hline := hB.line
    refine h.next (List.Sublist.refl _) hB
      (fun e he => (h.valid e he).of_keeps h.books.pairings (hkeeps e he)) (hnew.imp_right ?_)
    rintro ⟨e, a, rfl, hr⟩
    have hz := hbegun e.party (by simp [State.parties, hline])
    exact ⟨e, a, rfl, hr, hz⟩
  · rw [hclear] at hc
    exact nomatch hc

/-- What a decision is about that is taken out of the line no other claims. -/
theorem not_claimed (h : s.Sound x M (e :: es)) {n : PermitNo} (hn : n ∈ e.party.decision.permits) :
    ¬ claimed M (es ++ s.errands) n := by
  rintro (hm | ⟨f, hf, hfn⟩)
  · obtain ⟨-, -, hper, -⟩ := Decision.apart_iff.1 (h.beside e (by simp))
    exact hper n (h.own n hm) hn
  · have hap : e.Apart f := (List.pairwise_cons.1 h.apart).1 f hf
    obtain ⟨-, -, hper, -⟩ := Decision.apart_iff.1 hap
    exact hper n hn (Errand.mem_permits_of_claims hfn)

/-- A decision goes on that leaves all but what it is about, and makes at most a request of a selection of its own. -/
theorem goesOn (h : s.Sound x M (e :: es))
    (hleaves : s.LeavesBut e.party.decision t)
    (hb : t.Books True (claimed M (es ++ s.errands)) (s.waiting ++ B))
    (hB : B = [] ∨ ∃ f : SelectionEntry, B = [⟨.selection f, .grant⟩] ∧ (Errand.selection f).Valid t ∧
      ∀ m ∈ f.number :: f.run.later, m ∈ e.party.decision.orders) : t.Sound x M es := by
  have hrest := List.pairwise_cons.1 h.apart
  refine h.next (List.sublist_cons_self _ _) hb (fun f hf => ?_) (hB.imp_right ?_)
  · exact (h.valid f (List.mem_cons_of_mem _ hf)).of_leavesBut hleaves (hrest.1 f hf)
  · rintro ⟨f, rfl, hv, hm⟩
    have hsub : ∀ y : Decision, y.apart e.party.decision = true →
        y.apart (Errand.selection f).party.decision = true := by
      intro y hy
      obtain ⟨-, -, -, hord⟩ := Decision.apart_iff.1 hy
      refine Decision.apart_iff.2 ⟨fun _ _ => nofun, fun _ _ => nofun, fun _ _ => ?_, fun m hmy hmf => ?_⟩
      · simp [Errand.party, Decision.selection]
      · exact hord m hmy (hm m (by simpa [Errand.party, Decision.selection, Decision.orders] using hmf))
    exact ⟨_, _, rfl, ⟨hv, fun _ hf => hf.elim⟩, hsub _ (h.beside e (by simp)),
      fun g hg => hsub _ (hrest.1 g hg).symm⟩

/-- A decision taken out of the line is ready to go on. -/
theorem ready (h : s.Sound x M (e :: es)) : e.Ready s :=
  ⟨h.valid e (by simp), fun n hn => fun k y hy => h.books.unheld n k y (.inr ⟨e, by simp, hn⟩) hy⟩

theorem resume (h : s.Sound x M (e :: es)) : (s.resume rights e).Sound x M es := by
  have hready := h.ready
  have hbooks : s.Books True (claimed M (es ++ s.errands)) s.waiting := h.books.hold fun n k y hn hy =>
    h.books.unheld n k y (hn.imp_right fun ⟨f, hf, hc⟩ => ⟨f, List.mem_cons_of_mem _ hf, hc⟩) hy
  cases e with
  | contractor e =>
    have hN := h.not_claimed (n := e.permit) (by simp [Errand.party, Decision.contractor])
    refine h.goesOn (B := []) (State.endContractor_leavesBut hready.1) ?_ (.inl rfl)
    rw [List.append_nil]
    exact hbooks.endContractor hready hN
  | escort e =>
    have hN := h.not_claimed (n := e.permit) (by simp [Errand.party, Decision.escort])
    refine h.goesOn (B := []) (State.endEscort_leavesBut hready.1 fun q hq hrole => ?_) ?_ (.inl rfl)
    · exact (h.books.permits _ q hq).1.1 hrole
    · rw [List.append_nil]
      exact hbooks.endEscort hready fun _ => hN
  | selection e =>
    have hruns := hbooks.resumeSelection (rights := rights) hready.1 (h.general _ (by simp))
    obtain ⟨B, hB, hnew⟩ := hruns.books
    have horders : ∀ m ∈ e.number :: e.run.later, m ∈ (Errand.selection e).party.decision.orders := fun m hm => by
      simpa [Errand.party, Decision.selection, Decision.orders] using hm
    exact h.goesOn (hruns.leavesBut horders) hB (hnew.imp_right fun ⟨f, hf, hv, hm⟩ =>
      ⟨f, hf, hv, fun m hm' => horders m (hm m hm')⟩)

/-- The books stand while requests are served, beside the decision of the row in hand, or with none in hand. -/
theorem keptBeside (hx : (∃ r, ⟨x, r⟩ ∈ kept) ∨ x = .carrying none) :
    KeptBeside kept (fun es s => s.Sound x M es) State.Cleared where
  row {own es s t i} h hk he ht hclear _ hkeep := by
    have hown : ∀ e ∈ es ++ s.errands, e.party ∈ own ++ s.parties := by
      intro e hmem
      rcases List.mem_append.1 hmem with hmem | hmem
      · exact List.mem_append_left _ (he e hmem)
      · obtain ⟨w, hw, rfl⟩ := List.mem_map.1 hmem
        exact List.mem_append_right _ (List.mem_map.2 ⟨w, hw, rfl⟩)
    refine h.row ht hclear (fun e hmem => (hkeep _ (hown e hmem)).1) fun z hz =>
      ⟨?_, fun e hmem => (hkeep _ (hown e hmem)).2.2 z hz⟩
    rcases hx with ⟨r, hr⟩ | rfl
    · exact (hkeep _ (List.mem_append_left _ (hk _ hr))).2.2 z hz
    · exact Decision.carrying_apart ..
  clear h ht hc hfree := foldl_keeps (h.books.clearedRow ht hc hfree) fun u w _ hu =>
    State.Books.of_bookless hu ((u.discard_changes w).mono (by decide))
  cache v h := h.of_bookless ((changesOnly_refl _ _).cache_update (by decide))
  meetings v h := h.of_bookless ((changesOnly_refl _ _).meetings_update (by decide))
  cacheCleared v h := State.Books.of_bookless h ((changesOnly_refl _ _).cache_update (by decide))
  discard {s} w h := State.Books.of_bookless h ((s.discard_changes w).mono (by decide))
  cut h hw := h.cut hw
  wait _ h := h.wait
  resume _ h _ := h.resume

end State.Sound

end Sys2Proof.Machine

/-! SUPPORT. The books through the selections of the row in hand, and through the requests that wait when it has done its
own (R38, section 7.3). -/

namespace Sys2Proof.Machine

open State (changesOnly_refl)

variable {s t : State} {x y : Decision} {M : PermitNo → Prop} {n : WorkOrderNo} {w : WorkOrder} {now : Reading}
  {p : Option Authority} {later l : List WorkOrderNo} {e : Errand}

/-! ### The requests that still wait -/

/-- One decision of the line ends, or waits on, when the row in hand has done its own. -/
def State.endOne (u : State) (v : Waiting) : State :=
  match v.asks with
  | .turn rights => u.resume rights v.errand
  | .grant | .overlay _ => u.wait v.errand v.asks

theorem State.endTurns_eq (s : State) : s.endTurns = s.waiting.foldl State.endOne { s with waiting := [] } := rfl

namespace KeptBeside

variable {I : List Errand → State → Prop} {D : State → Prop}

/-- The decisions that came behind the one in hand end, and the others wait on. -/
theorem endTurns (k : KeptBeside [] I D) (h : I [] s) : I [] s.endTurns := by
  have hall : ∀ (l : List Waiting) (u : State), I (l.map Waiting.errand) u → I [] (l.foldl State.endOne u) := by
    intro l
    induction l with
    | nil => exact fun u hu => hu
    | cons v l ih =>
      intro u hu
      refine ih _ ?_
      unfold State.endOne
      split
      · exact k.resume _ hu (by simp)
      · exact k.wait _ hu
      · exact k.wait _ hu
  rw [State.endTurns_eq]
  exact hall s.waiting _ (k.cut (l := s.waiting) (rest := []) h (List.append_nil _).symm)

section
variable (k : KeptBeside [] I D) (hD : ∀ s, D s → I [] s)
include k hD

theorem serveOne {own : List Party} {m : Meetings} (h : I [] s) : I [] (s.serveFront own [] m).1 := by
  obtain ⟨h1, h2⟩ := k.serveFront (own := own) (met := m) (by simp) h
  cases hb : (s.serveFront own [] m).2 with
  | true => exact hD _ (h1 hb)
  | false => exact h2 hb

theorem serveMet (l : List Meetings) (h : I [] s) : I [] (s.serveMet p l) := by
  induction l generalizing s with
  | nil => exact h
  | cons m rest ih =>
    unfold State.serveMet
    split
    · exact h
    · exact ih (k.serveOne hD (k.meetings _ h))

theorem serveRest (m : Nat) (h : I [] s) : I [] (s.serveRest p m) := by
  induction m generalizing s with
  | zero => exact h
  | succ m ih =>
    unfold State.serveRest
    split
    · exact h
    · exact ih (k.serveOne hD h)

theorem settle (h : I [] s) : I [] (s.settle p) := by
  unfold State.settle
  split
  · exact h
  · exact k.serveRest hD _ (k.serveMet hD _ (k.endTurns h))

end

end KeptBeside

/-! ### The decision in hand -/

/-- What is about the work orders of a list, and nothing else: the turns still to come (R77, R112). -/
def Decision.turns (l : List WorkOrderNo) : Decision := ⟨none, none, none, [], [], l⟩

namespace State.Sound

/-- A decision in hand about fewer things. -/
theorem about (h : s.Sound x (fun _ => False) []) (hd : y.door = none) (hr : y.room = none) (hp : y.permits = [])
    (ho : ∀ m ∈ y.orders, m ∈ x.orders) : s.Sound y (fun _ => False) [] where
  books := h.books
  own _ hn := hn.elim
  general := h.general
  valid := h.valid
  beside e he := by
    obtain ⟨-, -, -, hord⟩ := Decision.apart_iff.1 (h.beside e he)
    exact Decision.apart_iff.2 ⟨by simp [hd], by simp [hr], by simp [hp], fun m hm => hord m (ho m hm)⟩
  apart := h.apart

/-- With nothing waiting every decision may be in hand. -/
theorem of_idle (h : s.Books True M []) (hM : ∀ n, M n → n ∈ x.permits) : s.Sound x M [] := by
  have hno : s.errands = [] := by rw [State.errands, h.line]; rfl
  refine ⟨?_, hM, ?_, ?_, ?_, ?_⟩
  · rw [h.line]
    refine h.hold fun n k y hn hy => h.unheld n k y ?_ hy
    rcases hn with hn | ⟨e, he, -⟩
    · exact hn
    · simp [hno] at he
  all_goals simp [hno]

/-- The decision in hand ends as one that is taken out of the line. -/
theorem takeHand (h : s.Sound e.party.decision e.claims []) (hv : e.Valid s) (hg : e.general) :
    s.Sound (.carrying none) (fun _ => False) [e] where
  books := h.books.hold fun n k y hn hy => by
    refine h.books.unheld n k y ?_ hy
    rcases hn with hn | ⟨f, hf, hfn⟩
    · exact hn.elim
    · rcases List.mem_cons.1 hf with rfl | hf
      · exact .inl hfn
      · exact .inr ⟨f, hf, hfn⟩
  own _ hn := hn.elim
  general f hf := by
    rcases List.mem_cons.1 hf with rfl | hf
    · exact hg
    · exact h.general f hf
  valid f hf := by
    rcases List.mem_cons.1 hf with rfl | hf
    · exact hv
    · exact h.valid f hf
  beside _ _ := Decision.carrying_apart ..
  apart := List.pairwise_cons.2 ⟨fun f hf => h.beside f hf, h.apart⟩

/-- The requests that wait are served, and then none waits. -/
theorem settle (h : s.Sound (.carrying none) (fun _ => False) []) : (s.settle p).Books True (fun _ => False) [] := by
  have hs : (s.settle p).Sound (.carrying none) (fun _ => False) [] :=
    (State.Sound.keptBeside (.inr rfl)).settle (fun _ hu => of_idle hu.books fun _ hn => hn.elim) h
  have hb := hs.books.hold (M := fun _ => False) fun _ _ _ hn => hn.elim
  rwa [State.settle_waiting] at hb

/-! ### A selection in hand -/

/-- What the test of options comes to: with the test discarded the tables are those of power-on, and otherwise what the
selection is about is as it was. -/
def Tested (x : Decision) (s t : State) (discarded : Prop) : Prop :=
  (discarded → t.Cleared) ∧
    (¬ discarded → t.Sound x (fun _ => False) [] ∧ ∀ m ∈ x.workOrders, t.workOrder m = s.workOrder m)

theorem testOption {index : Nat} {o : WorkOption} (h : s.Sound x (fun _ => False) []) :
    Tested x s (Machine.testOption x now w index o s).1 ((Machine.testOption x now w index o s).2 = .discarded) := by
  unfold Machine.testOption
  split
  · exact ⟨nofun, fun _ => ⟨h, fun _ _ => rfl⟩⟩
  · rename_i c home _
    dsimp only
    have hs := (State.Sound.keptBeside (M := fun _ => False) (.inl ⟨home, List.mem_singleton_self _⟩)).checkRights
      (x := x) (r := home) (n := o.space) (w := w) (ow := none) (m := c.minute) h
    have hk := checkRights_keeps (x := x) (r := home) (n := o.space) (w := w) (ow := none) (m := c.minute) (s := s)
    rcases hq : Machine.checkRights x o.space home w none c.minute s with ⟨u, v | code | _⟩ <;> rw [hq] at hs hk
    · exact ⟨nofun, fun _ => ⟨hs.2 nofun, (Decision.keeps_iff.1 (hk nofun)).2.2.2.2.2⟩⟩
    · exact ⟨nofun, fun _ => ⟨hs.2 nofun, (Decision.keeps_iff.1 (hk nofun)).2.2.2.2.2⟩⟩
    · exact ⟨fun _ => hs.1 rfl, fun hne => absurd rfl hne⟩

theorem testOptions {os : List WorkOption} {index : Nat} (h : s.Sound x (fun _ => False) []) :
    Tested x s (Machine.testOptions x now w index os s).1 (.discarded ∈ (Machine.testOptions x now w index os s).2) := by
  induction os generalizing s index with
  | nil => exact ⟨by simp [Machine.testOptions], fun _ => ⟨h, fun _ _ => rfl⟩⟩
  | cons o os ih =>
    have h1 := h.testOption (now := now) (w := w) (index := index) (o := o)
    unfold Machine.testOptions
    split <;> rename_i hq <;> rw [hq] at h1
    · exact ⟨fun _ => h1.1 rfl, fun hne => absurd (by simp) hne⟩
    · rename_i hne
      obtain ⟨hs1, hkeep⟩ := h1.2 hne
      obtain ⟨h2, h3⟩ := ih (index := index + 1) hs1
      dsimp only
      refine ⟨fun hd => h2 ((List.mem_cons.1 hd).resolve_left fun he => hne he.symm), fun hd => ?_⟩
      obtain ⟨hs2, hkeep2⟩ := h3 fun hd' => hd (List.mem_cons_of_mem _ hd')
      exact ⟨hs2, fun m hm => (hkeep2 m hm).trans (hkeep m hm)⟩

/-- A selection in hand, with what follows from it (R108 to R112). -/
theorem selectWith {q : Option Authority} (h : s.Sound (.selection q n later) (fun _ => False) [])
    (hw : s.workOrder n = some w) (hn : n ≠ 0) :
    ((runSelection (.selection q n later) now w s).1.applyResult now n w
      (runSelection (.selection q n later) now w s).2).Sound (.turns later) (fun _ => False) [] := by
  obtain ⟨h1, h2⟩ := h.testOptions (now := now) (w := w) (index := 1) (os := w.options)
  unfold runSelection
  dsimp only
  split
  · rename_i hd
    exact of_idle (h1 (by simpa using hd)).books fun _ hn => hn.elim
  · rename_i hd
    obtain ⟨hs, hkeep⟩ := h2 (by simpa using hd)
    have hw' := (hkeep n (by simp [Decision.selection])).trans hw
    set u := (Machine.testOptions (.selection q n later) now w 1 w.options s).1
    have hchanges : ∀ r, u.changesOnly [.workOrders, .ports] (u.applyResult now n w r) := fun r =>
      (changesOnly_refl _ u).applyResult (by simp)
    have hleaves : ∀ r, u.LeavesBut (.selection q n later) (u.applyResult now n w r) := fun r =>
      { posture := hchanges r .posture (by decide)
        door := fun d _ => by rw [(hchanges r).door_eq (by decide)]
        slot := fun k y hy _ => by rwa [(hchanges r).slot_eq (by decide)]
        permit := fun m _ => by rw [(hchanges r).permit_eq (by decide)]
        order := fun m hm => State.applyResult_workOrder fun he => hm (by simp [he, Decision.selection, Decision.orders]) }
    refine State.Sound.about (hs.next (B := []) (List.Sublist.refl _) ?_ (fun f hf => ?_) (.inl rfl)) rfl rfl rfl
      fun m hm => by simpa [Decision.selection, Decision.orders, Decision.turns] using .inr hm
    · rw [List.append_nil]
      exact hs.books.applyResult hw' hn
    · exact (hs.valid f hf).of_leavesBut (hleaves _) (hs.beside f hf)

/-- The turns of work orders at the entry of a minute (R77, R112). -/
theorem runTurns (h : s.Sound (.turns l) (fun _ => False) []) (hl : 0 ∉ l) :
    (s.runTurns p now l).Sound (.carrying none) (fun _ => False) [] := by
  induction l generalizing s with
  | nil => exact h
  | cons n rest ih =>
    simp only [List.mem_cons, not_or] at hl
    have hn : n ≠ 0 := Ne.symm hl.1
    refine ih ?_ hl.2
    split
    · exact h.about rfl rfl rfl fun m hm => List.mem_cons_of_mem _ hm
    · rename_i s1 w ht
      obtain ⟨hb, hw, hother⟩ := h.books.turnOf hn ht
      have hc := State.turnOf_changes ht
      have hleaves : s.LeavesBut (.turns (n :: rest)) s1 :=
        { posture := hc .posture (by decide)
          door := fun d _ => by rw [hc.door_eq (by decide)]
          slot := fun k y hy _ => by rwa [hc.slot_eq (by decide)]
          permit := fun m _ => by rw [hc.permit_eq (by decide)]
          order := fun m hm => hother m fun he => hm (by simp [he, Decision.turns, Decision.orders]) }
      have hs1 : s1.Sound (.turns (n :: rest)) (fun _ => False) [] := by
        refine h.next (B := []) (List.Sublist.refl _) ?_ (fun f hf => ?_) (.inl rfl)
        · rw [List.append_nil]
          exact hb
        · exact (h.valid f hf).of_leavesBut hleaves (h.beside f hf)
      refine State.Sound.selectWith (later := rest) (hs1.about rfl rfl rfl fun m hm => ?_) hw hn
      simpa [Decision.selection, Decision.orders, Decision.turns] using hm

end State.Sound

end Sys2Proof.Machine

/-! The books of the device through every row of the table, and through a step (R30, R85, R86, R91, R113, R149). -/

namespace Sys2Proof.Machine

open State (changesOnly_refl)

variable {s t : State} {p : Authority} {d : DoorId} {c : Credential} {i : Instr} {code : Byte} {e : Errand}
  {n : WorkOrderNo} {w : WorkOrder} {now : Reading}

/-- The books balance, Lockdown is quiet, and nothing waits. -/
def State.Balanced (s : State) : Prop := s.Books True (fun _ => False) []

/-- The books balance while decisions wait, and none is in hand. -/
def State.Open (s : State) : Prop := s.Sound (.carrying none) (fun _ => False) []

theorem State.Balanced.sound {x : Decision} (h : s.Balanced) : s.Sound x (fun _ => False) [] :=
  State.Sound.of_idle h fun _ hn => hn.elim

theorem State.Balanced.isOpen (h : s.Balanced) : s.Open := h.sound

theorem State.Cleared.balanced (h : s.Cleared) : s.Balanced := h.books

theorem State.Open.settle {q : Option Authority} (h : s.Open) : (s.settle q).Balanced := State.Sound.settle h

theorem State.Balanced.setPort {x : Port} (h : s.Balanced) : (s.setPort p x).Balanced := State.Books.setPort h

theorem State.Open.makeReply {b : Bool} {r : Reply} (h : s.Open) : (s.makeReply p b r).Open :=
  State.Sound.of_bookless h ((changesOnly_refl _ s).makeReply (by decide))

/-! ### Selections of the row in hand -/

theorem State.Balanced.runSelection {q : Option Authority} (h : s.Balanced) (hw : s.workOrder n = some w) (hn : n ≠ 0) :
    ((Machine.runSelection (.selection q n []) now w s).1.applyResult now n w
      (Machine.runSelection (.selection q n []) now w s).2).Open :=
  h.sound.selectWith hw hn

theorem State.Balanced.enterMinute {q : Option Authority} (h : s.Balanced) : (s.enterMinute q).Open :=
  h.sound.runTurns zero_notMem_turnsDue

/-! ### Commands -/

theorem State.Balanced.setClock {a : SetClockArgs} (h : s.Balanced) : (Machine.setClock p a s).1.Open := by
  unfold Machine.setClock
  split
  · exact h.isOpen
  · exact State.Balanced.enterMinute (State.Books.setClockTo h)

theorem State.Balanced.activate {a : NumberArgs} (h : s.Balanced) : (Machine.activate p a s).1.Open := by
  unfold Machine.activate
  split
  · exact h.isOpen
  · rename_i n w ha
    exact h.runSelection (activateOf_workOrder ha) (ne_zero_of_activateOf ha)

theorem State.Balanced.plainCommand {body : State → State × Answer} (h : s.Balanced)
    (hb : Machine.plainCommand i = some body) : (body s).1.Balanced :=
  (State.Books.plainCommand h hb).elim id fun hc => hc.2.balanced

theorem State.Balanced.judgePayload {α : Type} {a : Payload α} {body : α → State → State × Answer} (h : s.Balanced)
    (hb : ∀ x, (body x s).1.Open) : (Machine.judgePayload a body s).1.Open := by
  cases a with
  | fields x => exact hb x
  | malformed _ => exact h.isOpen

theorem State.Balanced.commandEffect (h : s.Balanced) : (Machine.commandEffect i s).1.Open := by
  unfold Machine.commandEffect
  split
  · exact h.judgePayload fun _ => h.setClock
  · exact h.judgePayload fun _ => h.activate
  · cases hb : Machine.plainCommand i with
    | none => exact h.isOpen
    | some body => exact (h.plainCommand hb).isOpen

theorem State.Balanced.carryOut {body : State → State × Answer} (h : s.Balanced)
    (hb : ∀ u : State, u.Balanced → (body u).1.Open) : (Machine.carryOut p code body s).Open :=
  (hb _ h.setPort).makeReply

theorem State.Balanced.takeCommand {payload : List Byte} {body : State → State × Answer} (h : s.Balanced)
    (hb : ∀ u : State, u.Balanced → (body u).1.Open) : (Machine.takeCommand p code payload body s).Open := by
  unfold Machine.takeCommand
  dsimp only
  split
  · split
    · exact h.setPort.isOpen
    · exact h.carryOut hb
  · exact h.isOpen

theorem State.Balanced.takeHeld (h : s.Balanced) : (s.takeHeld p).Balanced := by
  unfold State.takeHeld
  split
  · exact (h.carryOut fun _ hu => hu.commandEffect).settle
  · exact h

/-! ### Events that make requests -/

theorem State.Balanced.tick (h : s.Balanced) : s.tick.Open := by
  have h1 : s.advanceClock.1.Balanced := State.Books.advanceClock h
  unfold State.tick
  split <;> rename_i hq <;> rw [hq] at h1
  · exact h1.enterMinute
  · exact h1.isOpen

/-- A presentation asks for its rights and goes on behind them, or is discarded with its requests (R38, R134). -/
theorem State.Balanced.goesOn {sp : SpaceNo} {ow : Option Window} {m : Nat} (h : s.Balanced) (hr : e.Ready s)
    (hg : e.general) (hdiscarded : ∀ u : State, u.resume .discarded e = u) :
    ((checkRights e.party.decision sp e.party.room w ow m s).1.resume
      (checkRights e.party.decision sp e.party.room w ow m s).2 e).Open := by
  have hs : s.Sound e.party.decision e.claims [] :=
    State.Sound.of_idle (h.hold fun n k x hn => hr.2 n hn k x) fun _ hn => Errand.mem_permits_of_claims hn
  have hrights := (State.Sound.keptBeside (M := e.claims) (.inl ⟨e.party.room, List.mem_singleton_self _⟩)).checkRights
    (n := sp) (w := w) (ow := ow) (m := m) hs
  have hkeeps := checkRights_keeps (x := e.party.decision) (r := e.party.room) (n := sp) (w := w) (ow := ow) (m := m) (s := s)
  generalize checkRights e.party.decision sp e.party.room w ow m s = res at hrights hkeeps
  by_cases hd : res.2 = .discarded
  · rw [hd, hdiscarded]
    exact (hrights.1 hd).balanced.isOpen
  · have hv : e.Valid res.1 := hr.1.of_keeps h.pairings (hkeeps hd)
    exact ((hrights.2 hd).takeHand hv hg).resume

theorem State.Balanced.takeEnter (h : s.Balanced) : (s.takeEnter d c).Open := by
  have h1 := State.Books.enterStage (d := d) (c := c) h
  unfold State.takeEnter
  split <;> rename_i hq <;> rw [hq] at h1
  · exact State.Balanced.isOpen h1
  · rename_i e
    exact State.Balanced.goesOn (e := .contractor e) h h1 trivial fun _ => rfl
  · rename_i e
    exact State.Balanced.goesOn (e := .escort e) h h1 trivial fun _ => rfl

/-! ### Rows -/

/-- POWER_ON leaves the values of power-on (R179). -/
theorem State.Balanced.powerOn (ht : execPowerOn s = .next t) : t.Balanced := by
  obtain rfl := Host.Outcome.next.inj ht
  refine (State.cleared_of_reset (fun f hf => ?_) fun _ l => ?_).balanced
  · cases f <;> first
      | rfl
      | exact absurd (by decide) hf
  · show (State.reset.lane l).phase.Quiet
    rw [reset_lane]
    nofun

/-- Every row leaves the books in balance. -/
theorem State.Balanced.exec (h : s.Balanced) (ht : Machine.exec i s = .next t) : t.Balanced := by
  by_cases hp : i = .powerOn
  · subst hp
    exact State.Balanced.powerOn ht
  · cases hr : makesRequests i with
    | false => exact (State.Books.plainRow h hr hp ht).elim id fun hc => hc.2.balanced
    | true =>
      cases i with
      | setClock p a =>
        obtain rfl := Host.Outcome.next.inj ht
        exact (h.takeCommand fun _ hu => hu.judgePayload fun _ => hu.setClock).settle
      | activate p a =>
        obtain rfl := Host.Outcome.next.inj ht
        exact (h.takeCommand fun _ hu => hu.judgePayload fun _ => hu.activate).settle
      | secondTick =>
        obtain rfl := Host.Outcome.next.inj ht
        exact h.tick.settle
      | selectionDeadline n =>
        obtain rfl := Host.Outcome.next.inj ht
        refine State.Open.settle ?_
        split
        · exact h.isOpen
        · rename_i w hw
          split
          · rename_i hd
            exact h.runSelection hw (State.Books.ne_zero_of_reached h hw hd.2)
          · exact h.isOpen
      | presentEnter d c =>
        obtain rfl := Host.Outcome.next.inj ht
        refine State.Open.settle ?_
        rcases s.answerPresent_cases d c fun u => u.takeEnter d c with hs | hs | hs <;> rw [hs]
        · exact h.isOpen
        · exact State.Balanced.isOpen (State.Books.missPoll h)
        · exact State.Balanced.takeEnter (State.Books.announce (State.Books.endTurn h))
      | commandFrameReceived p bytes =>
        obtain rfl := Host.Outcome.next.inj ht
        exact foldl_keeps h fun _ _ _ hu => hu.setPort.takeHeld
      | frameFinished p ready =>
        obtain rfl := Host.Outcome.next.inj ht
        split
        · exact h
        · rename_i t ht
          obtain ⟨y, rfl⟩ := State.finishFrame_eq ht
          exact h.setPort.takeHeld
      | _ => exact Bool.noConfusion hr

/-- Settles O59, by an invariant that says of every decision that waits what it found when it began (`State.Sound`), and
that every row, request and end of a decision keeps. -/
theorem booksStayBalanced : Obligations.BooksStayBalanced := by
  unfold Obligations.BooksStayBalanced
  intro s t hw hb hq ht
  have h : s.Balanced := State.Books.of_booksBalance hb hq hw
  suffices t.Balanced from State.Books.booksBalance this
  unfold step at ht
  split at ht
  · obtain rfl := Host.Outcome.next.inj ht
    exact h
  · rename_i c rest _
    have hpending : ({ s with pending := rest } : State).Balanced := State.Books.of_bookless h fun g hg => by
      cases g <;> first
        | rfl
        | exact absurd (by decide) hg
    exact hpending.exec ht

end Sys2Proof.Machine

/-! SUPPORT. The bounds of the device that every step keeps, each by itself (R62, R74, R88, R161, R169, R170, R174, R176):
what a write of a door or a port must respect, and that the shared operations respect it. -/

namespace Sys2Proof.Machine

open State (changesOnly_refl)

/-! ### The ports -/

/-- The bounds of R174 for one port. -/
def Port.Bounded (q : Port) : Prop := q.queue.length ≤ 32 ∧ q.routineHeld ≤ 30

/-- The order of R169 and R176 for one port. -/
def Port.Ordered (q : Port) : Prop :=
  (q.reply ≠ none → q.transmitter ≠ none) ∧ (q.buffer ≠ none → q.reply ≠ none)

/-- What a port keeps while a command of its is carried out: its buffer is free and its transmitter at work, so its reply
may be made at any time (R169). -/
def Port.Carries (q : Port) : Prop := q.buffer = none ∧ q.transmitter ≠ none

/-- What a port that was sending a frame keeps while its command is carried out: its buffer is free, and the frame is sent
still. -/
def Port.Sends (f : List Byte) (q : Port) : Prop := q.buffer = none ∧ q.transmitter = some f

theorem Port.Bounded.choose {q : Port} (h : q.Bounded) : q.choose.Bounded := q.choose_bounds h

theorem Port.Bounded.sample {q : Port} (h : q.Bounded) : q.sample.Bounded := by
  unfold Port.Bounded Port.routineHeld at *
  rwa [Port.sample_queue]

/-- A choice begins the reply that waits, or with none waiting a notice. -/
theorem Port.Ordered.choose {q : Port} (h : q.Ordered) : q.choose.Ordered := by
  unfold Port.choose
  split
  · exact h
  · rename_i ht
    have hr : q.reply = none := by_contra fun hr => h.1 hr ht
    have hb : q.buffer = none := by_contra fun hb => h.2 hb hr
    rw [hr]
    dsimp only
    split
    · simp [Port.Ordered, hb]
    · exact h

theorem Port.Carries.choose {q : Port} (h : q.Carries) : q.choose.Carries := by
  obtain ⟨f, hf⟩ := Option.ne_none_iff_exists'.1 h.2
  rwa [Port.choose_of_busy hf]

theorem Port.Sends.choose {q : Port} {f : List Byte} (h : q.Sends f) : q.choose.Sends f := by
  rwa [Port.choose_of_busy h.2]

/-- A notice that is queued keeps what a port keeps. -/
theorem Port.Ordered.queued {q : Port} (h : q.Ordered) (n : Notice) : (q.join n).sample.choose.Ordered :=
  Port.Ordered.choose (by simpa [Port.Ordered] using h)

theorem Port.Carries.queued {q : Port} (h : q.Carries) (n : Notice) : (q.join n).sample.choose.Carries :=
  Port.Carries.choose (by simpa [Port.Carries] using h)

theorem Port.Sends.queued {q : Port} {f : List Byte} (h : q.Sends f) (n : Notice) : (q.join n).sample.choose.Sends f :=
  Port.Sends.choose (by simpa [Port.Sends] using h)

/-! ### The laws -/

/-- The bounds of the device that every step keeps, each by itself; and `shrinks`, that nothing new has come into the cache
since it was `c`; and `sends`, that a port whose command is in hand still sends the frame `f`. -/
inductive DeviceLaw where
  | queues
  | settings
  | ports
  | cache
  | shrinks (c : List CacheEntry)
  | sends (p : Authority) (f : List Byte)

/-- The port whose command is in hand, for a law of such a port. -/
def DeviceLaw.held : DeviceLaw → List Authority
  | .sends p _ => [p]
  | .queues | .settings | .ports | .cache | .shrinks _ => []

/-- The port whose command a waiting decision is of, if any. -/
def Errand.port (e : Errand) : Option Authority := e.party.decision.port

/-- The ports whose commands the decisions that wait are of. -/
def State.carriers (s : State) : List Authority := s.waiting.filterMap fun w => w.errand.port

/-- A law holds of a state, while the commands of the ports `ps` are carried out. The port of `sends` is none of them. -/
def DeviceLaw.Holds (L : DeviceLaw) (ps : List Authority) (s : State) : Prop :=
  match L with
  | .queues => s.queuesBounded
  | .settings => s.settingsInRange
  | .ports => (∀ p, (s.port p).Ordered) ∧ ∀ p ∈ ps ++ s.carriers, (s.port p).Carries
  | .cache => s.cacheBounded
  | .shrinks c => s.cache.Sublist c
  | .sends p f => p ∉ ps ++ s.carriers ∧ (s.port p).Sends f

/-- The parts that the laws of the device read. -/
def deviceFields : List Field := [.cache, .clock, .sites, .doors, .ports, .timings, .waiting]

variable {L : DeviceLaw} {ps ps' : List Authority} {s t : State} {fs : List Field}

/-- A change outside the parts that the laws read keeps them. -/
theorem DeviceLaw.Holds.of_changes (h : L.Holds ps s) (hc : s.changesOnly fs t) (hf : ∀ g ∈ deviceFields, g ∉ fs) :
    L.Holds ps t := by
  have same : ∀ g ∈ deviceFields, s.same t g := fun g hg => hc g (hf g hg)
  have hcache : t.cache = s.cache := same .cache (by decide)
  have hclock : t.clock = s.clock := same .clock (by decide)
  have htimings : t.timings = s.timings := same .timings (by decide)
  have hsite : t.site = s.site := congrArg Vector.get (same .sites (by decide))
  have hdoor : t.door = s.door := by
    funext d
    simp only [State.door, show t.doors = s.doors from same .doors (by decide)]
  have hport : t.port = s.port := by
    funext p
    simp only [State.port, show t.ports = s.ports from same .ports (by decide)]
  have hwaiting : t.waiting = s.waiting := same .waiting (by decide)
  cases L with
  | queues => simpa [DeviceLaw.Holds, State.queuesBounded, hport] using h
  | settings => simpa [DeviceLaw.Holds, State.settingsInRange, hclock, htimings, hsite, hdoor] using h
  | ports => simpa [DeviceLaw.Holds, State.carriers, hport, hwaiting] using h
  | cache => simpa [DeviceLaw.Holds, State.cacheBounded, hcache] using h
  | shrinks c => simpa [DeviceLaw.Holds, hcache] using h
  | sends p f => simpa [DeviceLaw.Holds, State.carriers, hport, hwaiting] using h

/-- Fewer commands are carried out. -/
theorem DeviceLaw.Holds.mono (h : L.Holds ps s) (hps : ∀ p ∈ ps', p ∈ ps ++ s.carriers) : L.Holds ps' s := by
  cases L with
  | ports =>
    refine ⟨h.1, fun p hp => h.2 p ?_⟩
    rcases List.mem_append.1 hp with hp | hp
    · exact hps p hp
    · exact List.mem_append_right _ hp
  | sends p f =>
    refine ⟨fun hp => h.1 ?_, h.2⟩
    rcases List.mem_append.1 hp with hp | hp
    · exact hps p hp
    · exact List.mem_append_right _ hp
  | _ => exact h

theorem DeviceLaw.Holds.tail {p : Authority} (h : L.Holds (p :: ps) s) : L.Holds ps s :=
  h.mono fun _ hq => List.mem_append_left _ (List.mem_cons_of_mem _ hq)

/-! ### Writes -/

theorem DeviceLaw.Holds.setPort {a : Authority} {x : Port} (h : L.Holds ps s)
    (hb : (s.port a).Bounded → x.Bounded)
    (ho : L = .ports → (s.port a).Ordered → (a ∈ ps ++ s.carriers → (s.port a).Carries) →
      x.Ordered ∧ (a ∈ ps ++ s.carriers → x.Carries))
    (hs : a ∈ L.held → a ∉ ps ++ s.carriers → ∀ f, (s.port a).Sends f → x.Sends f) : L.Holds ps (s.setPort a x) := by
  cases L with
  | queues =>
    intro p
    rw [State.setPort_port]
    split_ifs
    · exact hb (h a)
    · exact h p
  | ports =>
    obtain ⟨hord, hcar⟩ := ho rfl (h.1 a) (h.2 a)
    refine ⟨fun p => ?_, fun p hp => ?_⟩ <;> rw [State.setPort_port] <;> split_ifs with hpa
    · exact hord
    · exact h.1 p
    · exact hcar (hpa ▸ hp)
    · exact h.2 p hp
  | sends p f =>
    refine ⟨h.1, ?_⟩
    rw [State.setPort_port]
    split_ifs with hpa
    · subst hpa
      exact hs (List.mem_singleton_self _) h.1 f h.2
    · exact h.2
  | _ => exact h

theorem DeviceLaw.Holds.setDoor {d : DoorId} {x : Door} (h : L.Holds ps s) (hx : (s.door d).misses ≤ 3 → x.misses ≤ 3) :
    L.Holds ps (s.setDoor d x) := by
  cases L with
  | settings =>
    obtain ⟨h1, h2, h3, h4⟩ := h
    refine ⟨h1, h2, h3, fun e => ?_⟩
    rw [State.setDoor_door]
    split_ifs
    · exact hx (h4 d)
    · exact h4 e
  | _ => exact h

theorem DeviceLaw.Holds.notify {a : Authority} {n : Notice} (h : L.Holds ps s) : L.Holds ps (s.notify a n) :=
  h.setPort (fun hb => Port.Bounded.choose (Port.Bounded.sample (Port.join_bounds _ n hb)))
    (fun _ ho hc => ⟨ho.queued n, fun ha => (hc ha).queued n⟩) fun _ _ _ hs => hs.queued n

theorem DeviceLaw.Holds.notifyBoth {a : Authority} {n : Notice} (h : L.Holds ps s) : L.Holds ps (s.notifyBoth a n) := by
  unfold State.notifyBoth
  dsimp only
  split
  · exact h.notify
  · exact h.notify.notify

/-- A command whose port carries it out makes its reply (R169). -/
theorem DeviceLaw.Holds.makeReply {p : Authority} {b : Bool} {r : Reply} (h : L.Holds ps s) (hp : p ∈ ps ++ s.carriers) :
    L.Holds ps (s.makeReply p b r) := by
  refine h.setPort (fun hb => by split <;> exact hb) (fun _ _ hc => ?_) fun _ hno => absurd hp hno
  obtain ⟨hbuf, htr⟩ := hc hp
  split <;> simp [Port.Ordered, Port.Carries, hbuf, htr]

/-- A port takes a command: its buffer is free, and its transmitter is the reply's (R169). What its receiver did just
before may stand in it. -/
theorem DeviceLaw.Holds.reserveReply {p : Authority} {x : Port} (h : L.Holds ps s) (hp : p ∉ L.held)
    (hx : (s.port p).Bounded → x.Bounded) : L.Holds (p :: ps) ((s.setPort p x).reserveReply p) := by
  have h1 : L.Holds ps ((s.setPort p x).reserveReply p) := by
    rw [State.reserveReply, State.setPort_setPort, State.setPort_port_self]
    exact h.setPort hx (fun _ _ _ => by simp [Port.Ordered, Port.Carries]) fun hmem => absurd hmem hp
  cases L with
  | ports =>
    refine ⟨h1.1, fun q hq => ?_⟩
    rcases List.mem_cons.1 hq with rfl | hq
    · simp [State.reserveReply, Port.Carries]
    · exact h1.2 q hq
  | sends q f =>
    refine ⟨fun hq => ?_, h1.2⟩
    rcases List.mem_cons.1 hq with rfl | hq
    · exact hp (List.mem_singleton_self _)
    · exact h1.1 hq
  | _ => exact h1

/-! ### Doors -/

theorem DeviceLaw.Holds.addVerdict {d : DoorId} {v : Verdict} (h : L.Holds ps s) : L.Holds ps (s.addVerdict d v) :=
  h.setDoor fun hm => hm

theorem DeviceLaw.Holds.notifyDenied {d : DoorId} {c : Credential} {code : DenyCode} (h : L.Holds ps s) :
    L.Holds ps (s.notifyDenied d c code) := by
  unfold State.notifyDenied
  split
  · exact h.notify
  · split
    · exact h.notify
    · exact h.notifyBoth

theorem DeviceLaw.Holds.denyPresentation {d : DoorId} {c : Credential} {code : DenyCode} (h : L.Holds ps s) :
    L.Holds ps (s.denyPresentation d c code) := h.addVerdict.notifyDenied

theorem DeviceLaw.Holds.endAdmission {d : DoorId} (h : L.Holds ps s) : L.Holds ps (s.endAdmission d) :=
  h.setDoor fun hm => hm

/-! ### Tables -/

/-- The tables, with the lanes and what else the laws of the device do not read. -/
def tableFields : List Field :=
  [.blocks, .spaces, .count, .posture, .occupancy, .workOrders, .permits, .slots, .lanes, .meetings, .pending]

/-- A change of the tables alone keeps the laws. -/
theorem DeviceLaw.Holds.of_tables (h : L.Holds ps s) (hc : s.changesOnly tableFields t) : L.Holds ps t :=
  h.of_changes hc (by decide)

theorem DeviceLaw.Holds.setSpace {n : SpaceNo} {x : SpaceRecord} (h : L.Holds ps s) : L.Holds ps (s.setSpace n x) :=
  h.of_tables ((changesOnly_refl _ s).setSpace (by decide))

theorem DeviceLaw.Holds.setWorkOrder {n : WorkOrderNo} {x : Option WorkOrder} (h : L.Holds ps s) :
    L.Holds ps (s.setWorkOrder n x) := h.of_tables ((changesOnly_refl _ s).setWorkOrder (by decide))

theorem DeviceLaw.Holds.setPermit {n : PermitNo} {x : Option Permit} (h : L.Holds ps s) : L.Holds ps (s.setPermit n x) :=
  h.of_tables ((changesOnly_refl _ s).setPermit (by decide))

theorem DeviceLaw.Holds.setRecord {k : RecordNo} {x : Option OccupancyRecord} (h : L.Holds ps s) :
    L.Holds ps (s.setRecord k x) := h.of_tables ((changesOnly_refl _ s).setRecord (by decide))

theorem DeviceLaw.Holds.setSlot {k : SlotNo} {x : Option Slot} (h : L.Holds ps s) : L.Holds ps (s.setSlot k x) :=
  h.of_tables ((changesOnly_refl _ s).setSlot (by decide))

theorem DeviceLaw.Holds.setLane {l : LaneNo} {x : Lane} (h : L.Holds ps s) : L.Holds ps (s.setLane l x) :=
  h.of_tables ((changesOnly_refl _ s).setLane (by decide))

/-! ### Rooms -/

theorem DeviceLaw.Holds.evaluateOver {k : RecordNo} (h : L.Holds ps s) : L.Holds ps (s.evaluateOver k) := by
  unfold State.evaluateOver
  split
  · exact h
  · dsimp only
    split
    · split
      · exact h
      · exact h.setRecord.notify
    · exact h.setRecord

theorem DeviceLaw.Holds.evaluateRoom {r : Designator} (h : L.Holds ps s) : L.Holds ps (s.evaluateRoom r) := by
  unfold State.evaluateRoom
  split
  · exact h
  · exact h.evaluateOver

theorem DeviceLaw.Holds.evaluateWhere {p : Designator → Bool} (h : L.Holds ps s) : L.Holds ps (s.evaluateWhere p) :=
  foldl_keeps h fun _ _ _ hu => hu.evaluateOver

/-! ### Permits that leave, enter and are freed -/

theorem DeviceLaw.Holds.freePermit {n : PermitNo} {c : ReleaseCause} (h : L.Holds ps s) :
    L.Holds ps (s.freePermit n c) := by
  unfold State.freePermit
  split
  · exact h
  · exact h.setPermit.notify

theorem DeviceLaw.Holds.freeWorkOrderIfDone {w : WorkOrderNo} (h : L.Holds ps s) :
    L.Holds ps (s.freeWorkOrderIfDone w) := by
  unfold State.freeWorkOrderIfDone
  split
  · exact h
  · split
    · split
      · exact h
      · exact DeviceLaw.Holds.setWorkOrder (foldl_keeps h fun _ _ _ hu => hu.freePermit)
    · exact h

theorem DeviceLaw.Holds.leave {n : PermitNo} {p : Permit} {r : Designator} {c : ReleaseCause} (h : L.Holds ps s) :
    L.Holds ps (s.leave n p r c) := by
  have h1 : L.Holds ps ((s.leaveRoom r n p.role.weight).changeParty p.workOrder (· - p.role.weight)) :=
    h.of_tables (((changesOnly_refl _ s).leaveRoom (by decide)).changeParty (by decide))
  unfold State.leave
  dsimp only
  refine DeviceLaw.Holds.freeWorkOrderIfDone ?_
  split
  · exact h1.freePermit
  · exact h1.setPermit

theorem DeviceLaw.Holds.releasePermit {b : Bool} {n : PermitNo} (h : L.Holds ps s) :
    L.Holds ps (State.releasePermit b s n) := by
  unfold State.releasePermit
  split
  · split
    · split
      · exact h.leave.evaluateRoom
      · exact h.leave
    · exact h
  · exact h

theorem DeviceLaw.Holds.releaseAll {b : Bool} {ns : List PermitNo} (h : L.Holds ps s) : L.Holds ps (s.releaseAll b ns) :=
  foldl_keeps h fun _ _ _ hu => hu.releasePermit

theorem DeviceLaw.Holds.exitPermit {n : PermitNo} (h : L.Holds ps s) : L.Holds ps (s.exitPermit n) := by
  unfold State.exitPermit
  split
  · split
    · exact h.leave.evaluateRoom
    · exact h
  · exact h

theorem DeviceLaw.Holds.enterPermit {d : DoorId} {x : HeldPermit} (h : L.Holds ps s) :
    L.Holds ps (s.enterPermit d x) := by
  unfold State.enterPermit
  split
  · exact h
  · split
    · rename_i room _ _ _
      have h1 : L.Holds ps (s.moveInside room x.permit) :=
        h.of_tables ((changesOnly_refl _ s).moveInside (by decide))
      dsimp only
      refine DeviceLaw.Holds.notifyBoth ?_
      split
      · exact h1.setPermit.notifyBoth
      · exact h1.setPermit
    · exact h

theorem DeviceLaw.Holds.reserve {r : Designator} {g c : Nat} {d : DoorId} {b : Bool} {ns : List PermitNo}
    (h : L.Holds ps s) : L.Holds ps (s.reserve r g c d b ns) := by
  unfold State.reserve
  split
  · exact h
  · exact foldl_keeps h.setRecord.evaluateOver fun _ _ _ hu => hu.of_tables ((changesOnly_refl _ _).makePending (by decide))

theorem DeviceLaw.Holds.openEnter {d : DoorId} {r : Designator} {g c : Nat} {b : Bool} {l : List HeldPermit}
    (h : L.Holds ps s) : L.Holds ps (s.openEnter d r g c b l) :=
  DeviceLaw.Holds.addVerdict (DeviceLaw.Holds.setDoor h.reserve fun hm => hm)

/-! ### Spaces and pairings -/

theorem DeviceLaw.Holds.applySwitch {n : SpaceNo} {c : SwitchCause} {k : Nat} (h : L.Holds ps s) :
    L.Holds ps (s.applySwitch n c k) := by
  unfold State.applySwitch
  dsimp only
  split
  · exact h
  · exact h.setSpace.notify

theorem DeviceLaw.Holds.lowerDrain {forcing : Option SpaceNo} {n : SpaceNo} (h : L.Holds ps s) :
    L.Holds ps (s.lowerDrain forcing n) := by
  unfold State.lowerDrain
  dsimp only
  split
  · exact h.setSpace.applySwitch
  · exact h.setSpace

theorem DeviceLaw.Holds.endPairing {k : SlotNo} {d : DoorId} {forcing : Option SpaceNo} (h : L.Holds ps s) :
    L.Holds ps (s.endPairing k d forcing) := by
  have h1 : L.Holds ps ((s.setSlot k none).endAdmission d) := h.setSlot.endAdmission
  unfold State.endPairing
  dsimp only
  split
  · exact h1
  · exact foldl_keeps h1 fun _ _ _ hu => hu.lowerDrain

theorem DeviceLaw.Holds.denyPairing {k : SlotNo} {c : DenyCode} {forcing : Option SpaceNo} {v : Bool}
    (h : L.Holds ps s) : L.Holds ps (s.denyPairing k c forcing v) := by
  unfold State.denyPairing
  split
  · exact h
  · dsimp only
    refine foldl_keeps ?_ fun _ _ _ hu => DeviceLaw.Holds.notifyDenied hu
    split
    · exact h.endPairing.addVerdict
    · exact h.endPairing

theorem DeviceLaw.Holds.cancelPairing {v : Bool} {d : DoorId} (h : L.Holds ps s) :
    L.Holds ps (s.cancelPairing v d) := by
  unfold State.cancelPairing
  split
  · exact h.denyPairing
  · exact h

theorem DeviceLaw.Holds.abandonHolding {n : PermitNo} (h : L.Holds ps s) : L.Holds ps (s.abandonHolding n) := by
  unfold State.abandonHolding
  split
  · exact h
  · exact h.denyPairing

theorem DeviceLaw.Holds.breakPairing {k : SlotNo} (h : L.Holds ps s) : L.Holds ps (s.breakPairing k) := h.denyPairing

theorem DeviceLaw.Holds.forceSwitch {n : SpaceNo} (h : L.Holds ps s) : L.Holds ps (s.forceSwitch n) :=
  DeviceLaw.Holds.applySwitch (foldl_keeps h fun _ _ _ hu => hu.denyPairing)

/-! ### Work orders that close -/

theorem DeviceLaw.Holds.closePermit {c : ClosingCause} {n : PermitNo} (h : L.Holds ps s) :
    L.Holds ps (State.closePermit c s n) := by
  unfold State.closePermit
  split
  · exact h
  · split
    · exact h.setPermit
    · exact h.abandonHolding.freePermit

theorem DeviceLaw.Holds.closeWorkOrder {w : WorkOrderNo} {c : ClosingCause} (h : L.Holds ps s) :
    L.Holds ps (s.closeWorkOrder w c) := by
  have h1 : L.Holds ps ((s.permitsOf w).foldl (State.closePermit c) s) := foldl_keeps h fun _ _ _ hu => hu.closePermit
  unfold State.closeWorkOrder
  dsimp only
  split
  · exact h1
  · exact h1.setWorkOrder.freeWorkOrderIfDone

theorem DeviceLaw.Holds.dayChange {day : Nat} (h : L.Holds ps s) : L.Holds ps (s.dayChange day) := by
  refine foldl_keeps h fun u n _ hu => ?_
  unfold expireOf
  split
  · split
    · exact hu
    · split
      · exact hu.closeWorkOrder
      · exact hu
    · exact hu
  · exact hu

end Sys2Proof.Machine

/-! SUPPORT. The bounds of the device through the reports of the doors, the turns of the lanes, and decisions that begin, go
on, wait or are discarded. -/

namespace Sys2Proof.Machine

open State (changesOnly_refl)

variable {L : DeviceLaw} {ps : List Authority} {s t : State}

/-! ### Reports of the doors -/

theorem DeviceLaw.Holds.enterIdle {d : DoorId} {c : Credential} (h : L.Holds ps s) :
    (s.enterIdle d c).Settles (L.Holds ps) := by
  have hdeny : ∀ code, (s.settleDeny d c code).Settles (L.Holds ps) := fun _ => h.denyPresentation
  unfold State.enterIdle State.enterWithPermit
  repeat' split
  all_goals first
    | exact hdeny _
    | exact trivial

theorem DeviceLaw.Holds.escortStep {d : DoorId} {k : SlotNo} {x : Slot} {r : Designator} {v : DecisionValues}
    {c : Credential} {n : PermitNo} {p : Permit} (h : L.Holds ps s) :
    (s.escortStep d k x r v c n p).Settles (L.Holds ps) := by
  have hdeny : ∀ code, (s.settleDeny d c code).Settles (L.Holds ps) := fun _ => h.denyPresentation
  unfold State.escortStep
  repeat' split
  all_goals first
    | exact hdeny _
    | exact trivial

theorem DeviceLaw.Holds.contractorStep {d : DoorId} {k : SlotNo} {x : Slot} {c : Credential} (h : L.Holds ps s) :
    L.Holds ps (s.contractorStep d k x c) := by
  unfold State.contractorStep
  split
  · exact h.denyPresentation
  · exact h.setSlot

theorem DeviceLaw.Holds.enterPairingDoor {d : DoorId} {v : DecisionValues} {c : Credential} (h : L.Holds ps s) :
    (s.enterPairingDoor d v c).Settles (L.Holds ps) := by
  have hbreak : ∀ k, ((s.breakPairing k).settleDeny d c .pairingBroken).Settles (L.Holds ps) :=
    fun _ => h.breakPairing.denyPresentation
  have hdeny : ∀ code, (s.settleDeny d c code).Settles (L.Holds ps) := fun _ => h.denyPresentation
  unfold State.enterPairingDoor
  split
  · split
    · exact h
    · split
      · split
        · exact h.escortStep
        · exact hbreak _
      · split
        · exact h.contractorStep
        · exact hbreak _
      · split
        · split
          · split
            · exact h.escortStep
            · exact hbreak _
          · exact hbreak _
        · exact hbreak _
      · exact hdeny _
  · exact hdeny _

theorem DeviceLaw.Holds.enterStage {d : DoorId} {c : Credential} (h : L.Holds ps s) :
    (s.enterStage d c).Settles (L.Holds ps) := by
  unfold State.enterStage
  split
  · exact h.enterIdle
  · exact h.enterPairingDoor
  all_goals exact h.denyPresentation

theorem DeviceLaw.Holds.openExit {d : DoorId} {c : Credential} {x : Option PermitNo} {m : OpenMark}
    (h : L.Holds ps s) : L.Holds ps (s.openExit d c x m) :=
  DeviceLaw.Holds.addVerdict (h.setDoor fun hm => hm)

theorem DeviceLaw.Holds.exitIdle {d : DoorId} {b : Binding} {c : Credential} (h : L.Holds ps s) :
    L.Holds ps (s.exitIdle d b c) := by
  unfold State.exitIdle
  split
  · exact DeviceLaw.Holds.openExit (foldl_keeps h fun _ _ _ hu => hu.endAdmission)
  · exact h.openExit.notify

theorem DeviceLaw.Holds.exitBusy {d : DoorId} {b : Binding} {c : Credential} (h : L.Holds ps s) :
    L.Holds ps (s.exitBusy d b c) := h.addVerdict.notify

theorem DeviceLaw.Holds.takeExit {d : DoorId} {c : Credential} (h : L.Holds ps s) : L.Holds ps (s.takeExit d c) := by
  unfold State.takeExit
  split
  · exact h.denyPresentation
  · split
    · exact h.exitIdle
    · split
      · exact h.breakPairing.exitIdle
      · exact h.exitBusy
    · split
      · exact h.addVerdict
      · exact h.exitBusy
    all_goals exact h.exitBusy

theorem DeviceLaw.Holds.judgeCheckIn {d : DoorId} {c : Credential} (h : L.Holds ps s) :
    L.Holds ps (s.judgeCheckIn d c) := by
  unfold State.judgeCheckIn
  repeat' split
  all_goals first
    | exact h.denyPresentation
    | exact DeviceLaw.Holds.notifyBoth (DeviceLaw.Holds.setPermit h.addVerdict)

theorem DeviceLaw.Holds.takeCheckIn {d : DoorId} {c : Credential} (h : L.Holds ps s) :
    L.Holds ps (s.takeCheckIn d c) := by
  unfold State.takeCheckIn
  split
  · split
    · exact h.breakPairing.denyPresentation
    · exact h.denyPresentation
  all_goals exact h.judgeCheckIn

theorem DeviceLaw.Holds.passExit {d : DoorId} {n : PermitNo} (h : L.Holds ps s) : L.Holds ps (s.passExit d n) := by
  unfold State.passExit
  split
  · split
    · exact h.notifyBoth.exitPermit
    · exact h
  · exact h

theorem DeviceLaw.Holds.takePassage {d : DoorId} (h : L.Holds ps s) : L.Holds ps (s.takePassage d) := by
  unfold State.takePassage
  split
  · exact DeviceLaw.Holds.endAdmission (foldl_keeps h fun _ _ _ hu => hu.enterPermit)
  · exact h.passExit.endAdmission
  · exact h.endAdmission
  · exact h.notify

theorem DeviceLaw.Holds.closePassages {b : Bool} {ds : List DoorId} (h : L.Holds ps s) :
    L.Holds ps (s.closePassages b ds) := by
  refine foldl_keeps h.releaseAll fun u _ _ hu => ?_
  unfold State.endPassage
  split
  · exact hu.endAdmission
  · exact hu

theorem DeviceLaw.Holds.lockDoors (h : L.Holds ps s) : L.Holds ps s.lockDoors := by
  refine foldl_keeps (foldl_keeps (foldl_keeps h fun _ _ _ hu => hu.setDoor fun hm => hm) fun u e _ hu => ?_)
    fun u _ _ hu => ?_
  · unfold State.endForLockdown
    split
    · split
      · exact hu.denyPairing
      · exact hu
    · exact hu.releasePermit
  · unfold State.endEntry
    split
    · exact hu.endAdmission
    · exact hu

/-! ### Turns of the lanes -/

/-- A door that fails has its miss count at 3 (R161, R163). -/
theorem DeviceLaw.Holds.failDoor {d : DoorId} (h : L.Holds ps s) : L.Holds ps (s.failDoor d) := by
  have h1 : L.Holds ps (((s.setDoor d { s.door d with presence := .failed, misses := 3 }).notify .sec
      (.doorFailed d (s.door d).binding)).cancelPairing true d) :=
    DeviceLaw.Holds.cancelPairing (DeviceLaw.Holds.notify (h.setDoor fun _ => le_refl 3))
  unfold State.failDoor
  dsimp only
  split
  · exact DeviceLaw.Holds.closePassages (DeviceLaw.Holds.setDoor h1 fun hm => hm)
  · exact h1

/-- Below the third miss the count rises by one (R163). -/
theorem DeviceLaw.Holds.missPoll {l : LaneNo} (h : L.Holds ps s) : L.Holds ps (s.missPoll l) := by
  have h1 : L.Holds ps (s.endTurn l) := h.setLane
  unfold State.missPoll
  dsimp only
  split
  · exact h1
  · exact h1
  · split
    · rename_i hm
      exact h1.setDoor fun _ => hm.le
    · exact h1.failDoor

theorem DeviceLaw.Holds.announce {d : DoorId} (h : L.Holds ps s) : L.Holds ps (s.announce d) := by
  have h1 : L.Holds ps (s.setDoor d { s.door d with presence := .ready, misses := 0 }) := h.setDoor fun _ => Nat.zero_le 3
  unfold State.announce
  dsimp only
  split
  · exact h1
  · exact h1.notify
  · exact h1.notify

theorem DeviceLaw.Holds.answerPoll {d : DoorId} {report : State → State} (h : L.Holds ps s)
    (hr : ∀ u, L.Holds ps u → L.Holds ps (report u)) : L.Holds ps (s.answerPoll d report) := by
  unfold State.answerPoll
  split
  · split
    · exact hr _ (DeviceLaw.Holds.announce h.setLane)
    · exact h.missPoll
  · exact h

theorem DeviceLaw.Holds.answerPresent {d : DoorId} {c : Credential} {report : State → State} (h : L.Holds ps s)
    (hr : ∀ u, L.Holds ps u → L.Holds ps (report u)) : L.Holds ps (s.answerPresent d c report) := by
  unfold State.answerPresent
  split
  · split
    · exact h.missPoll
    · exact h
  · exact h.answerPoll hr

theorem DeviceLaw.Holds.sendNext {l : LaneNo} (h : L.Holds ps s) : L.Holds ps (s.sendNext l) :=
  h.of_tables ((changesOnly_refl _ s).sendNext (by decide))

theorem DeviceLaw.Holds.changePosture {p : Posture} (h : L.Holds ps s) : L.Holds ps (s.changePosture p) := by
  have h1 : L.Holds ps { s with posture := p } := h.of_tables ((changesOnly_refl _ s).posture_update (by decide))
  unfold State.changePosture
  dsimp only
  refine DeviceLaw.Holds.evaluateWhere ?_
  split
  · exact foldl_keeps h1.lockDoors fun u _ _ hu =>
      hu.of_tables ((changesOnly_refl _ u).withdrawFrame (by decide))
  · exact h1

/-- A lane reset leaves the doors of the lane with miss count 0 (R165). -/
theorem DeviceLaw.Holds.resetLaneTo {l : LaneNo} (h : L.Holds ps s) : L.Holds ps (s.resetLaneTo l) := by
  refine DeviceLaw.Holds.setLane (foldl_keeps (foldl_keeps (DeviceLaw.Holds.closePassages ?_) ?_) ?_)
  · exact foldl_keeps h fun _ _ _ hu => hu.setDoor fun hm => hm
  · exact fun _ _ _ hu => hu.cancelPairing
  · exact fun _ _ _ hu => hu.setDoor fun _ => Nat.zero_le 3

/-! ### Decisions once their requests are answered -/

theorem DeviceLaw.Holds.enterPairing {k : Nat} {d : DoorId} {c : Credential} {n : PermitNo} {v : DecisionValues}
    (h : L.Holds ps s) : L.Holds ps (s.enterPairing k d c n v) := by
  unfold State.enterPairing
  split
  · exact h.denyPresentation
  · exact foldl_keeps (DeviceLaw.Holds.setDoor h.setSlot fun hm => hm) fun _ _ _ hu => hu.setSpace

theorem DeviceLaw.Holds.endContractor {e : ContractorEntry} {rights : Resolution (GrantSummary × OverlaySummary)}
    (h : L.Holds ps s) : L.Holds ps (s.endContractor e rights) := by
  unfold State.endContractor
  split
  · exact h
  · exact h.denyPresentation
  · unfold State.enterWithRights
    dsimp only
    split
    · split
      · exact h.denyPresentation
      · exact h.openEnter
    · exact h.enterPairing

theorem DeviceLaw.Holds.endEscort {e : EscortEntry} {rights : Resolution (GrantSummary × OverlaySummary)}
    (h : L.Holds ps s) : L.Holds ps (s.endEscort e rights) := by
  unfold State.endEscort
  split
  · exact h
  · exact h.denyPresentation
  · dsimp only
    split
    · unfold State.completePairing
      split
      · exact h.setSlot.denyPairing
      · exact h.endPairing.openEnter
    · exact h.setSlot

theorem DeviceLaw.Holds.applyResult {now : Reading} {n : WorkOrderNo} {w : WorkOrder} {r : SelectionResult}
    (h : L.Holds ps s) : L.Holds ps (s.applyResult now n w r) := by
  unfold State.applyResult
  split
  · unfold State.applySelection
    dsimp only
    refine DeviceLaw.Holds.notify ?_
    split
    · exact h.setWorkOrder.notify
    · exact h.setWorkOrder
  · split
    · exact h.setWorkOrder.notify
    · exact h
  · exact h

/-! ### Decisions that wait -/

/-- A decision comes behind those that wait, where its port carries out its command. -/
theorem DeviceLaw.Holds.wait {e : Errand} {asks : WaitingFor} (h : L.Holds ps s) (hp : ∀ p ∈ e.port, p ∈ ps) :
    L.Holds ps (s.wait e asks) := by
  cases L with
  | ports =>
    refine ⟨h.1, fun p hp' => h.2 p ?_⟩
    simp only [State.carriers, State.wait, List.filterMap_append, List.mem_append, List.filterMap_cons,
      List.filterMap_nil] at hp' ⊢
    rcases hp' with hp' | hp' | hp'
    · exact .inl hp'
    · exact .inr hp'
    · refine .inl (hp p ?_)
      split at hp'
      · exact nomatch hp'
      · rename_i q hq
        exact List.mem_singleton.1 hp' ▸ hq
  | sends p f =>
    refine ⟨fun hp' => h.1 ?_, h.2⟩
    simp only [State.carriers, State.wait, List.filterMap_append, List.mem_append, List.filterMap_cons,
      List.filterMap_nil] at hp' ⊢
    rcases hp' with hp' | hp' | hp'
    · exact .inl hp'
    · exact .inr hp'
    · refine .inl (hp p ?_)
      split at hp'
      · exact nomatch hp'
      · rename_i q hq
        exact List.mem_singleton.1 hp' ▸ hq
  | _ => exact h

/-- Decisions are taken out of the line, while their commands are still carried out. -/
theorem DeviceLaw.Holds.cut {l rest : List Waiting} (h : L.Holds ps s) (hw : s.waiting = l ++ rest) :
    L.Holds (l.filterMap (fun w => w.errand.port) ++ ps) { s with waiting := rest } := by
  cases L with
  | ports =>
    refine ⟨h.1, fun p hp => h.2 p ?_⟩
    simp only [State.carriers, hw, List.filterMap_append, List.mem_append] at hp ⊢
    tauto
  | sends p f =>
    refine ⟨fun hp => h.1 ?_, h.2⟩
    simp only [State.carriers, hw, List.filterMap_append, List.mem_append] at hp ⊢
    tauto
  | _ => exact h

/-- With no decision waiting any more, the commands of the line are carried out still. -/
theorem DeviceLaw.Holds.clear (h : L.Holds ps s) : L.Holds (s.carriers ++ ps) { s with waiting := [] } :=
  h.cut (l := s.waiting) (List.append_nil _).symm

section
variable {now : Reading} {n : WorkOrderNo} {w : WorkOrder}

theorem DeviceLaw.Holds.selectFrom {run : SelectionRun} {index : Nat} {left : List WorkOption}
    {tested : List (Resolution Candidate)} (h : L.Holds ps s) (hp : ∀ p ∈ run.port, p ∈ ps) :
    L.Holds ps (s.selectFrom run now n w index left tested).1 := by
  unfold State.selectFrom
  split
  · exact h.wait hp
  · unfold State.endSelection
    dsimp only
    split
    · exact h.applyResult.makeReply (List.mem_append_left _ (hp _ rfl))
    all_goals exact h.applyResult

theorem DeviceLaw.Holds.turnOf {b : Bool} (h : L.Holds ps s) (ht : s.turnOf b n = some (t, w)) : L.Holds ps t := by
  unfold State.turnOf at ht
  split at ht
  · dsimp only at ht
    split_ifs at ht
    · simp only [Option.some.injEq, Prod.mk.injEq] at ht
      exact ht.1 ▸ h.setWorkOrder
    · simp only [Option.some.injEq, Prod.mk.injEq] at ht
      exact ht.1 ▸ h
  · exact nomatch ht

theorem DeviceLaw.Holds.takeTurns {b : Bool} {run : List WorkOrderNo → SelectionRun} {l : List WorkOrderNo}
    (h : L.Holds ps s) (hp : ∀ rest, ∀ p ∈ (run rest).port, p ∈ ps) : L.Holds ps (s.takeTurns b run now l) := by
  induction l generalizing s with
  | nil => exact h
  | cons n rest ih =>
    unfold State.takeTurns
    split
    · exact ih h
    · rename_i s1 w ht
      have h2 : L.Holds ps (s1.beginSelection (run rest) now n w).1 := (h.turnOf ht).selectFrom (hp rest)
      split <;> rename_i hq <;> rw [hq] at h2
      · exact ih h2
      · exact h2

theorem DeviceLaw.Holds.goOn {run : SelectionRun} (h : L.Holds ps s) (hp : ∀ p ∈ run.port, p ∈ ps) :
    L.Holds ps (s.goOn now run) := by
  cases run with
  | activate p b => exact h
  | deadline => exact h
  | minute rest => exact h.takeTurns fun _ _ hq => nomatch hq
  | clockSet b a rest =>
    have h1 : L.Holds ps (s.takeTurns true (.clockSet b a) now rest) := h.takeTurns fun _ => hp
    unfold State.goOn
    dsimp only
    split
    · exact h1.makeReply (List.mem_append_left _ (hp _ rfl))
    · exact h1

end

theorem DeviceLaw.Holds.resume {e : Errand} {rights : Resolution (GrantSummary × OverlaySummary)} (h : L.Holds ps s)
    (hp : ∀ p ∈ e.port, p ∈ ps) : L.Holds ps (s.resume rights e) := by
  cases e with
  | contractor e => exact h.endContractor
  | escort e => exact h.endEscort
  | selection e =>
    have h1 := h.selectFrom (run := e.run) (now := e.now) (n := e.number) (w := e.workOrder) (index := e.index + 1)
      (left := e.left) (tested := e.tested ++ [s.optionResult e.index e.option e.home e.time rights]) hp
    unfold State.resume
    dsimp only
    split <;> rename_i hq <;> rw [hq] at h1
    · exact h1.goOn hp
    · exact h1

theorem DeviceLaw.Holds.discard {w : Waiting} (h : L.Holds ps s) (hp : ∀ p ∈ w.errand.port, p ∈ ps) :
    L.Holds ps (s.discard w) := by
  unfold State.discard
  split
  · exact h
  · exact h
  · rename_i e he
    rw [he, show (Errand.selection e).port = e.run.port from rfl] at hp
    split <;> rename_i hr
    · exact h.makeReply (List.mem_append_left _ (hp _ (by rw [hr]; rfl)))
    · exact h.makeReply (List.mem_append_left _ (hp _ (by rw [hr]; rfl)))
    · exact h
    · exact h

end Sys2Proof.Machine

/-! SUPPORT. The bounds of the device through the commands, and through every row of the opcode table taken while decisions
wait. -/

namespace Sys2Proof.Machine

open State (changesOnly_refl)

variable {L : DeviceLaw} {ps : List Authority} {s t : State} {p : Authority} {i : Instr}

/-! ### The clock and the sites -/

/-- A time in the ranges of R74. -/
def ClockTime.InRange (c : ClockTime) : Prop := c.day ≤ 65535 ∧ c.minute ≤ 1439 ∧ c.second ≤ 59

theorem DeviceLaw.Holds.setClock_update {v : Option ClockTime} (h : L.Holds ps s)
    (hv : s.settingsInRange → ∀ c, v = some c → c.InRange) : L.Holds ps { s with clock := v } := by
  cases L with
  | settings =>
    obtain ⟨h1, h2, h3, h4⟩ := h
    exact ⟨hv ⟨h1, h2, h3, h4⟩, h2, h3, h4⟩
  | _ => exact h

theorem DeviceLaw.Holds.setSite {n : SiteNo} {x : SiteRecord} (h : L.Holds ps s) (hx : x.extra ≤ 127 ∧ x.forced ≤ 63) :
    L.Holds ps (s.setSite n x) := by
  cases L with
  | settings =>
    obtain ⟨h1, h2, h3, h4⟩ := h
    refine ⟨h1, h2, fun m => ?_, h4⟩
    rw [State.setSite_site]
    split_ifs
    · exact hx
    · exact h3 m
  | _ => exact h

/-- The clock stays in its ranges as it advances (R74, R75). -/
theorem DeviceLaw.Holds.advanceClock (h : L.Holds ps s) : L.Holds ps s.advanceClock.1 := by
  have h0 : L.Holds ps { s with count := s.count + 1 } := h.of_tables ((changesOnly_refl _ s).count_update (by decide))
  have h1 : ∀ v, (s.settingsInRange → ∀ c, v = some c → c.InRange) →
      L.Holds ps { s with count := s.count + 1, clock := v } := fun v hv => h0.setClock_update hv
  unfold State.advanceClock
  dsimp only
  split <;> rename_i ha <;> unfold advance at ha
  · exact h1 _ fun _ _ hc => nomatch hc
  · refine h1 _ fun hs c hc => ?_
    obtain rfl := Option.some.inj hc
    split at ha
    · exact nomatch ha
    · rename_i t ht
      obtain ⟨h2, h3, h4⟩ := hs.1 t ht
      split_ifs at ha with hsec
      obtain rfl := ClockAdvance.second.inj ha
      exact ⟨h2, h3, by show t.second + 1 ≤ 59; omega⟩
  · refine h1 _ fun hs c hc => ?_
    obtain rfl := Option.some.inj hc
    split at ha
    · exact nomatch ha
    · rename_i t ht
      obtain ⟨h2, h3, h4⟩ := hs.1 t ht
      split_ifs at ha with hsec hmin
      obtain rfl := ClockAdvance.minute.inj ha
      exact ⟨h2, by show t.minute + 1 ≤ 1439; omega, Nat.zero_le _⟩
  · dsimp only
    refine DeviceLaw.Holds.dayChange (h1 _ fun hs c hc => ?_)
    obtain rfl := Option.some.inj hc
    split at ha
    · exact nomatch ha
    · rename_i t ht
      split_ifs at ha with hsec hmin hday
      obtain rfl := ClockAdvance.day.inj ha
      exact ⟨by show t.day + 1 ≤ 65535; omega, Nat.zero_le _, Nat.zero_le _⟩

theorem DeviceLaw.Holds.setClockTo {c : ClockTime} (h : L.Holds ps s) (hc : c.InRange) : L.Holds ps (s.setClockTo c) := by
  have h1 : L.Holds ps { s with clock := some c } := h.setClock_update fun _ _ he => Option.some.inj he ▸ hc
  unfold State.setClockTo
  dsimp only
  split
  · exact h1
  · exact h1.dayChange

/-- A time that SET CLOCK accepts is in range (R76). -/
theorem inRange_of_setClockOf {a : SetClockArgs} {c : ClockTime} (h : setClockOf p a = .ok c) : c.InRange := by
  unfold setClockOf at h
  split_ifs at h with hp hr
  obtain rfl := Except.ok.inj h
  exact ⟨Nat.le_of_lt_succ a.day.isLt, by show a.minute.toNat ≤ 1439; omega, by show a.second.toNat ≤ 59; omega⟩

/-! ### Commands that make no request -/

theorem DeviceLaw.Holds.writeBlock {a : WriteBlockArgs} (h : L.Holds ps s) : L.Holds ps (Machine.writeBlock p a s).1 :=
  h.of_tables ((changesOnly_refl _ s).writeBlock (by decide))

theorem clamp_bounds {low high n : Nat} (h : low ≤ high) : low ≤ clamp low high n ∧ clamp low high n ≤ high := by
  unfold clamp
  omega

theorem DeviceLaw.Holds.setTimings {a : SetTimingsArgs} (h : L.Holds ps s) : L.Holds ps (Machine.setTimings p a s).1 := by
  unfold Machine.setTimings
  split
  · exact h
  · cases L with
    | settings =>
      obtain ⟨h1, -, h3, h4⟩ := h
      obtain ⟨hw1, hw2⟩ := clamp_bounds (low := 5) (high := 60) (n := a.pairingWindow.toNat) (by decide)
      obtain ⟨hp1, hp2⟩ := clamp_bounds (low := 5) (high := 30) (n := a.passageTime.toNat) (by decide)
      obtain ⟨hc1, hc2⟩ := clamp_bounds (low := 15) (high := 120) (n := a.consentWait.toNat) (by decide)
      exact ⟨h1, ⟨hw1, hw2, hp1, hp2, hc1, hc2⟩, h3, h4⟩
    | _ => exact h

theorem DeviceLaw.Holds.setSiteAllowance {a : SetSiteAllowanceArgs} (h : L.Holds ps s) :
    L.Holds ps (Machine.setSiteAllowance p a s).1 := by
  unfold Machine.setSiteAllowance
  split
  · exact h
  · split
    · exact h
    · exact DeviceLaw.Holds.evaluateWhere (h.setSite ⟨Nat.min_le_right .., Nat.min_le_right ..⟩)

theorem DeviceLaw.Holds.purge {a : PurgeArgs} (h : L.Holds ps s) : L.Holds ps (Machine.purge p a s).1 := by
  unfold Machine.purge
  split
  · exact h
  · split
    · exact h
    · cases L with
      | cache => exact ⟨(List.length_filter_le ..).trans h.1, h.2.filter _⟩
      | shrinks c => exact List.filter_sublist.trans h
      | _ => exact h

theorem State.cleared_port (s : State) (p : Authority) : s.cleared.port p = (s.port p).emptied := by
  cases p <;> rfl

/-- An ESTATE CLEAR empties the queues and the cache, and leaves the command of each port to be answered (R173). -/
theorem DeviceLaw.Holds.cleared (h : L.Holds ps s) : L.Holds ps s.cleared := by
  cases L with
  | queues =>
    intro p
    rw [State.cleared_port]
    exact ⟨Nat.zero_le _, Nat.zero_le _⟩
  | settings =>
    obtain ⟨h1, h2, -, -⟩ := h
    refine ⟨h1, h2, fun n => ?_, fun d => ?_⟩
    · rw [show s.cleared.site n = State.reset.site n from rfl]
      simp
    · rw [show s.cleared.door d = State.reset.door d from rfl]
      simp [Door.initial]
  | ports =>
    refine ⟨fun q => ?_, fun q hq => ?_⟩ <;> rw [State.cleared_port]
    · exact h.1 q
    · refine h.2 q (List.mem_append_left _ ?_)
      simpa [State.carriers, State.cleared] using hq
  | cache => exact ⟨Nat.zero_le _, List.Pairwise.nil⟩
  | shrinks c => exact List.nil_sublist _
  | sends q f =>
    refine ⟨fun hq => h.1 (List.mem_append_left _ ?_), ?_⟩
    · simpa [State.carriers, State.cleared] using hq
    · rw [State.cleared_port]
      exact h.2

theorem DeviceLaw.Holds.estateClear {a : NoArgs} (h : L.Holds ps s) : L.Holds ps (Machine.estateClear p a s).1 := by
  unfold Machine.estateClear
  split
  · exact h
  · split
    · exact h
    · exact h.cleared

theorem DeviceLaw.Holds.withdraw {a : NumberArgs} (h : L.Holds ps s) : L.Holds ps (Machine.withdraw p a s).1 := by
  unfold Machine.withdraw
  repeat' split
  all_goals first
    | exact h
    | exact h.closeWorkOrder

theorem DeviceLaw.Holds.revoke {a : NumberArgs} (h : L.Holds ps s) : L.Holds ps (Machine.revoke p a s).1 := by
  unfold Machine.revoke
  dsimp only
  split
  · exact h
  · split
    · exact h
    · unfold State.revokePermit
      dsimp only
      split
      · exact h.setPermit
      · split
        · exact h.abandonHolding.setPermit
        · exact h.abandonHolding.freePermit

theorem DeviceLaw.Holds.forceExit {a : NumberArgs} (h : L.Holds ps s) : L.Holds ps (Machine.forceExit p a s).1 := by
  unfold Machine.forceExit
  split
  · exact h
  · dsimp only
    split
    · exact h
    · split
      · refine DeviceLaw.Holds.exitPermit (DeviceLaw.Holds.notifyBoth (foldl_keeps h fun u d _ hu => ?_))
        unfold dropExitHold
        dsimp only
        split
        · split
          · exact hu.setDoor fun hm => hm
          · exact hu
        · exact hu
      all_goals exact h

theorem DeviceLaw.Holds.bindDoor {a : BindDoorArgs} (h : L.Holds ps s) : L.Holds ps (Machine.bindDoor p a s).1 := by
  unfold Machine.bindDoor
  split
  · exact h
  · split
    · dsimp only
      split
      · exact h
      · exact h.setDoor fun hm => hm
    · exact h

theorem DeviceLaw.Holds.remoteConsent {a : RemoteConsentArgs} (h : L.Holds ps s) :
    L.Holds ps (Machine.remoteConsent p a s).1 := by
  unfold Machine.remoteConsent
  split
  · exact h
  · split
    · exact h
    · split
      · exact h
      · split
        · dsimp only
          split
          · unfold State.grantConsent
            split
            · exact h.denyPairing
            · exact h.endPairing.openEnter
          · exact h.denyPairing
        · exact h

theorem DeviceLaw.Holds.stageSpace {a : StageSpaceArgs} (h : L.Holds ps s) : L.Holds ps (Machine.stageSpace p a s).1 := by
  unfold Machine.stageSpace
  split
  · split
    · exact h
    · split
      · exact h
      · split
        · exact h
        · split
          · exact h
          · dsimp only
            split
            · exact h.setSpace.applySwitch
            · exact h.setSpace
  · exact h

theorem DeviceLaw.Holds.resetLane {a : NumberArgs} (h : L.Holds ps s) : L.Holds ps (Machine.resetLane p a s).1 := by
  unfold Machine.resetLane
  split
  · exact h
  · split
    · exact h
    · exact h.resetLaneTo

theorem DeviceLaw.Holds.setPosture {a : SetPostureArgs} (h : L.Holds ps s) : L.Holds ps (Machine.setPosture p a s).1 := by
  unfold Machine.setPosture
  split
  · exact h
  · split
    · exact h
    · exact h.changePosture

theorem DeviceLaw.Holds.freeBlocks {a : FreeBlocksArgs} (h : L.Holds ps s) : L.Holds ps (Machine.freeBlocks p a s).1 :=
  h.of_tables ((changesOnly_refl _ s).freeBlocks (by decide))

theorem DeviceLaw.Holds.defineSpace {a : DescriptorArgs} (h : L.Holds ps s) :
    L.Holds ps (Machine.defineSpace p a s).1 := by
  unfold Machine.defineSpace
  split
  · exact h
  · split
    · exact h
    · split
      · exact h
      · split
        · exact h
        · split
          · exact h
          · exact h.setSpace

theorem DeviceLaw.Holds.cancelStage {a : NumberArgs} (h : L.Holds ps s) : L.Holds ps (Machine.cancelStage p a s).1 := by
  unfold Machine.cancelStage
  split
  · exact h
  · split
    · exact h
    · split
      · exact h
      · exact h.setSpace

theorem DeviceLaw.Holds.retireSpace {a : NumberArgs} (h : L.Holds ps s) : L.Holds ps (Machine.retireSpace p a s).1 := by
  unfold Machine.retireSpace
  split
  · exact h
  · split
    · exact h
    · split
      · exact h
      · split
        · exact h
        · exact h.setSpace

theorem DeviceLaw.Holds.createWorkOrder {a : CreateWorkOrderArgs} (h : L.Holds ps s) :
    L.Holds ps (Machine.createWorkOrder p a s).1 := by
  unfold Machine.createWorkOrder
  split
  · exact h
  · split
    · exact h
    · split
      · exact h
      · split
        · exact h
        · exact h.setWorkOrder

theorem DeviceLaw.Holds.endorse {a : EndorseArgs} (h : L.Holds ps s) : L.Holds ps (Machine.endorse p a s).1 := by
  unfold Machine.endorse
  split
  · split
    · exact h
    · split
      · exact h
      · split
        · exact h
        · exact h.setWorkOrder
  · exact h

theorem DeviceLaw.Holds.issuePermit {a : IssuePermitArgs} (h : L.Holds ps s) :
    L.Holds ps (Machine.issuePermit p a s).1 := by
  unfold Machine.issuePermit
  split
  · split
    · exact h
    · split
      · exact h
      · split
        · exact h
        · split
          · exact h
          · split
            · exact h
            · split
              · exact h
              · exact h.setPermit
  · exact h

theorem DeviceLaw.Holds.setHold {hold : Bool} {g : Nat → Slot → Slot} {a : NumberArgs} (h : L.Holds ps s) :
    L.Holds ps (Machine.setHold hold g p a s).1 := by
  unfold Machine.setHold
  split
  · exact h
  · split
    · exact h
    · dsimp only
      split
      · exact h
      · exact h.of_tables (((changesOnly_refl _ s).setLane (by decide)).slots_update (by decide))

theorem DeviceLaw.Holds.judgePayload {α : Type} {a : Payload α} {body : α → State → State × Answer} (h : L.Holds ps s)
    (hb : ∀ x, L.Holds ps (body x s).1) : L.Holds ps (Machine.judgePayload a body s).1 := by
  cases a with
  | fields x => exact hb x
  | malformed _ => exact h

/-- A command that makes no request keeps the laws. -/
theorem DeviceLaw.Holds.plainCommand {body : State → State × Answer} (h : L.Holds ps s)
    (hb : plainCommand i = some body) : L.Holds ps (body s).1 := by
  cases i with
  | writeBlock p a => cases hb; exact h.judgePayload fun _ => h.writeBlock
  | freeBlocks p a => cases hb; exact h.judgePayload fun _ => h.freeBlocks
  | readBlock p a => cases hb; exact h.judgePayload fun x => by rwa [readBlock_state]
  | defineSpace p a => cases hb; exact h.judgePayload fun _ => h.defineSpace
  | stageSpace p a => cases hb; exact h.judgePayload fun _ => h.stageSpace
  | cancelStage p a => cases hb; exact h.judgePayload fun _ => h.cancelStage
  | retireSpace p a => cases hb; exact h.judgePayload fun _ => h.retireSpace
  | readSpace p a => cases hb; exact h.judgePayload fun x => by rwa [readSpace_state]
  | purge p a => cases hb; exact h.judgePayload fun _ => h.purge
  | setPosture p a => cases hb; exact h.judgePayload fun _ => h.setPosture
  | setSiteAllowance p a => cases hb; exact h.judgePayload fun _ => h.setSiteAllowance
  | forceExit p a => cases hb; exact h.judgePayload fun _ => h.forceExit
  | readRoom p a => cases hb; exact h.judgePayload fun x => by rwa [readRoom_state]
  | createWorkOrder p a => cases hb; exact h.judgePayload fun _ => h.createWorkOrder
  | endorse p a => cases hb; exact h.judgePayload fun _ => h.endorse
  | withdraw p a => cases hb; exact h.judgePayload fun _ => h.withdraw
  | readWorkOrder p a => cases hb; exact h.judgePayload fun x => by rwa [readWorkOrder_state]
  | issuePermit p a => cases hb; exact h.judgePayload fun _ => h.issuePermit
  | revoke p a => cases hb; exact h.judgePayload fun _ => h.revoke
  | readPermit p a => cases hb; exact h.judgePayload fun x => by rwa [readPermit_state]
  | bindDoor p a => cases hb; exact h.judgePayload fun _ => h.bindDoor
  | readDoor p a => cases hb; exact h.judgePayload fun x => by rwa [readDoor_state]
  | remoteConsent p a => cases hb; exact h.judgePayload fun _ => h.remoteConsent
  | holdLane p a => cases hb; exact h.judgePayload fun _ => h.setHold
  | releaseLane p a => cases hb; exact h.judgePayload fun _ => h.setHold
  | resetLane p a => cases hb; exact h.judgePayload fun _ => h.resetLane
  | setTimings p a => cases hb; exact h.judgePayload fun _ => h.setTimings
  | readStatus p a => cases hb; exact h.judgePayload fun x => by rwa [readStatus_state]
  | estateClear p a => cases hb; exact h.judgePayload fun _ => h.estateClear
  | unknownCommand p code bytes => cases hb; exact h
  | setClock p a => cases a <;> cases hb; exact h
  | activate p a => cases a <;> cases hb; exact h
  | _ => cases hb

/-! ### Commands at their ports -/

theorem DeviceLaw.Holds.reserve_self (h : L.Holds ps s) (hp : p ∉ L.held) : L.Holds (p :: ps) (s.reserveReply p) := by
  have h1 := h.reserveReply (p := p) (x := s.port p) hp id
  rwa [State.reserveReply, State.setPort_setPort, State.setPort_port_self] at h1

/-- A command is carried out from where its port has taken it, and its reply is made (R169). -/
theorem DeviceLaw.Holds.carryOut {code : Byte} {body : State → State × Answer} (h : L.Holds (p :: ps) (s.reserveReply p))
    (hb : ∀ u, L.Holds (p :: ps) u → L.Holds (p :: ps) (body u).1) : L.Holds ps (Machine.carryOut p code body s) :=
  ((hb _ h).makeReply (by simp)).tail

theorem DeviceLaw.Holds.takeCommand {code : Byte} {payload : List Byte} {body : State → State × Answer}
    (h : L.Holds ps s) (hp : p ∉ L.held ++ (ps ++ s.carriers)) (hb : ∀ u, L.Holds (p :: ps) u → L.Holds (p :: ps) (body u).1) :
    L.Holds ps (Machine.takeCommand p code payload body s) := by
  unfold Machine.takeCommand
  dsimp only
  split
  · split
    · rename_i hr
      have hr' : (s.port p).reply ≠ none := Option.isSome_iff_ne_none.1 hr
      exact h.setPort id (fun _ ho _ => ⟨⟨ho.1, fun _ => hr'⟩, fun hc => absurd (List.mem_append_right _ hc) hp⟩)
        fun hmem => absurd (List.mem_append_left _ hmem) hp
    · exact (h.reserve_self fun hmem => hp (List.mem_append_left _ hmem)).carryOut hb
  · exact h

theorem DeviceLaw.Holds.beginActivate {a : NumberArgs} (h : L.Holds (p :: ps) (s.reserveReply p)) :
    L.Holds ps (s.beginActivate p a) := by
  unfold State.beginActivate
  split
  · exact h.carryOut fun _ hu => hu
  · refine DeviceLaw.Holds.tail (h.selectFrom (run := .activate p _) fun q hq => ?_)
    obtain rfl : p = q := Option.some.inj hq
    exact List.mem_cons_self

theorem DeviceLaw.Holds.beginSetClock {a : SetClockArgs} (h : L.Holds (p :: ps) (s.reserveReply p)) :
    L.Holds ps (s.beginSetClock p a) := by
  unfold State.beginSetClock
  split
  · exact h.carryOut fun _ hu => hu
  · rename_i c hc
    have hp : p = .sec := by
      unfold setClockOf at hc
      split_ifs at hc with hp
      exact not_not.1 hp
    subst hp
    refine DeviceLaw.Holds.tail ((h.setClockTo (inRange_of_setClockOf hc)).goOn (run := .clockSet _ _ _) fun q hq => ?_)
    obtain rfl : .sec = q := Option.some.inj hq
    exact List.mem_cons_self

theorem DeviceLaw.Holds.beginCommand {code : Byte} (h : L.Holds (p :: ps) (s.reserveReply p)) :
    L.Holds ps (s.beginCommand p code i) := by
  unfold State.beginCommand
  split
  · exact h.beginSetClock
  · exact h.beginActivate
  · refine h.carryOut fun u hu => ?_
    cases hb : Machine.plainCommand i with
    | none => exact hu
    | some body => exact hu.plainCommand hb

end Sys2Proof.Machine

/-! SUPPORT. The bounds of the device through every row of the opcode table taken while decisions wait, where it is no
command and no event of a port whose command they carry out (R169). -/

namespace Sys2Proof.Machine

open State (changesOnly_refl)

variable {L : DeviceLaw} {ps : List Authority} {s t : State} {p : Authority} {i : Instr}

/-! ### The port of a row -/

/-- The port that takes the command of a row, or whose lines the event of a row concerns. -/
def portOf (i : Instr) : Option Authority :=
  match encodeCommand i with
  | some c => some c.1
  | none => lineOf i

/-- A row that leaves a decision free is of another port than the decision's (R169). -/
theorem Decision.leavesFree_port {x : Decision} (h : x.leavesFree s i = true) (hp : p ∈ x.port) : portOf i ≠ some p := by
  unfold Decision.leavesFree at h
  rw [Bool.and_eq_true] at h
  obtain ⟨hcommand, hline⟩ := h
  rw [Option.mem_def] at hp
  unfold portOf
  split
  · rename_i c hc
    simp only [hc, Option.all_some, Bool.and_eq_true, decide_eq_true_eq, hp] at hcommand
    exact hcommand.2.symm
  · intro hl
    simp [hl, hp] at hline

/-- The rows of commands that make no request: the command of the row is taken at its port. -/
theorem rowEffect_takes {body : State → State × Answer} (hb : plainCommand i = some body)
    (hr : makesRequests i = false) (h : rowEffect i s = some t) :
    t = s ∨ ∃ p code payload, portOf i = some p ∧ t = takeCommand p code payload body s := by
  cases i with
  | unknownCommand p code bytes =>
    cases hb
    obtain rfl := Option.some.inj h
    split
    · exact .inl rfl
    · exact .inr ⟨_, _, _, rfl, rfl⟩
  | setClock p a => exact Bool.noConfusion hr
  | activate p a => exact Bool.noConfusion hr
  | _ => cases hb <;> exact .inr ⟨_, _, _, rfl, (Option.some.inj h).symm⟩

/-! ### Events -/

/-- The lines of a port are hunted for a frame, and no more of the port changes but its queue. -/
theorem DeviceLaw.Holds.hunt (h : L.Holds ps s) : L.Holds ps (s.setPort p (s.port p).hunt) :=
  h.setPort id (fun _ ho hc => ⟨ho, hc⟩) fun _ _ _ hs => hs

theorem DeviceLaw.Holds.stepTimeout {n : SlotNo} {k : Slot} (h : L.Holds ps s) : L.Holds ps (s.stepTimeout n k) := by
  unfold State.stepTimeout
  split
  · split
    · exact DeviceLaw.Holds.notify (DeviceLaw.Holds.setDoor h.setSlot fun hm => hm)
    · exact h.denyPairing
  · exact h.denyPairing

theorem DeviceLaw.Holds.execCheckinDeadline {n : PermitNo} (h : L.Holds ps s)
    (ht : Machine.execCheckinDeadline n s = .next t) : L.Holds ps t := by
  obtain rfl := Host.Outcome.next.inj ht
  split
  · exact h
  · split
    · split
      · exact h.setPermit.notifyBoth
      · exact h
    all_goals exact h

theorem DeviceLaw.Holds.execStayDeadline {n : PermitNo} (h : L.Holds ps s)
    (ht : Machine.execStayDeadline n s = .next t) : L.Holds ps t := by
  obtain rfl := Host.Outcome.next.inj ht
  split
  · exact h
  · split
    · split
      · exact h.setPermit.notifyBoth
      · exact h
    all_goals exact h

theorem DeviceLaw.Holds.execVerdictSent {l : LaneNo} (h : L.Holds ps s)
    (ht : Machine.execVerdictSent l s = .next t) : L.Holds ps t := by
  obtain rfl := Host.Outcome.next.inj ht
  split
  · rename_i v _
    have hv : L.Holds ps (s.verdictGone l v) := by
      unfold State.verdictGone
      dsimp only
      split
      · split
        · exact h.setDoor fun hm => hm
        · exact h
      · exact h
    exact DeviceLaw.Holds.sendNext hv.setLane
  all_goals exact h

/-- An event that makes no request keeps the laws. -/
theorem DeviceLaw.Holds.exec_event (h : L.Holds ps s) (hb : Machine.plainCommand i = none)
    (hr : makesRequests i = false) (hi : i ≠ .powerOn) (ht : exec i s = .next t) : L.Holds ps t := by
  cases i with
  | powerOn => exact absurd rfl hi
  | frameGapTimeout p => obtain rfl := Host.Outcome.next.inj ht; exact h.hunt
  | portBreak p =>
    obtain rfl := Host.Outcome.next.inj ht
    exact h.setPort (fun _ => ⟨Nat.zero_le _, Nat.zero_le _⟩) (fun _ ho hc => ⟨ho, hc⟩) fun _ _ _ hs => hs
  | readyLineAsserted p =>
    obtain rfl := Host.Outcome.next.inj ht
    exact h.setPort (fun hq => Port.Bounded.choose (q := { s.port p with ready := true }) hq)
      (fun _ ho hc => ⟨Port.Ordered.choose (q := { s.port p with ready := true }) ho,
        fun hp => Port.Carries.choose (q := { s.port p with ready := true }) (hc hp)⟩)
      fun _ _ _ hs => Port.Sends.choose (q := { s.port p with ready := true }) hs
  | framingError p => obtain rfl := Host.Outcome.next.inj ht; exact h.hunt
  | badLength p n =>
    obtain rfl := Host.Outcome.next.inj ht
    split
    · exact h.hunt
    · exact h
  | passageDeadline d =>
    obtain rfl := Host.Outcome.next.inj ht
    repeat' split
    all_goals first
      | exact h
      | exact h.closePassages
  | stepDeadline k =>
    obtain rfl := Host.Outcome.next.inj ht
    split
    · exact h
    · split
      · exact h.stepTimeout
      · exact h
  | consentDeadline k =>
    obtain rfl := Host.Outcome.next.inj ht
    split
    · exact h
    · split
      · exact h.denyPairing
      · exact h
  | checkinDeadline n => exact h.execCheckinDeadline ht
  | stayDeadline n => exact h.execStayDeadline ht
  | switchDeadline n =>
    obtain rfl := Host.Outcome.next.inj ht
    split
    · exact h
    · split
      · exact h.forceSwitch
      · exact h
  | pollTurn l =>
    obtain rfl := Host.Outcome.next.inj ht
    split
    · exact DeviceLaw.Holds.sendNext h.setLane
    · exact h
  | verdictSent l => exact h.execVerdictSent ht
  | cancelSent l =>
    obtain rfl := Host.Outcome.next.inj ht
    split
    · exact DeviceLaw.Holds.setLane (h.setDoor fun hm => hm)
    · exact h
  | pollUnanswered l =>
    obtain rfl := Host.Outcome.next.inj ht
    split
    · exact h.missPoll
    · exact h
  | presentExit d c =>
    obtain rfl := Host.Outcome.next.inj ht
    exact h.answerPresent fun _ hu => hu.takeExit
  | presentCheckin d c =>
    obtain rfl := Host.Outcome.next.inj ht
    exact h.answerPresent fun _ hu => hu.takeCheckIn
  | passage d =>
    obtain rfl := Host.Outcome.next.inj ht
    exact h.answerPoll fun _ hu => hu.takePassage
  | nothing d =>
    obtain rfl := Host.Outcome.next.inj ht
    exact h.answerPoll fun _ hu => hu
  | laneBreakEnd l =>
    obtain rfl := Host.Outcome.next.inj ht
    split
    · exact h.setLane
    · exact h
  | setClock p a => exact Bool.noConfusion hr
  | activate p a => exact Bool.noConfusion hr
  | presentEnter d c => exact Bool.noConfusion hr
  | selectionDeadline n => exact Bool.noConfusion hr
  | secondTick => exact Bool.noConfusion hr
  | commandFrameReceived p bytes => exact Bool.noConfusion hr
  | frameFinished p ready => exact Bool.noConfusion hr
  | _ => cases hb

/-! ### Rows -/

/-- A row that makes no request keeps the laws, where it is of no port whose command is carried out. -/
theorem DeviceLaw.Holds.exec_plain (h : L.Holds ps s) (hr : makesRequests i = false) (hi : i ≠ .powerOn)
    (hp : ∀ p ∈ L.held ++ (ps ++ s.carriers), portOf i ≠ some p) (ht : exec i s = .next t) : L.Holds ps t := by
  cases hb : Machine.plainCommand i with
  | none => exact h.exec_event hb hr hi ht
  | some body =>
    have hrow : rowEffect i s = some t := by
      cases i with
      | powerOn => cases hb
      | commandFrameReceived p bytes => cases hb
      | setClock p a => exact Bool.noConfusion hr
      | activate p a => exact Bool.noConfusion hr
      | presentEnter d c => exact Bool.noConfusion hr
      | selectionDeadline n => exact Bool.noConfusion hr
      | secondTick => exact Bool.noConfusion hr
      | frameFinished p ready => exact Bool.noConfusion hr
      | _ => exact stateAfter_eq.2 ht
    rcases rowEffect_takes hb hr hrow with rfl | ⟨q, code, payload, hq, rfl⟩
    · exact h
    · exact h.takeCommand (fun hmem => hp q hmem hq) fun _ hu => hu.plainCommand hb

theorem DeviceLaw.Holds.beginEnter {d : DoorId} {c : Credential} (h : L.Holds ps s) : L.Holds ps (s.beginEnter d c) := by
  have h1 : (s.enterStage d c).Settles (L.Holds ps) := h.enterStage
  unfold State.beginEnter
  split <;> rename_i hq
  · rwa [hq] at h1
  · exact h.wait nofun
  · exact h.wait nofun

theorem DeviceLaw.Holds.beginTick (h : L.Holds ps s) : L.Holds ps s.beginTick := by
  have h1 := h.advanceClock
  unfold State.beginTick
  split <;> rename_i hq <;> rw [hq] at h1
  · exact h1.takeTurns nofun
  · exact h1

theorem DeviceLaw.Holds.beginDeadline {n : WorkOrderNo} (h : L.Holds ps s) : L.Holds ps (s.beginDeadline n) := by
  unfold State.beginDeadline
  split
  · exact h
  · split
    · exact h.selectFrom nofun
    · exact h

/-- An idle transmitter leaves no reply waiting (R176). -/
theorem Port.choose_reply_eq_none {q : Port} (h : q.transmitter = none) : q.choose.reply = none := by
  unfold Port.choose
  rw [h]
  dsimp only
  split
  · rfl
  · split <;> assumption

/-- A port with no reply waiting and no command to take is in order. -/
theorem State.ordered_of_frameToTake (h : t.frameToTake p = none) (hr : (t.port p).reply = none) :
    (t.port p).Ordered := by
  have hb : (t.port p).buffer = none := by
    by_contra hne
    obtain ⟨f, hf⟩ := Option.ne_none_iff_exists'.1 hne
    simp [State.frameToTake, hf, hr] at h
  exact ⟨fun hne => absurd hr hne, fun hne => absurd hb hne⟩

/-- A frame that has been sent leaves a port with a command to take from its buffer, or in order (R169, R176). -/
theorem DeviceLaw.Holds.finishFrame {ready : Bool} (h : L.Holds ps s) (hp : p ∉ L.held ++ (ps ++ s.carriers))
    (ht : s.finishFrame p ready = some t) :
    L.Holds (p :: ps) (t.reserveReply p) ∧ (t.frameToTake p = none → L.Holds ps t) := by
  unfold State.finishFrame at ht
  split at ht
  · exact nomatch ht
  · obtain rfl := Option.some.inj ht
    have hb : (s.port p).Bounded → ({ s.port p with ready := ready, transmitter := none } : Port).choose.Bounded :=
      fun hq => Port.Bounded.choose (q := { s.port p with ready := ready, transmitter := none }) hq
    have hheld : p ∉ L.held := fun hmem => hp (List.mem_append_left _ hmem)
    refine ⟨h.reserveReply hheld hb, fun hnone => h.setPort hb
      (fun _ ho _ => ⟨?_, fun hc => absurd (List.mem_append_right _ hc) hp⟩) fun hmem => absurd hmem hheld⟩
    have hord := State.ordered_of_frameToTake hnone (by
      rw [State.setPort_port_self]
      exact Port.choose_reply_eq_none rfl)
    rwa [State.setPort_port_self] at hord

theorem DeviceLaw.Holds.beginFrameFinished {ready : Bool} (h : L.Holds ps s) (hp : p ∉ L.held ++ (ps ++ s.carriers)) :
    L.Holds ps (s.beginFrameFinished p ready) := by
  unfold State.beginFrameFinished
  split
  · exact h
  · rename_i t ht
    obtain ⟨htake, hnone⟩ := h.finishFrame hp ht
    split
    · rename_i hf
      exact hnone hf
    · exact htake.beginCommand

/-- A row taken while decisions wait keeps the laws, where it is of no port whose command is carried out. -/
theorem DeviceLaw.Holds.rowEffect (h : L.Holds ps s) (hp : ∀ p ∈ L.held ++ (ps ++ s.carriers), portOf i ≠ some p)
    (ht : Machine.rowEffect i s = some t) : L.Holds ps t := by
  cases hr : makesRequests i with
  | false => exact h.exec_plain hr (by rintro rfl; exact nomatch ht) hp (exec_of_rowEffect hr ht)
  | true =>
    cases i with
    | setClock p a =>
      obtain rfl := Option.some.inj ht
      exact (h.reserve_self fun hmem => hp p (List.mem_append_left _ hmem) rfl).beginCommand
    | activate p a =>
      obtain rfl := Option.some.inj ht
      exact (h.reserve_self fun hmem => hp p (List.mem_append_left _ hmem) rfl).beginCommand
    | secondTick => obtain rfl := Option.some.inj ht; exact h.beginTick
    | selectionDeadline n => obtain rfl := Option.some.inj ht; exact h.beginDeadline
    | frameFinished p ready =>
      obtain rfl := Option.some.inj ht
      exact h.beginFrameFinished fun hmem => hp p hmem rfl
    | presentEnter d c =>
      obtain rfl := Option.some.inj ht
      exact h.answerPresent fun _ hu => hu.beginEnter
    | commandFrameReceived p bytes => exact nomatch ht
    | _ => exact Bool.noConfusion hr

end Sys2Proof.Machine

/-! SUPPORT. The bounds of the device while resolution requests are served (R38): what a walk fills is for the room of its
request, so no two entries of the cache come to carry one tag (R62, R67), and the port whose command a decision is of is
left to it (R169). -/

namespace Sys2Proof.Machine

open State (changesOnly_refl)

/-! ### What is filled (R51, R57, R64) -/

/-- A summary speaks for the room, alone or zone-wide. -/
def Summary.isFor (x : Summary) (r : Designator) : Prop :=
  x.covers = ⟨r.site, r.zone, some r.room⟩ ∨ x.covers = ⟨r.site, r.zone, none⟩

section
variable {see : Kind → State} {d : Descriptor} {r : Designator} {origin length : Nat} {q : Path} {g : GrantSummary}
  {items : List OverlayItem} {o : OverlaySummary}

theorem walkZone_isFor (h : walkZone see d r origin length q = .ok g) : (Summary.grant g).isFor r := by
  unfold walkZone at h
  split at h
  · exact nomatch h
  · split at h
    · exact nomatch h
    · obtain rfl := Except.ok.inj h
      exact .inl rfl

theorem walkSite_isFor (h : walkSite see d r origin length q = .ok g) : (Summary.grant g).isFor r := by
  unfold walkSite at h
  split at h
  · exact nomatch h
  · split at h
    · exact nomatch h
    · split at h
      · obtain rfl := Except.ok.inj h
        exact .inr rfl
      · split at h
        · exact nomatch h
        · exact walkZone_isFor h

theorem walkEstate_isFor (h : walkEstate see d r origin length q = .ok g) : (Summary.grant g).isFor r := by
  unfold walkEstate at h
  split at h
  · exact nomatch h
  · split at h
    · exact nomatch h
    · split at h
      · exact nomatch h
      · exact walkSite_isFor h

theorem grantWalk_isFor (h : grantWalk see d r = .ok g) : (Summary.grant g).isFor r := by
  unfold grantWalk at h
  split at h
  · exact nomatch h
  · split at h
    · exact walkEstate_isFor h
    · split at h
      · exact walkSite_isFor h
      · exact nomatch h
    · split at h
      · exact walkZone_isFor h
      · exact nomatch h

theorem overlayZone_isFor (h : overlayZone see r origin length items = .ok o) : (Summary.overlay o).isFor r := by
  unfold overlayZone at h
  split at h
  · exact nomatch h
  · split at h
    · obtain rfl := Except.ok.inj h
      exact .inl rfl
    · split at h
      · exact nomatch h
      · obtain rfl := Except.ok.inj h
        exact .inl rfl

theorem overlaySite_isFor (h : overlaySite see r origin length items = .ok o) : (Summary.overlay o).isFor r := by
  unfold overlaySite at h
  split at h
  · exact nomatch h
  · split at h
    · obtain rfl := Except.ok.inj h
      exact .inr rfl
    · split at h
      · exact nomatch h
      · split at h
        · obtain rfl := Except.ok.inj h
          exact .inr rfl
        · split at h
          · exact nomatch h
          · exact overlayZone_isFor h

theorem overlayEstate_isFor (h : overlayEstate see r origin length = .ok o) : (Summary.overlay o).isFor r := by
  unfold overlayEstate at h
  split at h
  · exact nomatch h
  · split at h
    · obtain rfl := Except.ok.inj h
      exact .inr rfl
    · split at h
      · exact nomatch h
      · split at h
        · exact nomatch h
        · exact overlaySite_isFor h

theorem overlayWalk_isFor (h : overlayWalk see d r = .ok o) : (Summary.overlay o).isFor r := by
  unfold overlayWalk at h
  split at h
  · obtain rfl := Except.ok.inj h
    exact .inr rfl
  · split at h
    · obtain rfl := Except.ok.inj h
      exact overlayEstate_isFor ‹_›
    · exact nomatch h

end

/-- What a form of request fills is for the room of the request. -/
def RequestForm.FillsFor {α : Type} (F : RequestForm α) : Prop :=
  ∀ see d r a, F.walk see d r = .ok a → (F.summary a).isFor r

theorem RequestForm.grant_fillsFor : RequestForm.grant.FillsFor := fun _ _ _ _ h => grantWalk_isFor h

theorem RequestForm.overlay_fillsFor : RequestForm.overlay.FillsFor := fun _ _ _ _ h => overlayWalk_isFor h

/-! ### The cache (R62, R66 to R68) -/

section
variable {n : SpaceNo} {g : BitVec 8} {isPrivate : Bool} {r : Designator} {cache : List CacheEntry} {e : CacheEntry}

/-- Two entries carry one tag (R62). -/
def CacheEntry.sameTag (e f : CacheEntry) : Prop :=
  e.space = f.space ∧ e.generation = f.generation ∧ e.summary.covers = f.summary.covers

theorem mem_of_cachePick (h : cachePick n g isPrivate r cache = some e) : e ∈ cache := by
  rw [cachePick_eq, Option.or_eq_some_iff, Option.or_eq_some_iff] at h
  rcases h with h | ⟨-, h | ⟨-, h⟩⟩
  · exact List.mem_of_find?_eq_some h
  · exact List.mem_of_find?_eq_some h
  · split at h
    · exact nomatch h
    · rw [Option.or_eq_some_iff] at h
      rcases h with h | ⟨-, h⟩ <;> exact List.mem_of_find?_eq_some h

/-- A lookup that misses finds no entry with the tag of what its walk fills. -/
theorem not_sameTag_of_miss {x : Summary} (h : cachePick n g isPrivate r cache = none) (hx : x.isFor r) (he : e ∈ cache) :
    ¬ CacheEntry.sameTag ⟨n, g, x⟩ e := by
  rintro ⟨hn, hg, hc⟩
  rw [cachePick_eq, Option.or_eq_none_iff, Option.or_eq_none_iff] at h
  obtain ⟨hroom, hzone, -⟩ := h
  rcases hx with hx | hx
  · exact List.find?_eq_none.1 hroom e he (CacheEntry.taggedFor_room.2 ⟨⟨hn.symm, hg.symm⟩, hc.symm.trans hx⟩)
  · exact List.find?_eq_none.1 hzone e he (CacheEntry.taggedFor_zone.2 ⟨⟨hn.symm, hg.symm⟩, hc.symm.trans hx⟩)

end

variable {L : DeviceLaw} {ps : List Authority} {s t : State} {own kept : List Party} {n : SpaceNo} {r : Designator}
  {met : Meetings} {y : Progress} {x : Decision} {i : Instr}

/-- A hit only reorders the cache. -/
theorem State.cacheBounded.touch {e : CacheEntry} (h : s.cacheBounded) (he : e ∈ s.cache) :
    State.cacheBounded { s with cache := cacheTouch e s.cache } := by
  have hperm : (cacheTouch e s.cache).Perm s.cache := (List.perm_cons_erase he).symm
  refine ⟨hperm.length_eq.trans_le h.1, (hperm.pairwise_iff fun hne hfe => hne ?_).2 h.2⟩
  exact ⟨hfe.1.symm, hfe.2.1.symm, hfe.2.2.symm⟩

/-- A fill brings in a tag that the cache had not, and of 32 entries the least recent leaves. -/
theorem State.cacheBounded.fill {e : CacheEntry} (h : s.cacheBounded) (he : ∀ f ∈ s.cache, ¬ e.sameTag f) :
    State.cacheBounded { s with cache := cacheFill e s.cache } := by
  refine ⟨?_, List.pairwise_cons.2 ⟨fun f hf => he f (List.mem_of_mem_take hf), h.2.sublist (List.take_sublist ..)⟩⟩
  show (e :: s.cache.take 31).length ≤ 32
  rw [List.length_cons, List.length_take]
  omega

/-! ### One request -/

/-- The commands of these ports, and of the port of the law, are of decisions of the list. -/
def DeviceLaw.CarriedBy (L : DeviceLaw) (ps : List Authority) (own : List Party) : Prop :=
  ∀ p ∈ L.held ++ ps, ∃ x ∈ own, p ∈ x.decision.port

theorem DeviceLaw.carriedBy_nil (h : L.held = []) : L.CarriedBy [] own := by
  unfold DeviceLaw.CarriedBy
  rw [h]
  exact nofun

/-- A row that meets a request is of no port whose command a decision is of, and an ESTATE CLEAR among them answers those
of the line (R38, R169). -/
theorem DeviceLaw.Holds.take (h : L.Holds ps y.state) (hps : L.CarriedBy ps own) : L.Holds ps (y.take own n r i).state := by
  rcases y.take_cases own n r i with hy | ⟨t, ht, -, hfree, hy⟩
  · rwa [hy]
  · have hp : ∀ p ∈ L.held ++ (ps ++ y.state.carriers), portOf i ≠ some p := by
      intro p hp
      obtain ⟨x, hx, hxp⟩ : ∃ x ∈ own ++ y.state.parties, p ∈ x.decision.port := by
        rw [← List.append_assoc] at hp
        rcases List.mem_append.1 hp with hp | hp
        · obtain ⟨x, hx, hxp⟩ := hps p hp
          exact ⟨x, List.mem_append_left _ hx, hxp⟩
        · obtain ⟨w, hw, hwp⟩ := List.mem_filterMap.1 hp
          exact ⟨_, List.mem_append_right _ (List.mem_map_of_mem hw), hwp⟩
      exact Decision.leavesFree_port (hfree x hx) hxp
    rcases hy with ⟨-, hy⟩ | ⟨-, -, hy⟩ <;> rw [hy]
    · have h' : L.Holds (ps ++ y.state.carriers) y.state := h.mono fun _ hq => hq
      have ht' : L.Holds (ps ++ y.state.carriers) t :=
        h'.rowEffect (fun p hq => hp p (by simpa using hq)) ht
      have hd : L.Holds (ps ++ y.state.carriers) (y.state.waiting.foldl State.discard t) :=
        foldl_keeps ht' fun u w hw hu => hu.discard fun p hwp =>
          List.mem_append_right _ (List.mem_filterMap.2 ⟨w, hw, hwp⟩)
      exact hd.mono fun p hq => List.mem_append_left _ (List.mem_append_left _ hq)
    · exact h.rowEffect hp ht

theorem DeviceLaw.Holds.takeAll (l : List Instr) (h : L.Holds ps y.state) (hps : L.CarriedBy ps own) :
    L.Holds ps (l.foldl (Progress.take own n r) y).state :=
  foldl_keeps (I := fun y : Progress => L.Holds ps y.state) h fun _ _ _ hu => hu.take hps

theorem DeviceLaw.Holds.beginRequest (h : L.Holds ps s) (hps : L.CarriedBy ps own) :
    L.Holds ps (s.beginRequest own n r met).state :=
  DeviceLaw.Holds.takeAll (y := ⟨s, false, false⟩) _ h hps

theorem DeviceLaw.Holds.meet (h : L.Holds ps y.state) (hps : L.CarriedBy ps own) :
    L.Holds ps (y.meet own n r met).2.state :=
  .takeAll _ (.takeAll _ (.takeAll _ (.takeAll _ h hps) hps) hps) hps

/-- The laws that the service of requests keeps: all but that nothing new comes into the cache. -/
def DeviceLaw.Served : DeviceLaw → Prop
  | .shrinks _ => False
  | .queues | .settings | .ports | .cache | .sends .. => True

theorem DeviceLaw.Holds.touch {e : CacheEntry} (h : L.Holds ps y.state) (hL : L.Served) (he : e ∈ y.state.cache) :
    L.Holds ps (y.touch e).state := by
  cases L with
  | cache => exact State.cacheBounded.touch h he
  | shrinks c => exact hL.elim
  | _ => exact h

theorem DeviceLaw.Holds.fill {e : CacheEntry} (h : L.Holds ps y.state) (hL : L.Served)
    (he : ∀ f ∈ y.state.cache, ¬ e.sameTag f) : L.Holds ps (y.fill e).state := by
  unfold Progress.fill
  split
  · exact h
  · cases L with
    | cache => exact State.cacheBounded.fill h he
    | shrinks c => exact hL.elim
    | _ => exact h

theorem DeviceLaw.Holds.serve {α : Type} {F : RequestForm α} (hF : F.FillsFor) (h : L.Holds ps y.state) (hL : L.Served)
    (hps : L.CarriedBy ps own) : L.Holds ps (F.serve own n r met y).1 := by
  have hmeet := h.meet (n := n) (r := r) (met := met) hps
  unfold RequestForm.serve
  split
  · simpa using hmeet
  · split
    · rename_i e he
      simpa using (h.touch hL (mem_of_cachePick he)).meet hps
    · rename_i d _ _ hmiss
      cases hwalk : F.walk (y.meet own n r met).1 d r with
      | error c => simpa [RequestForm.finish] using hmeet
      | ok a =>
        have hsub : (DeviceLaw.shrinks y.state.cache).Holds [] (y.meet own n r met).2.state :=
          DeviceLaw.Holds.meet (L := .shrinks y.state.cache) (List.Sublist.refl _) (DeviceLaw.carriedBy_nil rfl)
        simpa [RequestForm.finish] using
          hmeet.fill hL fun f hf => not_sameTag_of_miss hmiss (hF _ _ _ _ hwalk) (hsub.subset hf)

theorem DeviceLaw.Holds.serveGrant (h : L.Holds ps s) (hL : L.Served) (hps : L.CarriedBy ps own) :
    L.Holds ps (Machine.serveGrant own n r met s).1 := by
  rw [serveGrant_eq]
  exact (h.beginRequest hps).serve RequestForm.grant_fillsFor hL hps

theorem DeviceLaw.Holds.serveOverlay (h : L.Holds ps s) (hL : L.Served) (hps : L.CarriedBy ps own) :
    L.Holds ps (Machine.serveOverlay own r met s).1 := by
  rw [serveOverlay_eq]
  exact (h.beginRequest hps).serve RequestForm.overlay_fillsFor hL hps

end Sys2Proof.Machine

/-! SUPPORT. The bounds of the device through the line of requests, through every row of the opcode table and through a
step. -/

namespace Sys2Proof.Machine

open State (changesOnly_refl)

variable {L : DeviceLaw} {ps : List Authority} {s t : State} {own kept : List Party} {n : SpaceNo} {r : Designator}
  {met : Meetings} {x : Decision} {i : Instr} {e : Errand} {p : Authority} {q : Option Authority}
  {rights : Resolution (GrantSummary × OverlaySummary)}

/-! ### The line -/

/-- The decision at the front of the line is taken out of it. -/
theorem DeviceLaw.Holds.takeFront {w : Waiting} {rest : List Waiting} (h : L.Holds ps s) (hw : s.waiting = w :: rest) :
    L.Holds (w.errand.port.toList ++ ps) { s with waiting := rest } := by
  have h1 := h.cut (l := [w]) hw
  cases hp : w.errand.port <;> simpa [hp] using h1

/-- A decision is done with. -/
theorem DeviceLaw.Holds.done {o : Option Authority} (h : L.Holds (o.toList ++ ps) s) : L.Holds ps s :=
  h.mono fun _ hp => List.mem_append_left _ (List.mem_append_right _ hp)

theorem Errand.port_mem : ∀ p ∈ e.port, p ∈ e.port.toList ++ ps := fun _ hp =>
  List.mem_append_left _ (Option.mem_toList.2 hp)

theorem DeviceLaw.CarriedBy.cons (h : L.CarriedBy ps own) : L.CarriedBy (e.port.toList ++ ps) (e.party :: own) := by
  intro p hp
  simp only [List.mem_append, Option.mem_toList] at hp
  rcases hp with hp | hp | hp
  · obtain ⟨x, hx, hxp⟩ := h p (List.mem_append_left _ hp)
    exact ⟨x, List.mem_cons_of_mem _ hx, hxp⟩
  · exact ⟨_, List.mem_cons_self, hp⟩
  · obtain ⟨x, hx, hxp⟩ := h p (List.mem_append_right _ hp)
    exact ⟨x, List.mem_cons_of_mem _ hx, hxp⟩

theorem DeviceLaw.Holds.conclude (h : L.Holds (e.port.toList ++ ps) s) : L.Holds ps (s.conclude kept e rights) := by
  unfold State.conclude
  dsimp only
  split
  · exact (h.resume Errand.port_mem).done
  · exact (h.wait Errand.port_mem).done

theorem DeviceLaw.Holds.serveFront (h : L.Holds ps s) (hL : L.Served) (hps : L.CarriedBy ps own) :
    L.Holds ps (s.serveFront own kept met).1 := by
  unfold State.serveFront
  split
  · exact h
  · rename_i w rest hw
    have h0 := h.takeFront hw
    dsimp only
    split
    · have hg := h0.serveGrant (n := w.errand.space) (r := w.errand.party.room) (met := met) hL hps.cons
      split <;> rename_i hq <;> rw [hq] at hg
      · exact (hg.discard Errand.port_mem).done
      · exact hg.conclude
      · exact (hg.wait Errand.port_mem).done
    · have hg := h0.serveOverlay (r := w.errand.party.room) (met := met) hL hps.cons
      split <;> rename_i hq <;> rw [hq] at hg
      · exact (hg.discard Errand.port_mem).done
      · exact hg.conclude
      · exact hg.conclude
    · exact h0.conclude

/-- What is still to meet requests is no matter of the laws. -/
theorem DeviceLaw.Holds.meetings {v : List Meetings} (h : L.Holds ps s) : L.Holds ps { s with meetings := v } :=
  h.of_tables ((changesOnly_refl _ s).meetings_update (by decide))

theorem DeviceLaw.Holds.serveAhead {m : Nat} (h : L.Holds ps s) (hL : L.Served) (hps : L.CarriedBy ps own) :
    L.Holds ps (s.serveAhead own m).1 := by
  induction m generalizing s with
  | zero => exact h
  | succ m ih =>
    unfold State.serveAhead
    have h1 : L.Holds ps
        (if s.frontAsks then s.served.serveFront own own s.meeting else s.serveFront own own .none).1 := by
      split
      · exact DeviceLaw.Holds.serveFront h.meetings hL hps
      · exact h.serveFront hL hps
    split <;> rename_i hq <;> rw [hq] at h1
    · exact h1
    · exact ih h1

/-! ### The requests of the row in hand -/

section
variable (h : L.Holds ps s) (hL : L.Served) (hx : ∀ p ∈ L.held ++ ps, p ∈ x.port)
include h hL hx

theorem DeviceLaw.Holds.resolveGrant : L.Holds ps (Machine.resolveGrant x n r s).1 := by
  have hps : L.CarriedBy ps [⟨x, r⟩] := fun p hp => ⟨_, List.mem_singleton_self _, hx p hp⟩
  have h1 := h.serveAhead (m := s.waiting.length) hL hps
  unfold Machine.resolveGrant
  split <;> rename_i hq <;> rw [hq] at h1
  · exact h1
  · exact DeviceLaw.Holds.serveGrant h1.meetings hL hps

theorem DeviceLaw.Holds.resolveOverlay : L.Holds ps (Machine.resolveOverlay x r s).1 := by
  have hps : L.CarriedBy ps [⟨x, r⟩] := fun p hp => ⟨_, List.mem_singleton_self _, hx p hp⟩
  have h1 := h.serveAhead (m := s.waiting.length) hL hps
  unfold Machine.resolveOverlay
  split <;> rename_i hq <;> rw [hq] at h1
  · exact h1
  · exact DeviceLaw.Holds.serveOverlay h1.meetings hL hps

theorem DeviceLaw.Holds.checkRights {w : WorkOrder} {ow : Option Window} {m : Nat} :
    L.Holds ps (Machine.checkRights x n r w ow m s).1 := by
  have h1 := h.resolveGrant (n := n) (r := r) hL hx
  unfold Machine.checkRights
  split <;> rename_i hq <;> rw [hq] at h1
  · exact h1
  · exact h1
  · have h2 := h1.resolveOverlay (r := r) hL hx
    split <;> rename_i hq <;> rw [hq] at h2 <;> exact h2

variable {now : Reading} {w : WorkOrder}

theorem DeviceLaw.Holds.testOption {j : Nat} {o : WorkOption} : L.Holds ps (Machine.testOption x now w j o s).1 := by
  unfold Machine.testOption
  split
  · exact h
  · exact h.checkRights hL hx

theorem DeviceLaw.Holds.testOptions {l : List WorkOption} {j : Nat} :
    L.Holds ps (Machine.testOptions x now w j l s).1 := by
  induction l generalizing j s with
  | nil => exact h
  | cons o l ih =>
    have h1 := h.testOption (now := now) (w := w) (j := j) (o := o) hL hx
    unfold Machine.testOptions
    split <;> rename_i hq <;> rw [hq] at h1
    · exact h1
    · exact ih h1

theorem DeviceLaw.Holds.runSelection : L.Holds ps (Machine.runSelection x now w s).1 := h.testOptions hL hx

end

/-- The laws that stand through rows with no command in hand before them. -/
def DeviceLaw.Stands (L : DeviceLaw) : Prop := L.Served ∧ L.held = []

/-- The turns of work orders, for the command of a port or for none. -/
theorem DeviceLaw.Holds.runTurns {now : Reading} {l : List WorkOrderNo} (h : L.Holds q.toList s) (hL : L.Stands) :
    L.Holds q.toList (s.runTurns q now l) := by
  induction l generalizing s with
  | nil => exact h
  | cons n rest ih =>
    refine ih ?_
    split
    · exact h
    · rename_i s1 w ht
      exact ((h.turnOf ht).runSelection hL.1 fun p hp => by simpa [hL.2, Decision.selection] using hp).applyResult

theorem DeviceLaw.Holds.enterMinute (h : L.Holds q.toList s) (hL : L.Stands) : L.Holds q.toList (s.enterMinute q) :=
  h.runTurns hL

/-! ### The requests that still wait -/

theorem DeviceLaw.Holds.endTurns (h : L.Holds ps s) : L.Holds ps s.endTurns := by
  refine DeviceLaw.Holds.mono (foldl_keeps h.clear fun u w hw hu => ?_)
    fun p hp => List.mem_append_left _ (List.mem_append_right _ hp)
  have hp : ∀ p ∈ w.errand.port, p ∈ s.carriers ++ ps := fun p hwp =>
    List.mem_append_left _ (List.mem_filterMap.2 ⟨w, hw, hwp⟩)
  split
  · exact hu.resume hp
  · exact hu.wait hp
  · exact hu.wait hp

theorem DeviceLaw.Holds.serveMet (l : List Meetings) (h : L.Holds [] s) (hL : L.Stands) :
    L.Holds [] (s.serveMet q l) := by
  induction l generalizing s with
  | nil => exact h
  | cons m rest ih =>
    unfold State.serveMet
    split
    · exact h
    · exact ih (DeviceLaw.Holds.serveFront h.meetings hL.1 (DeviceLaw.carriedBy_nil hL.2))

theorem DeviceLaw.Holds.serveRest (m : Nat) (h : L.Holds [] s) (hL : L.Stands) : L.Holds [] (s.serveRest q m) := by
  induction m generalizing s with
  | zero => exact h
  | succ m ih =>
    unfold State.serveRest
    split
    · exact h
    · exact ih (h.serveFront hL.1 (DeviceLaw.carriedBy_nil hL.2))

theorem DeviceLaw.Holds.settle (h : L.Holds [] s) (hL : L.Stands) : L.Holds [] (s.settle q) := by
  unfold State.settle
  split
  · exact h
  · exact .serveRest _ (.serveMet _ h.endTurns hL) hL

/-! ### Rows that make requests -/

theorem DeviceLaw.Holds.setClock {a : SetClockArgs} (h : L.Holds [p] s) (hL : L.Stands) :
    L.Holds [p] (Machine.setClock p a s).1 := by
  unfold Machine.setClock
  split
  · exact h
  · rename_i c hc
    exact DeviceLaw.Holds.enterMinute (q := some p) (h.setClockTo (inRange_of_setClockOf hc)) hL

theorem DeviceLaw.Holds.activate {a : NumberArgs} (h : L.Holds [p] s) (hL : L.Stands) :
    L.Holds [p] (Machine.activate p a s).1 := by
  unfold Machine.activate
  split
  · exact h
  · exact (h.runSelection hL.1 fun u hu => by simpa [hL.2, eq_comm, Decision.selection] using hu).applyResult

theorem DeviceLaw.Holds.commandEffect (h : L.Holds [p] s) (hL : L.Stands)
    (hi : portOf i = some p) : L.Holds [p] (commandEffect i s).1 := by
  unfold Machine.commandEffect
  split
  · obtain rfl := Option.some.inj hi
    exact h.judgePayload fun _ => h.setClock hL
  · obtain rfl := Option.some.inj hi
    exact h.judgePayload fun _ => h.activate hL
  · cases hb : Machine.plainCommand i with
    | none => exact h
    | some body => exact h.plainCommand hb

theorem DeviceLaw.Holds.tick (h : L.Holds [] s) (hL : L.Stands) : L.Holds [] s.tick := by
  have h1 := h.advanceClock
  unfold State.tick
  split <;> rename_i hq <;> rw [hq] at h1
  · exact DeviceLaw.Holds.enterMinute (q := none) h1 hL
  · exact h1

theorem DeviceLaw.Holds.takeEnter {d : DoorId} {c : Credential} (h : L.Holds [] s) (hL : L.Stands) :
    L.Holds [] (s.takeEnter d c) := by
  have h1 : (s.enterStage d c).Settles (L.Holds []) := h.enterStage
  unfold State.takeEnter
  split <;> rename_i hq
  · rwa [hq] at h1
  · exact (h.checkRights hL.1 (by simp [hL.2])).endContractor
  · exact (h.checkRights hL.1 (by simp [hL.2])).endEscort

/-! ### A port takes a command -/

theorem portOf_decodeCommand (p : Authority) (code : Byte) (bytes : List Byte) :
    portOf (decodeCommand p code bytes) = some p := by
  unfold decodeCommand
  split <;> rfl

theorem State.carriers_of_idle (hw : s.waiting = []) : s.carriers = [] := by
  rw [State.carriers, hw, List.filterMap_nil]

/-- The command that a port may take from its buffer is taken, or the port is in order as it is. -/
theorem DeviceLaw.Holds.takeHeld (htake : L.Holds [p] (s.reserveReply p)) (hnone : s.frameToTake p = none → L.Holds [] s)
    (hL : L.Stands) : L.Holds [] (s.takeHeld p) := by
  unfold State.takeHeld
  split
  · exact DeviceLaw.Holds.settle
      (htake.carryOut fun _ hu => hu.commandEffect hL (portOf_decodeCommand ..)) hL
  · exact hnone ‹_›

/-- The receiver leaves the reply, the transmitter and the queue of its port. -/
theorem Port.completeFrame_sends (q : Port) (bytes : List Byte) (lost : Bool) :
    (q.completeFrame bytes lost).reply = q.reply ∧ (q.completeFrame bytes lost).transmitter = q.transmitter ∧
      (q.completeFrame bytes lost).queue = q.queue := by
  unfold Port.completeFrame
  dsimp only
  repeat' split
  all_goals exact ⟨rfl, rfl, rfl⟩

theorem Port.receive_sends (q : Port) (b : Byte) :
    (q.receive b).reply = q.reply ∧ (q.receive b).transmitter = q.transmitter ∧ (q.receive b).queue = q.queue := by
  unfold Port.receive
  split
  · split <;> exact ⟨rfl, rfl, rfl⟩
  · dsimp only
    split
    · split
      · exact ⟨rfl, rfl, rfl⟩
      · split
        · exact q.completeFrame_sends _ _
        · exact ⟨rfl, rfl, rfl⟩
    · exact ⟨rfl, rfl, rfl⟩

theorem DeviceLaw.Holds.receiveByte {b : Byte} (h : L.Holds [] s) (hw : s.waiting = []) (hL : L.Stands) :
    L.Holds [] (State.receiveByte p s b) := by
  obtain ⟨hreply, htr, hqueue⟩ := (s.port p).receive_sends b
  have hb : (s.port p).Bounded → ((s.port p).receive b).Bounded := fun hq => by
    unfold Port.Bounded Port.routineHeld at *
    rwa [hqueue]
  refine DeviceLaw.Holds.takeHeld (h.reserveReply (by simp [hL.2]) hb) (fun hnone => h.setPort hb
    (fun _ ho _ => ⟨⟨?_, ?_⟩, ?_⟩) (by simp [hL.2])) hL
  · rw [hreply, htr]
    exact ho.1
  · intro hne hr
    obtain ⟨f, hf⟩ := Option.ne_none_iff_exists'.1 hne
    simp [State.frameToTake, hf, hr] at hnone
  · rw [State.carriers_of_idle hw]
    exact nofun

theorem State.receiveByte_waiting {b : Byte} (hw : s.waiting = []) : (State.receiveByte p s b).waiting = [] := by
  unfold State.receiveByte State.takeHeld
  split
  · exact State.settle_waiting ..
  · exact hw

/-! ### Rows and steps -/

theorem State.reset_settingsInRange : State.reset.settingsInRange :=
  ⟨nofun, ⟨by decide, by decide, by decide, by decide, by decide, by decide⟩, fun n => by simp,
    fun d => by simp [Door.initial]⟩

/-- Right after power-on the laws hold, whatever was before (R179). -/
theorem DeviceLaw.Holds.powerOn (ht : execPowerOn s = .next t) (hL : L.Stands) : L.Holds [] t := by
  obtain rfl := Host.Outcome.next.inj ht
  cases L with
  | queues => exact fun p => by cases p <;> exact ⟨Nat.zero_le _, Nat.zero_le _⟩
  | settings => exact State.reset_settingsInRange
  | ports => exact ⟨fun p => by cases p <;> exact ⟨fun h => absurd rfl h, fun h => absurd rfl h⟩, nofun⟩
  | cache => exact ⟨Nat.zero_le _, List.Pairwise.nil⟩
  | shrinks c => exact hL.1.elim
  | sends p f => exact nomatch hL.2

/-- Every row keeps the laws. -/
theorem DeviceLaw.Holds.exec (h : L.Holds [] s) (hw : s.waiting = []) (hL : L.Stands) (ht : Machine.exec i s = .next t) :
    L.Holds [] t := by
  have hc : ∀ p, p ∉ L.held ++ ([] ++ s.carriers) := by simp [State.carriers_of_idle hw, hL.2]
  cases hr : makesRequests i with
  | false =>
    by_cases hi : i = .powerOn
    · subst hi
      exact .powerOn ht hL
    · exact h.exec_plain hr hi (fun p hp => absurd hp (hc p)) ht
  | true =>
    cases i with
    | setClock p a =>
      obtain rfl := Host.Outcome.next.inj ht
      exact .settle (h.takeCommand (hc p) fun _ hu => hu.judgePayload fun _ => hu.setClock hL) hL
    | activate p a =>
      obtain rfl := Host.Outcome.next.inj ht
      exact .settle (h.takeCommand (hc p) fun _ hu => hu.judgePayload fun _ => hu.activate hL) hL
    | secondTick =>
      obtain rfl := Host.Outcome.next.inj ht
      exact (h.tick hL).settle hL
    | selectionDeadline n =>
      obtain rfl := Host.Outcome.next.inj ht
      refine DeviceLaw.Holds.settle ?_ hL
      split
      · exact h
      · split
        · exact (h.runSelection hL.1 (by simp [hL.2])).applyResult
        · exact h
    | presentEnter d c =>
      obtain rfl := Host.Outcome.next.inj ht
      exact .settle (h.answerPresent fun _ hu => hu.takeEnter hL) hL
    | commandFrameReceived p bytes =>
      obtain rfl := Host.Outcome.next.inj ht
      have hall : L.Holds [] (bytes.foldl (State.receiveByte p) s) ∧ (bytes.foldl (State.receiveByte p) s).waiting = [] :=
        foldl_keeps (I := fun u : State => L.Holds [] u ∧ u.waiting = []) ⟨h, hw⟩ fun _ _ _ hu =>
          ⟨hu.1.receiveByte hu.2 hL, State.receiveByte_waiting hu.2⟩
      exact hall.1
    | frameFinished p ready =>
      obtain rfl := Host.Outcome.next.inj ht
      split
      · exact h
      · rename_i t ht
        obtain ⟨htake, hnone⟩ := h.finishFrame (hc p) ht
        exact htake.takeHeld hnone hL
    | _ => exact Bool.noConfusion hr

/-- Every step keeps the laws. -/
theorem DeviceLaw.Holds.step (h : L.Holds [] s) (hw : s.waiting = []) (hL : L.Stands) (ht : Machine.step s = .next t) :
    L.Holds [] t := by
  unfold Machine.step at ht
  split at ht
  · obtain rfl := Host.Outcome.next.inj ht
    exact h
  · rename_i c rest _
    have h1 : L.Holds [] { s with pending := rest } := h.of_tables fun g hg => by
      cases g <;> first
        | rfl
        | exact absurd (by decide) hg
    exact h1.exec hw hL ht

end Sys2Proof.Machine

/-! SUPPORT. What each row of the opcode table may change, taken while decisions wait: the parts that `mayChange` lists,
and the line, where it begins a decision or clears the estate (R38, spec/95_what_each_step_holds.md). -/

namespace Sys2Proof.Machine

open State (changesOnly_refl)

variable {fs gs : List Field} {s t : State} {i : Instr} {p : Authority}

/-! ### The clock -/

/-- The parts that a day change may change (R115). -/
def dayFields : List Field := [.spaces, .workOrders, .permits, .doors, .slots, .ports]

theorem State.dayChange_changes (s : State) (day : Nat) : s.changesOnly dayFields (s.dayChange day) := by
  refine State.changesOnly.foldl (changesOnly_refl _ s) fun u n _ => ?_
  unfold expireOf
  split
  · split
    · exact changesOnly_refl _ u
    · split
      · exact (changesOnly_refl _ u).closeWorkOrder (by decide)
      · exact changesOnly_refl _ u
    · exact changesOnly_refl _ u
  · exact changesOnly_refl _ u

theorem State.advanceClock_changes (s : State) : s.changesOnly (.count :: .clock :: dayFields) s.advanceClock.1 := by
  have h1 : ∀ v, s.changesOnly (.count :: .clock :: dayFields) { s with count := s.count + 1, clock := v } := fun v =>
    ((changesOnly_refl _ s).count_update (v := s.count + 1) (by decide)).clock_update (by decide)
  unfold State.advanceClock
  dsimp only
  split
  · exact h1 _
  · exact h1 _
  · exact h1 _
  · dsimp only
    exact (h1 _).trans ((State.dayChange_changes _ _).mono (by decide))

theorem State.setClockTo_changes (s : State) (c : ClockTime) : s.changesOnly (.clock :: dayFields) (s.setClockTo c) := by
  have h1 : s.changesOnly (.clock :: dayFields) { s with clock := some c } :=
    (changesOnly_refl _ s).clock_update (by decide)
  unfold State.setClockTo
  dsimp only
  split
  · exact h1
  · exact h1.trans ((State.dayChange_changes _ _).mono (by decide))

/-! ### The reports of the doors and the turns of the lanes -/

theorem State.missPoll_changes (s : State) (l : LaneNo) : s.changesOnly laneFields (s.missPoll l) := by
  have h1 : s.changesOnly laneFields (s.endTurn l) := (changesOnly_refl _ s).setLane (by decide)
  unfold State.missPoll
  dsimp only
  split
  · exact h1
  · exact h1
  · split
    · exact h1.setDoor (by decide)
    · have h2 : s.changesOnly laneFields ((((s.endTurn l).setDoor (s.turnDoor l)
          { (s.endTurn l).door (s.turnDoor l) with presence := .failed, misses := 3 }).notify .sec
          (.doorFailed (s.turnDoor l) ((s.endTurn l).door (s.turnDoor l)).binding)).cancelPairing true (s.turnDoor l)) :=
        ((h1.setDoor (by decide)).notify (by decide)).cancelPairing (by decide)
      unfold State.failDoor
      dsimp only
      split
      · exact (h2.removeOpen (by decide)).closePassages (by decide)
      · exact h2

theorem State.answerPoll_changes {d : DoorId} {report : State → State} (hg : ∀ f ∈ laneFields, f ∈ gs)
    (hr : ∀ u : State, u.changesOnly gs (report u)) : s.changesOnly gs (s.answerPoll d report) := by
  unfold State.answerPoll
  split
  · split
    · have h1 : s.changesOnly laneFields (s.endTurn d.lane) := (changesOnly_refl _ s).setLane (by decide)
      exact ((h1.trans ((State.announce_changes _ d).mono (by decide))).mono hg).trans (hr _)
    · exact (s.missPoll_changes _).mono hg
  · exact changesOnly_refl _ s

theorem State.answerPresent_changes {d : DoorId} {c : Credential} {report : State → State}
    (hg : ∀ f ∈ laneFields, f ∈ gs) (hr : ∀ u : State, u.changesOnly gs (report u)) :
    s.changesOnly gs (s.answerPresent d c report) := by
  unfold State.answerPresent
  split
  · split
    · exact (s.missPoll_changes _).mono hg
    · exact changesOnly_refl _ s
  · exact State.answerPoll_changes hg hr

theorem State.exitIdle_changes (s : State) (d : DoorId) (b : Binding) (c : Credential) :
    s.changesOnly laneFields (s.exitIdle d b c) := by
  have hopen : ∀ (u : State) (x : Option PermitNo) (m : OpenMark), u.changesOnly laneFields (u.openExit d c x m) :=
    fun u _ _ => ((changesOnly_refl _ u).setDoor (by decide)).addVerdict (by decide)
  unfold State.exitIdle
  split
  · exact (State.changesOnly.foldl (changesOnly_refl _ s) fun u _ _ =>
      (changesOnly_refl _ u).endAdmission (by decide)).trans (hopen _ _ _)
  · exact (hopen s _ _).notify (by decide)

theorem State.takeExit_changes (s : State) (d : DoorId) (c : Credential) : s.changesOnly laneFields (s.takeExit d c) := by
  have hbusy : ∀ b, s.changesOnly laneFields (s.exitBusy d b c) := fun _ =>
    ((changesOnly_refl _ s).addVerdict (by decide)).notify (by decide)
  unfold State.takeExit
  split
  · exact (changesOnly_refl _ s).denyPresentation (by decide)
  · split
    · exact s.exitIdle_changes _ _ _
    · split
      · exact ((changesOnly_refl _ s).denyPairing (by decide)).trans (State.exitIdle_changes _ _ _ _)
      · exact hbusy _
    · split
      · exact (changesOnly_refl _ s).addVerdict (by decide)
      · exact hbusy _
    all_goals exact hbusy _

theorem State.takeCheckIn_changes (s : State) (d : DoorId) (c : Credential) :
    s.changesOnly laneFields (s.takeCheckIn d c) := by
  have hdeny : ∀ code, s.changesOnly laneFields (s.denyPresentation d c code) := fun _ =>
    (changesOnly_refl _ s).denyPresentation (by decide)
  have hjudge : s.changesOnly laneFields (s.judgeCheckIn d c) := by
    unfold State.judgeCheckIn
    split
    · exact hdeny _
    · split
      · exact hdeny _
      · split
        · exact hdeny _
        · split
          · split
            · exact (((changesOnly_refl _ s).addVerdict (by decide)).setPermit (by decide)).notifyBoth (by decide)
            · exact hdeny _
          all_goals exact hdeny _
  unfold State.takeCheckIn
  split
  · split
    · exact ((changesOnly_refl _ s).denyPairing (by decide)).denyPresentation (by decide)
    · exact hdeny _
  all_goals exact hjudge

theorem State.takePassage_changes (s : State) (d : DoorId) : s.changesOnly laneFields (s.takePassage d) := by
  unfold State.takePassage
  split
  · exact (State.changesOnly.foldl (changesOnly_refl _ s) fun u _ _ =>
      (changesOnly_refl _ u).enterPermit (by decide)).endAdmission (by decide)
  · refine State.changesOnly.endAdmission ?_ (by decide)
    unfold State.passExit
    split
    · split
      · exact ((changesOnly_refl _ s).notifyBoth (by decide)).exitPermit (by decide)
      · exact changesOnly_refl _ s
    · exact changesOnly_refl _ s
  · exact (changesOnly_refl _ s).endAdmission (by decide)
  · exact (changesOnly_refl _ s).notify (by decide)

theorem State.resetLaneTo_changes (s : State) (l : LaneNo) : s.changesOnly laneFields (s.resetLaneTo l) := by
  refine State.changesOnly.setLane (State.changesOnly.foldl (State.changesOnly.foldl
    (State.changesOnly.closePassages (State.changesOnly.foldl (changesOnly_refl _ s) ?_) (by decide)) ?_) ?_) (by decide)
  · exact fun u _ _ => (changesOnly_refl _ u).setDoor (by decide)
  · exact fun u _ _ => (changesOnly_refl _ u).cancelPairing (by decide)
  · exact fun u _ _ => (changesOnly_refl _ u).setDoor (by decide)

/-! ### An Enter presentation, up to its requests -/

theorem State.enterStage_changes (s : State) (d : DoorId) (c : Credential) :
    (s.enterStage d c).Settles (s.changesOnly laneFields) := by
  have hdeny : ∀ code, (s.settleDeny d c code).Settles (s.changesOnly laneFields) := fun _ =>
    (changesOnly_refl _ s).denyPresentation (by decide)
  have hbreak : ∀ k, ((s.breakPairing k).settleDeny d c .pairingBroken).Settles (s.changesOnly laneFields) := fun _ =>
    ((changesOnly_refl _ s).denyPairing (by decide)).denyPresentation (by decide)
  have hescort : ∀ k x r v n q, (s.escortStep d k x r v c n q).Settles (s.changesOnly laneFields) := by
    intro k x r v n q
    unfold State.escortStep
    repeat' split
    all_goals first
      | exact hdeny _
      | exact trivial
  have hstep : ∀ k x, (EnterStage.settled (s.contractorStep d k x c)).Settles (s.changesOnly laneFields) := by
    intro k x
    show s.changesOnly laneFields (s.contractorStep d k x c)
    unfold State.contractorStep
    split
    · exact (changesOnly_refl _ s).denyPresentation (by decide)
    · exact (changesOnly_refl _ s).setSlot (by decide)
  unfold State.enterStage
  split
  · unfold State.enterIdle State.enterWithPermit
    repeat' split
    all_goals first
      | exact hdeny _
      | exact trivial
  · unfold State.enterPairingDoor
    split
    · split
      · exact changesOnly_refl _ s
      · split
        · split
          · exact hescort ..
          · exact hbreak _
        · split
          · exact hstep _ _
          · exact hbreak _
        · split
          · split
            · split
              · exact hescort ..
              · exact hbreak _
            · exact hbreak _
          · exact hbreak _
        · exact hdeny _
    · exact hdeny _
  all_goals exact hdeny _

/-! ### Commands that make no request -/

/-- A part of the device and the line that a command may change; the line only where it clears the estate (R38, R173). -/
def clearFields : Instr → List Field
  | .estateClear .. => [.waiting]
  | _ => []

theorem State.stageSpace_changes (a : StageSpaceArgs) : s.changesOnly [.spaces, .ports] (stageSpace p a s).1 := by
  unfold stageSpace
  split
  · split
    · exact changesOnly_refl _ s
    · split
      · exact changesOnly_refl _ s
      · split
        · exact changesOnly_refl _ s
        · split
          · exact changesOnly_refl _ s
          · dsimp only
            split
            · exact ((changesOnly_refl _ s).setSpace (by decide)).applySwitch (by decide)
            · exact (changesOnly_refl _ s).setSpace (by decide)
  · exact changesOnly_refl _ s

theorem State.remoteConsent_changes (a : RemoteConsentArgs) :
    s.changesOnly [.spaces, .occupancy, .workOrders, .permits, .doors, .slots, .ports] (remoteConsent p a s).1 := by
  unfold remoteConsent
  split
  · exact changesOnly_refl _ s
  · split
    · exact changesOnly_refl _ s
    · split
      · exact changesOnly_refl _ s
      · split
        · dsimp only
          split
          · unfold State.grantConsent
            split
            · exact (changesOnly_refl _ s).denyPairing (by decide)
            · exact ((changesOnly_refl _ s).endPairing (by decide)).openEnter (by decide)
          · exact (changesOnly_refl _ s).denyPairing (by decide)
        · exact changesOnly_refl _ s

theorem State.revoke_changes (a : NumberArgs) :
    s.changesOnly [.spaces, .permits, .doors, .slots, .ports] (revoke p a s).1 := by
  unfold revoke
  dsimp only
  split
  · exact changesOnly_refl _ s
  · split
    · exact changesOnly_refl _ s
    · unfold State.revokePermit
      dsimp only
      split
      · exact (changesOnly_refl _ s).setPermit (by decide)
      · split
        · exact ((changesOnly_refl _ s).abandonHolding (by decide)).setPermit (by decide)
        · exact ((changesOnly_refl _ s).abandonHolding (by decide)).freePermit (by decide)

theorem State.forceExit_changes (a : NumberArgs) :
    s.changesOnly [.occupancy, .workOrders, .permits, .doors, .ports] (forceExit p a s).1 := by
  unfold forceExit
  split
  · exact changesOnly_refl _ s
  · dsimp only
    split
    · exact changesOnly_refl _ s
    · split
      · refine State.changesOnly.exitPermit (State.changesOnly.notifyBoth
          (State.changesOnly.foldl (changesOnly_refl _ s) fun u d _ => ?_) (by decide)) (by decide)
        unfold dropExitHold
        dsimp only
        split
        · split
          · exact (changesOnly_refl _ u).setDoor (by decide)
          · exact changesOnly_refl _ u
        · exact changesOnly_refl _ u
      all_goals exact changesOnly_refl _ s

theorem State.issuePermit_changes (a : IssuePermitArgs) : s.changesOnly [.permits, .ports] (issuePermit p a s).1 := by
  unfold issuePermit
  split
  · split
    · exact changesOnly_refl _ s
    · split
      · exact changesOnly_refl _ s
      · split
        · exact changesOnly_refl _ s
        · split
          · exact changesOnly_refl _ s
          · split
            · exact changesOnly_refl _ s
            · split
              · exact changesOnly_refl _ s
              · exact (changesOnly_refl _ s).setPermit (by decide)
  · exact changesOnly_refl _ s

theorem State.setHold_changes (hold : Bool) (g : Nat → Slot → Slot) (a : NumberArgs) :
    s.changesOnly [.lanes, .slots, .ports] (setHold hold g p a s).1 := by
  unfold setHold
  split
  · exact changesOnly_refl _ s
  · split
    · exact changesOnly_refl _ s
    · dsimp only
      split
      · exact changesOnly_refl _ s
      · exact ((changesOnly_refl _ s).setLane (by decide)).slots_update (by decide)

/-- The commands of the space directory and of the work orders that write one record. -/
theorem State.defineSpace_changes (a : DescriptorArgs) : s.changesOnly [.spaces, .ports] (defineSpace p a s).1 := by
  unfold defineSpace
  split
  · exact changesOnly_refl _ s
  · split
    · exact changesOnly_refl _ s
    · split
      · exact changesOnly_refl _ s
      · split
        · exact changesOnly_refl _ s
        · split
          · exact changesOnly_refl _ s
          · exact (changesOnly_refl _ s).setSpace (by decide)

theorem State.cancelStage_changes (a : NumberArgs) : s.changesOnly [.spaces, .ports] (cancelStage p a s).1 := by
  unfold cancelStage
  split
  · exact changesOnly_refl _ s
  · split
    · exact changesOnly_refl _ s
    · split
      · exact changesOnly_refl _ s
      · exact (changesOnly_refl _ s).setSpace (by decide)

theorem State.retireSpace_changes (a : NumberArgs) : s.changesOnly [.spaces, .ports] (retireSpace p a s).1 := by
  unfold retireSpace
  split
  · exact changesOnly_refl _ s
  · split
    · exact changesOnly_refl _ s
    · split
      · exact changesOnly_refl _ s
      · split
        · exact changesOnly_refl _ s
        · exact (changesOnly_refl _ s).setSpace (by decide)

theorem State.createWorkOrder_changes (a : CreateWorkOrderArgs) :
    s.changesOnly [.workOrders, .ports] (createWorkOrder p a s).1 := by
  unfold createWorkOrder
  split
  · exact changesOnly_refl _ s
  · split
    · exact changesOnly_refl _ s
    · split
      · exact changesOnly_refl _ s
      · split
        · exact changesOnly_refl _ s
        · exact (changesOnly_refl _ s).setWorkOrder (by decide)

theorem State.endorse_changes (a : EndorseArgs) : s.changesOnly [.workOrders, .ports] (endorse p a s).1 := by
  unfold endorse
  split
  · split
    · exact changesOnly_refl _ s
    · split
      · exact changesOnly_refl _ s
      · split
        · exact changesOnly_refl _ s
        · exact (changesOnly_refl _ s).setWorkOrder (by decide)
  · exact changesOnly_refl _ s

theorem State.withdraw_changes (a : NumberArgs) :
    s.changesOnly [.spaces, .workOrders, .permits, .doors, .slots, .ports] (withdraw p a s).1 := by
  unfold withdraw
  split
  · exact changesOnly_refl _ s
  · split
    · exact changesOnly_refl _ s
    · split
      · exact changesOnly_refl _ s
      · split
        · exact changesOnly_refl _ s
        · exact (changesOnly_refl _ s).closeWorkOrder (by decide)

theorem State.bindDoor_changes (a : BindDoorArgs) : s.changesOnly [.doors, .ports] (bindDoor p a s).1 := by
  unfold bindDoor
  split
  · exact changesOnly_refl _ s
  · split
    · dsimp only
      split
      · exact changesOnly_refl _ s
      · exact (changesOnly_refl _ s).setDoor (by decide)
    · exact changesOnly_refl _ s

theorem State.resetLane_changes (a : NumberArgs) : s.changesOnly laneFields (resetLane p a s).1 := by
  unfold resetLane
  split
  · exact changesOnly_refl _ s
  · split
    · exact changesOnly_refl _ s
    · exact s.resetLaneTo_changes _

/-- The commands of the whole device. -/
theorem State.setPosture_changes (a : SetPostureArgs) : s.changesOnly
    [.posture, .spaces, .occupancy, .workOrders, .permits, .doors, .slots, .lanes, .ports] (setPosture p a s).1 := by
  unfold setPosture
  split
  · exact changesOnly_refl _ s
  · split
    · exact changesOnly_refl _ s
    · exact (changesOnly_refl _ s).changePosture (by decide)

theorem State.setSiteAllowance_changes (a : SetSiteAllowanceArgs) :
    s.changesOnly [.sites, .occupancy, .ports] (setSiteAllowance p a s).1 := by
  unfold setSiteAllowance
  split
  · exact changesOnly_refl _ s
  · split
    · exact changesOnly_refl _ s
    · exact ((changesOnly_refl _ s).setSite (by decide)).evaluateWhere (by decide)

theorem State.setTimings_changes (a : SetTimingsArgs) : s.changesOnly [.timings, .ports] (setTimings p a s).1 := by
  unfold setTimings
  split
  · exact changesOnly_refl _ s
  · exact (changesOnly_refl _ s).timings_update (by decide)

theorem judgePayload_changes {α : Type} {a : Payload α} {body : α → State → State × Answer}
    (hb : ∀ x, s.changesOnly fs (body x s).1) : s.changesOnly fs (judgePayload a body s).1 := by
  cases a with
  | fields x => exact hb x
  | malformed _ => exact changesOnly_refl _ s

/-- What a command that makes no request may change. -/
theorem plainCommand_changes {body : State → State × Answer} (hb : plainCommand i = some body) (s : State) :
    s.changesOnly (clearFields i ++ mayChange i) (body s).1 := by
  cases i with
  | writeBlock p a => cases hb; exact judgePayload_changes fun _ => (changesOnly_refl _ s).writeBlock (by simp [mayChange])
  | freeBlocks p a => cases hb; exact judgePayload_changes fun _ => (changesOnly_refl _ s).freeBlocks (by simp [mayChange])
  | readBlock p a =>
    cases hb
    exact judgePayload_changes fun x => by rw [readBlock_state]; exact changesOnly_refl _ s
  | defineSpace p a => cases hb; exact judgePayload_changes fun _ => State.defineSpace_changes _
  | stageSpace p a => cases hb; exact judgePayload_changes fun _ => State.stageSpace_changes _
  | cancelStage p a => cases hb; exact judgePayload_changes fun _ => State.cancelStage_changes _
  | retireSpace p a => cases hb; exact judgePayload_changes fun _ => State.retireSpace_changes _
  | readSpace p a =>
    cases hb
    exact judgePayload_changes fun x => by rw [readSpace_state]; exact changesOnly_refl _ s
  | purge p a => cases hb; exact judgePayload_changes fun _ => (changesOnly_refl _ s).purge (by simp [mayChange])
  | setPosture p a => cases hb; exact judgePayload_changes fun _ => State.setPosture_changes _
  | setSiteAllowance p a => cases hb; exact judgePayload_changes fun _ => State.setSiteAllowance_changes _
  | forceExit p a => cases hb; exact judgePayload_changes fun _ => State.forceExit_changes _
  | readRoom p a =>
    cases hb
    exact judgePayload_changes fun x => by rw [readRoom_state]; exact changesOnly_refl _ s
  | createWorkOrder p a => cases hb; exact judgePayload_changes fun _ => State.createWorkOrder_changes _
  | endorse p a => cases hb; exact judgePayload_changes fun _ => State.endorse_changes _
  | withdraw p a => cases hb; exact judgePayload_changes fun _ => State.withdraw_changes _
  | readWorkOrder p a =>
    cases hb
    exact judgePayload_changes fun x => by rw [readWorkOrder_state]; exact changesOnly_refl _ s
  | issuePermit p a => cases hb; exact judgePayload_changes fun _ => State.issuePermit_changes _
  | revoke p a => cases hb; exact judgePayload_changes fun _ => State.revoke_changes _
  | readPermit p a =>
    cases hb
    exact judgePayload_changes fun x => by rw [readPermit_state]; exact changesOnly_refl _ s
  | bindDoor p a => cases hb; exact judgePayload_changes fun _ => State.bindDoor_changes _
  | readDoor p a =>
    cases hb
    exact judgePayload_changes fun x => by rw [readDoor_state]; exact changesOnly_refl _ s
  | remoteConsent p a => cases hb; exact judgePayload_changes fun _ => State.remoteConsent_changes _
  | holdLane p a => cases hb; exact judgePayload_changes fun _ => State.setHold_changes _ _ _
  | releaseLane p a => cases hb; exact judgePayload_changes fun _ => State.setHold_changes _ _ _
  | resetLane p a => cases hb; exact judgePayload_changes fun _ => State.resetLane_changes _
  | setTimings p a => cases hb; exact judgePayload_changes fun _ => State.setTimings_changes _
  | readStatus p a =>
    cases hb
    exact judgePayload_changes fun x => by rw [readStatus_state]; exact changesOnly_refl _ s
  | estateClear p a =>
    cases hb
    exact judgePayload_changes fun _ => (changesOnly_refl _ s).estateClear (.inr (by simp [clearFields])) (by simp [mayChange])
  | unknownCommand p code bytes => cases hb; exact changesOnly_refl _ s
  | setClock p a => cases a <;> cases hb; exact changesOnly_refl _ s
  | activate p a => cases a <;> cases hb; exact changesOnly_refl _ s
  | _ => cases hb

/-! ### Rows that make no request -/

theorem carryOut_changes {code : Byte} {body : State → State × Answer} (hf : Field.ports ∈ fs)
    (hb : ∀ u : State, u.changesOnly fs (body u).1) : s.changesOnly fs (carryOut p code body s) :=
  (((changesOnly_refl _ s).reserveReply hf).trans (hb _)).makeReply hf

theorem takeCommand_changes {code : Byte} {payload : List Byte} {body : State → State × Answer} (hf : Field.ports ∈ fs)
    (hb : ∀ u : State, u.changesOnly fs (body u).1) : s.changesOnly fs (takeCommand p code payload body s) := by
  unfold takeCommand
  dsimp only
  split
  · split
    · exact (changesOnly_refl _ s).setPort hf
    · exact carryOut_changes hf hb
  · exact changesOnly_refl _ s

theorem State.stepTimeout_changes (s : State) (n : SlotNo) (k : Slot) :
    s.changesOnly [.spaces, .doors, .slots, .ports] (s.stepTimeout n k) := by
  unfold State.stepTimeout
  split
  · split
    · exact (((changesOnly_refl _ s).setSlot (by decide)).setDoor (by decide)).notify (by decide)
    · exact (changesOnly_refl _ s).denyPairing (by decide)
  · exact (changesOnly_refl _ s).denyPairing (by decide)

theorem execVerdictSent_changes {l : LaneNo} (ht : execVerdictSent l s = .next t) :
    s.changesOnly [.doors, .lanes] t := by
  obtain rfl := Host.Outcome.next.inj ht
  split
  · rename_i v _
    have hv : s.changesOnly [.doors, .lanes] (s.verdictGone l v) := by
      unfold State.verdictGone
      dsimp only
      split
      · split
        · exact (changesOnly_refl _ s).setDoor (by decide)
        · exact changesOnly_refl _ s
      · exact changesOnly_refl _ s
    exact (hv.setLane (by decide)).sendNext (by decide)
  all_goals exact changesOnly_refl _ s

/-- What an event that makes no request may change. -/
theorem exec_event_changes (hb : plainCommand i = none) (hr : makesRequests i = false) (hi : i ≠ .powerOn)
    (ht : exec i s = .next t) : s.changesOnly (mayChange i) t := by
  cases i with
  | powerOn => exact absurd rfl hi
  | frameGapTimeout p => obtain rfl := Host.Outcome.next.inj ht; exact (changesOnly_refl _ s).setPort (by simp [mayChange])
  | portBreak p => obtain rfl := Host.Outcome.next.inj ht; exact (changesOnly_refl _ s).setPort (by simp [mayChange])
  | readyLineAsserted p =>
    obtain rfl := Host.Outcome.next.inj ht
    exact (changesOnly_refl _ s).setPort (by simp [mayChange])
  | framingError p => obtain rfl := Host.Outcome.next.inj ht; exact (changesOnly_refl _ s).setPort (by simp [mayChange])
  | badLength p n =>
    obtain rfl := Host.Outcome.next.inj ht
    split
    · exact (changesOnly_refl _ s).setPort (by simp [mayChange])
    · exact changesOnly_refl _ s
  | passageDeadline d =>
    obtain rfl := Host.Outcome.next.inj ht
    repeat' split
    all_goals first
      | exact changesOnly_refl _ s
      | exact (changesOnly_refl _ s).closePassages (by simp [mayChange])
  | stepDeadline k =>
    obtain rfl := Host.Outcome.next.inj ht
    split
    · exact changesOnly_refl _ s
    · split
      · exact s.stepTimeout_changes _ _
      · exact changesOnly_refl _ s
  | consentDeadline k =>
    obtain rfl := Host.Outcome.next.inj ht
    split
    · exact changesOnly_refl _ s
    · split
      · exact (changesOnly_refl _ s).denyPairing (by simp [mayChange])
      · exact changesOnly_refl _ s
  | checkinDeadline n =>
    obtain rfl := Host.Outcome.next.inj ht
    split
    · exact changesOnly_refl _ s
    · split
      · split
        · exact ((changesOnly_refl _ s).setPermit (by simp [mayChange])).notifyBoth (by simp [mayChange])
        · exact changesOnly_refl _ s
      all_goals exact changesOnly_refl _ s
  | stayDeadline n =>
    obtain rfl := Host.Outcome.next.inj ht
    split
    · exact changesOnly_refl _ s
    · split
      · split
        · exact ((changesOnly_refl _ s).setPermit (by simp [mayChange])).notifyBoth (by simp [mayChange])
        · exact changesOnly_refl _ s
      all_goals exact changesOnly_refl _ s
  | switchDeadline n =>
    obtain rfl := Host.Outcome.next.inj ht
    split
    · exact changesOnly_refl _ s
    · split
      · exact (State.changesOnly.foldl (changesOnly_refl _ s) fun u _ _ =>
          (changesOnly_refl _ u).denyPairing (by simp [mayChange])).applySwitch (by simp [mayChange])
      · exact changesOnly_refl _ s
  | pollTurn l =>
    obtain rfl := Host.Outcome.next.inj ht
    split
    · exact ((changesOnly_refl _ s).setLane (by simp [mayChange])).sendNext (by simp [mayChange])
    · exact changesOnly_refl _ s
  | verdictSent l => exact execVerdictSent_changes ht
  | cancelSent l =>
    obtain rfl := Host.Outcome.next.inj ht
    split
    · exact ((changesOnly_refl _ s).setDoor (by simp [mayChange])).setLane (by simp [mayChange])
    · exact changesOnly_refl _ s
  | pollUnanswered l =>
    obtain rfl := Host.Outcome.next.inj ht
    split
    · exact s.missPoll_changes _
    · exact changesOnly_refl _ s
  | presentExit d c =>
    obtain rfl := Host.Outcome.next.inj ht
    exact State.answerPresent_changes (fun _ hf => hf) fun u => u.takeExit_changes _ _
  | presentCheckin d c =>
    obtain rfl := Host.Outcome.next.inj ht
    exact State.answerPresent_changes (fun _ hf => hf) fun u => u.takeCheckIn_changes _ _
  | passage d =>
    obtain rfl := Host.Outcome.next.inj ht
    exact State.answerPoll_changes (fun _ hf => hf) fun u => u.takePassage_changes _
  | nothing d =>
    obtain rfl := Host.Outcome.next.inj ht
    exact State.answerPoll_changes (fun _ hf => hf) fun u => changesOnly_refl _ u
  | laneBreakEnd l =>
    obtain rfl := Host.Outcome.next.inj ht
    split
    · exact (changesOnly_refl _ s).setLane (by simp [mayChange])
    · exact changesOnly_refl _ s
  | setClock p a => exact Bool.noConfusion hr
  | activate p a => exact Bool.noConfusion hr
  | presentEnter d c => exact Bool.noConfusion hr
  | selectionDeadline n => exact Bool.noConfusion hr
  | secondTick => exact Bool.noConfusion hr
  | commandFrameReceived p bytes => exact Bool.noConfusion hr
  | frameFinished p ready => exact Bool.noConfusion hr
  | _ => cases hb

theorem ports_mem_mayChange {body : State → State × Answer} (hb : plainCommand i = some body) :
    Field.ports ∈ clearFields i ++ mayChange i := by
  cases i <;> first
    | (apply List.mem_append_right; simp [mayChange, laneFields, commandFields]; done)
    | exact nomatch hb

/-- What a row that makes no request may change; the line only where the row clears the estate. -/
theorem exec_plain_changes (hr : makesRequests i = false) (hi : i ≠ .powerOn) (ht : exec i s = .next t) :
    s.changesOnly (clearFields i ++ mayChange i) t := by
  cases hb : plainCommand i with
  | none => exact (exec_event_changes hb hr hi ht).mono fun _ hf => List.mem_append_right _ hf
  | some body =>
    have hrow : rowEffect i s = some t := by
      cases i with
      | powerOn => cases hb
      | commandFrameReceived p bytes => cases hb
      | setClock p a => exact Bool.noConfusion hr
      | activate p a => exact Bool.noConfusion hr
      | presentEnter d c => exact Bool.noConfusion hr
      | selectionDeadline n => exact Bool.noConfusion hr
      | secondTick => exact Bool.noConfusion hr
      | frameFinished p ready => exact Bool.noConfusion hr
      | _ => exact stateAfter_eq.2 ht
    rcases rowEffect_of_plainCommand hb hr hrow with rfl | ⟨p, code, payload, rfl⟩
    · exact changesOnly_refl _ _
    · exact takeCommand_changes (ports_mem_mayChange hb) fun u => plainCommand_changes hb u

/-- An ESTATE CLEAR with no decision waiting leaves the line as it is. -/
theorem estateClear_idle (p : Authority) (payload : List Byte) (a : Payload NoArgs) (hw : s.waiting = []) :
    (takeCommand p 31 payload (judgePayload a (estateClear p)) s).waiting = s.waiting := by
  have hclear : (s.reserveReply p).changesOnly (mayChange (.estateClear p a))
      (judgePayload a (estateClear p) (s.reserveReply p)).1 :=
    judgePayload_changes fun _ => (changesOnly_refl _ _).estateClear (.inl hw) (by simp [mayChange])
  unfold takeCommand
  dsimp only
  split
  · split
    · rfl
    · exact hclear.same_waiting (by simp [mayChange])
  · rfl

/-- A row that makes no request leaves no decision waiting where none waited, and changes its own parts alone. -/
theorem exec_idle_changes (hr : makesRequests i = false) (hw : s.waiting = []) (ht : exec i s = .next t) :
    s.changesOnly (mayChange i) t ∧ t.waiting = [] := by
  by_cases hi : i = .powerOn
  · subst hi
    obtain rfl := Host.Outcome.next.inj ht
    refine ⟨fun g hg => ?_, rfl⟩
    cases g <;> first
      | rfl
      | exact hw.symm
      | exact absurd (by decide) hg
  · have hc := exec_plain_changes hr hi ht
    have hidle : t.waiting = [] := by
      by_cases hclear : clearFields i = []
      · rw [hclear] at hc
        have hmem : Field.waiting ∉ ([] : List Field) ++ mayChange i := by
          cases i <;> simp [mayChange, laneFields, commandFields]
        exact (hc.same_waiting hmem).trans hw
      · cases i with
        | estateClear p a =>
          obtain rfl := Host.Outcome.next.inj ht
          exact (estateClear_idle p _ a hw).trans hw
        | _ => exact absurd rfl hclear
    have hc' : s.changesOnly (.waiting :: mayChange i) t := hc.mono fun f hf => by
      rcases List.mem_append.1 hf with hf | hf
      · cases i <;> simp_all [clearFields]
      · exact List.mem_cons_of_mem _ hf
    exact ⟨hc'.of_waiting (hidle.trans hw.symm), hidle⟩

end Sys2Proof.Machine

/-! SUPPORT. No decision waits between two steps, and every step keeps the bounds of the device (R38, R62, R74, R88, R161,
R169, R170, R174, R176). -/

namespace Sys2Proof.Machine

open State (changesOnly_refl)

variable {s t : State} {i : Instr} {p : Authority}

theorem State.takeHeld_waiting (hw : s.waiting = []) : (s.takeHeld p).waiting = [] := by
  unfold State.takeHeld
  split
  · exact State.settle_waiting ..
  · exact hw

theorem State.finishFrame_waiting {ready : Bool} (h : s.finishFrame p ready = some t) : t.waiting = s.waiting := by
  unfold State.finishFrame at h
  split at h
  · exact nomatch h
  · obtain rfl := Option.some.inj h
    rfl

/-- Every row leaves no decision waiting where none waited (R38). -/
theorem exec_idle (hw : s.waiting = []) (ht : exec i s = .next t) : t.waiting = [] := by
  cases hr : makesRequests i with
  | false => exact (exec_idle_changes hr hw ht).2
  | true =>
    cases i with
    | commandFrameReceived p bytes =>
      obtain rfl := Host.Outcome.next.inj ht
      exact foldl_keeps (I := fun u : State => u.waiting = []) hw fun _ _ _ hu => State.receiveByte_waiting hu
    | frameFinished p ready =>
      obtain rfl := Host.Outcome.next.inj ht
      split
      · exact hw
      · rename_i u hu
        exact State.takeHeld_waiting ((State.finishFrame_waiting hu).trans hw)
    | setClock p a => obtain rfl := Host.Outcome.next.inj ht; exact State.settle_waiting ..
    | activate p a => obtain rfl := Host.Outcome.next.inj ht; exact State.settle_waiting ..
    | secondTick => obtain rfl := Host.Outcome.next.inj ht; exact State.settle_waiting ..
    | selectionDeadline n => obtain rfl := Host.Outcome.next.inj ht; exact State.settle_waiting ..
    | presentEnter d c => obtain rfl := Host.Outcome.next.inj ht; exact State.settle_waiting ..
    | _ => exact Bool.noConfusion hr

theorem step_idle (hw : s.waiting = []) (ht : step s = .next t) : t.waiting = [] := by
  unfold step at ht
  split at ht
  · obtain rfl := Host.Outcome.next.inj ht
    exact hw
  · rename_i c rest _
    exact exec_idle (s := { s with pending := rest }) hw ht

/-- With no decision waiting and no command carried out, the law of the ports is their order. -/
theorem State.portsOrdered_iff (hw : s.waiting = []) : s.portsOrdered ↔ DeviceLaw.ports.Holds [] s :=
  ⟨fun h => ⟨h, by simp [State.carriers_of_idle hw]⟩, fun h => h.1⟩

/-- Settles O57: each law is one of `DeviceLaw`, with no command carried out, and nothing is left waiting. -/
theorem deviceBoundsAreKept : Obligations.DeviceBoundsAreKept := by
  unfold Obligations.DeviceBoundsAreKept
  intro s t hw ht
  refine ⟨step_idle hw ht, fun h => ?_, fun h => ?_, fun h => ?_, fun h => ?_⟩
  · exact DeviceLaw.Holds.step (L := .queues) h hw ⟨trivial, rfl⟩ ht
  · exact DeviceLaw.Holds.step (L := .cache) h hw ⟨trivial, rfl⟩ ht
  · exact DeviceLaw.Holds.step (L := .settings) h hw ⟨trivial, rfl⟩ ht
  · exact (DeviceLaw.Holds.step ((State.portsOrdered_iff hw).1 h) hw ⟨trivial, rfl⟩ ht).1

end Sys2Proof.Machine

/-! SUPPORT. ESTATE CLEAR (R172, R173). -/

namespace Sys2Proof.Machine

variable {s t : State} {p : Authority}

/-- A command that leaves its port's transmitter to its reply: its work, and its answer at the port. -/
theorem carryOut_of_transmitter {code : Byte} {body : State → State × Answer} {a : Answer}
    (ht : (t.port p).transmitter = (s.port p).transmitter) (hb : body (s.reserveReply p) = (t.reserveReply p, a)) :
    carryOut p code body s = t.answered p code a := by
  unfold carryOut
  simp only [hb, ← ht]
  exact State.makeReply_reserveReply t a

theorem estateClear_notPermitted (hp : p ≠ .sec) (a : NoArgs) :
    estateClear p a s = (s, .refused .notPermitted []) := by
  rw [estateClear, if_pos hp]
  rfl

theorem estateClear_occupied (a : NoArgs) (h : ∃ k o, s.record k = some o) :
    estateClear .sec a s = (s, .refused .occupied []) := by
  have hany : s.occupancy.toList.any Option.isSome = true := by
    rw [← Bool.not_eq_false, State.anyRecord_eq_false, not_forall]
    obtain ⟨k, o, ho⟩ := h
    exact ⟨k, by simp [ho]⟩
  rw [estateClear, if_neg (by simp), if_pos hany]
  rfl

theorem estateClear_cleared (a : NoArgs) (h : ∀ k, s.record k = none) :
    estateClear .sec a s = (s.cleared, .accepted []) := by
  rw [estateClear, if_neg (by simp), (State.anyRecord_eq_false s).2 h]
  rfl

/-- The clear leaves the place held for a reply at its port. -/
theorem State.cleared_reserveReply (s : State) (p : Authority) :
    (s.reserveReply p).cleared = s.cleared.reserveReply p := by
  cases p <;> rfl

/-- Settles O26: the command is taken at its port, refused by its two checks, and clears the device behind them. -/
theorem estateClearReturnsToPowerOn : Obligations.EstateClearReturnsToPowerOn := by
  unfold Obligations.EstateClearReturnsToPowerOn
  intro s p ht
  have hout : exec (.estateClear p (.fields {})) s = .next (carryOut p 31 (estateClear p {}) s) := runCommand_fields ht
  dsimp only
  rw [hout]
  refine ⟨fun hp => congrArg _ (carryOut_read (estateClear_notPermitted hp _)), fun hp hocc => ?_, fun hp hfree => ?_⟩
  · subst hp
    exact congrArg _ (carryOut_read (estateClear_occupied (s := s.reserveReply .sec) _ hocc))
  · subst hp
    refine ⟨s.cleared, congrArg _ (carryOut_of_transmitter ?_ ?_), fun f hf => ?_, fun f hf => ?_,
      fun a => s.cleared_port a⟩
    · rw [State.cleared_port]
      rfl
    · rw [estateClear_cleared (s := s.reserveReply .sec) _ hfree, State.cleared_reserveReply]
    · cases f <;> first
        | rfl
        | exact absurd hf (by decide)
    · cases f <;> first
        | rfl
        | exact absurd hf (by decide)

end Sys2Proof.Machine

/-! SUPPORT. The rights to a room in their order, and requests served in the order in which they are made (R38, R59 to R61,
R138). -/

namespace Sys2Proof.Machine

variable {α : Type} {s t u v : State} {x : Decision} {n : SpaceNo} {r : Designator} {i : Instr} {own : List Party}
  {y : Progress} {e : Errand}

/-! ### The judgement of the rights (R59 to R61, R138) -/

section
variable {g : GrantSummary} {ov : OverlaySummary} {w : WorkOrder} {ow : Option Window} {m : Nat} {a : Authority}

theorem OverlayItem.active_iff {k : OverlayItem} : k.active m = true ↔ ∀ b, k.window = some b → b.contains m = true := by
  unfold OverlayItem.active
  cases k.window <;> simp

theorem OverlaySummary.bars_iff : ov.bars m = true ↔ ∃ k ∈ ov.items, k.bar = true ∧ k.active m = true := by
  simp [OverlaySummary.bars]

theorem OverlaySummary.forces_iff : ov.forces m = true ↔ ∃ k ∈ ov.items, k.force = true ∧ k.active m = true := by
  simp [OverlaySummary.forces]

/-- The custodian check fails where the space's authority is not the room's custodian and the custodian has not endorsed
(R60). -/
theorem custodianPasses_eq_false {c : Custodian} : custodianPasses a c w = false ↔
    (a = .fac ∧ c = .landlord ∧ w.endorsedByLandlord = false) ∨
      (a = .lld ∧ c = .bank ∧ w.endorsedByFacilities = false) := by
  cases a <;> cases c <;> simp [custodianPasses]

theorem allContain_iff {l : List Window} : allContain l m = true ↔ ∀ b ∈ l, b.contains m = true := by
  simp [allContain]

theorem judgeRights_barred (h : ov.bars m = true) : s.judgeRights n w ow m g ov = .error .securityBar := by
  rw [State.judgeRights, if_pos h]

variable (hbar : ov.bars m = false) (ho : (s.space n).owner = some a)
include hbar ho

theorem judgeRights_custodian (h : custodianPasses a g.custodian w = false) :
    s.judgeRights n w ow m g ov = .error .custodian := by
  simp [State.judgeRights, hbar, ho, h]

theorem judgeRights_outside (h : custodianPasses a g.custodian w = true)
    (hout : allContain (g.windows ++ ow.toList) m = false) : s.judgeRights n w ow m g ov = .error .outsideWindow := by
  simp [State.judgeRights, hbar, ho, h, hout]

theorem judgeRights_ok (h : custodianPasses a g.custodian w = true)
    (hin : allContain (g.windows ++ ow.toList) m = true) : s.judgeRights n w ow m g ov = .ok (g, ov) := by
  simp [State.judgeRights, hbar, ho, h, hin]

end

/-! ### A request behind another (R38) -/

/-- While nothing meets a request, it matters not which decisions wait. -/
theorem RequestForm.serve_unmet_own {F : RequestForm α} (own own' : List Party) :
    F.serve own n r .none y = F.serve own' n r .none y := by
  simp only [RequestForm.serve, Progress.meet_none]

/-- A decision's request of the form, behind those that wait already. -/
def RequestForm.Asks (F : RequestForm α) (x : Decision) (n : SpaceNo) (r : Designator)
    (resolve : State → State × Resolution α) : Prop :=
  ∀ s, resolve s =
    match s.serveAhead [⟨x, r⟩] s.waiting.length with
    | (s1, true) => (s1, .discarded)
    | (s1, false) => F.serve [⟨x, r⟩] n r s1.meeting (s1.served.beginRequest [⟨x, r⟩] n r s1.meeting)

theorem RequestForm.grant_asks (x : Decision) (n : SpaceNo) (r : Designator) :
    RequestForm.grant.Asks x n r (resolveGrant x n r) := by
  intro s
  unfold resolveGrant
  rcases s.serveAhead [⟨x, r⟩] s.waiting.length with ⟨s1, _ | _⟩
  · exact serveGrant_eq _
  · rfl

theorem RequestForm.overlay_asks (x : Decision) (r : Designator) :
    RequestForm.overlay.Asks x 0 r (resolveOverlay x r) := by
  intro s
  unfold resolveOverlay
  rcases s.serveAhead [⟨x, r⟩] s.waiting.length with ⟨s1, _ | _⟩
  · exact serveOverlay_eq _
  · rfl

/-- With one decision waiting, it is served once ahead of a request. -/
theorem State.serveAhead_one (s : State) (own : List Party) : s.serveAhead own 1 =
    if s.frontAsks then s.served.serveFront own own s.meeting else s.serveFront own own .none := by
  unfold State.serveAhead
  split <;> rename_i h
  · exact h.symm
  · exact h.symm

theorem State.served_of_unmet (h : s.meetings = []) : s.served = s ∧ s.meeting = .none := by
  cases s
  cases h
  exact ⟨rfl, rfl⟩

theorem State.setLine_of_meetings {m : List Meetings} (h : s.meetings = m) (w : List Waiting) :
    ({ s with meetings := m, waiting := w } : State) = { s with waiting := w } := by
  subst h
  rfl

/-- A request that nothing meets leaves what is to meet requests, and the line. -/
theorem RequestForm.Sound.serve_keeps {F : RequestForm α} (hF : F.Sound) (s : State) :
    (F.serve own n r .none ⟨s, false, false⟩).1.meetings = s.meetings ∧
      (F.serve own n r .none ⟨s, false, false⟩).1.waiting = s.waiting := by
  have h := hF.serve_line (own := own) (n := n) (r := r) s s.meetings s.waiting
  have hm := congrArg (fun q : State × Resolution α => q.1.meetings) h
  have hw := congrArg (fun q : State × Resolution α => q.1.waiting) h
  exact ⟨hm, hw⟩

section
variable {F : RequestForm α} {resolve : State → State × Resolution α} (hF : F.Sound) (hA : F.Asks x n r resolve)

include hA in
theorem RequestForm.Asks.resolves : F.Resolves x n r resolve := fun s hw => by
  rw [hA s, State.serveAhead_of_idle hw]

include hA in
theorem RequestForm.Asks.discarded (hw : s.waiting.length = 1) (h : s.serveAhead [⟨x, r⟩] 1 = (v, true)) :
    resolve s = (v, .discarded) := by
  rw [hA s, hw, h]

include hF hA in
/-- Where the decision ahead has been served the request is made as it would be alone, before the line that it finds. -/
theorem RequestForm.Asks.behind (hw : s.waiting.length = 1) (h : s.serveAhead [⟨x, r⟩] 1 = (v, false))
    (hm : v.meetings = []) :
    resolve s = ({ (resolve { v with waiting := [] }).1 with waiting := v.waiting },
      (resolve { v with waiting := [] }).2) := by
  obtain ⟨hserved, hmeeting⟩ := State.served_of_unmet hm
  have halone : resolve { v with waiting := [] } = F.serve [⟨x, r⟩] n r .none ⟨{ v with waiting := [] }, false, false⟩ :=
    hA.resolves.unmet rfl hm
  have hline := hF.serve_line (own := [⟨x, r⟩]) (n := n) (r := r) { v with waiting := [] } v.meetings v.waiting
  have hkeeps := (hF.serve_keeps (own := [⟨x, r⟩]) (n := n) (r := r) { v with waiting := [] }).1
  rw [hA s, hw, h]
  dsimp only
  rw [hserved, hmeeting, State.beginRequest_none, halone]
  exact hline.trans (Prod.ext (State.setLine_of_meetings hkeeps _) rfl)

end

/-! ### The decision ahead -/

/-- A decision that goes on leaves what is to meet requests. -/
theorem State.resume_meetings (s : State) (rights : Resolution (GrantSummary × OverlaySummary)) (e : Errand) :
    (s.resume rights e).meetings = s.meetings :=
  (s.resume_cases rights e).1.same_meetings (by cases e <;> simp [Errand.fields, admissionFields])

theorem State.conclude_of_keeps {rights : Resolution (GrantSummary × OverlaySummary)}
    (h : x.keeps r s (s.resume rights e) = true) : s.conclude [⟨x, r⟩] e rights = s.resume rights e := by
  simp [State.conclude, h]

/-- The grant request of a decision that waits alone, served ahead of another with nothing to meet it. -/
theorem serveGrant_ahead (hw : s.waiting = []) (hm : s.meetings = []) :
    serveGrant (e.party :: own) e.space e.party.room .none s = resolveGrant e.party.decision e.space e.party.room s := by
  rw [(RequestForm.grant_resolves _ _ _).unmet hw hm, serveGrant_eq, State.beginRequest_none]
  exact RequestForm.serve_unmet_own ..

theorem serveOverlay_ahead (hw : s.waiting = []) (hm : s.meetings = []) :
    serveOverlay (e.party :: own) e.party.room .none s = resolveOverlay e.party.decision e.party.room s := by
  rw [(RequestForm.overlay_resolves _ _).unmet hw hm, serveOverlay_eq, State.beginRequest_none]
  exact RequestForm.serve_unmet_own ..

theorem resolveGrant_keeps (hw : s.waiting = []) (hm : s.meetings = []) :
    (resolveGrant x n r s).1.meetings = [] ∧ (resolveGrant x n r s).1.waiting = [] := by
  rw [(RequestForm.grant_resolves _ _ _).unmet hw hm]
  have h := RequestForm.grant_sound.serve_keeps (own := [⟨x, r⟩]) (n := n) (r := r) s
  exact ⟨h.1.trans hm, h.2.trans hw⟩

theorem resolveOverlay_keeps (hw : s.waiting = []) (hm : s.meetings = []) :
    (resolveOverlay x r s).1.meetings = [] ∧ (resolveOverlay x r s).1.waiting = [] := by
  rw [(RequestForm.overlay_resolves _ _).unmet hw hm]
  have h := RequestForm.overlay_sound.serve_keeps (own := [⟨x, r⟩]) (n := 0) (r := r) s
  exact ⟨h.1.trans hm, h.2.trans hw⟩

/-- A decision that comes into an empty line waits there alone. -/
theorem State.wait_alone {asks : WaitingFor} (hw : t.waiting = []) :
    ({ t.wait e asks with waiting := [] } : State) = t ∧ (t.wait e asks).waiting = [⟨e, asks⟩] := by
  cases t
  cases hw
  exact ⟨rfl, rfl⟩

/-- An ESTATE CLEAR that both decisions let a port take discards the request that it meets. -/
theorem take_of_clears_both {z : Party} {b : State} {q : Designator} (hx : x.mayMeet b i u) (hz : z.decision.mayMeet b i u)
    (hw : b.waiting = []) (hc : b.clears i) :
    Progress.take [z, ⟨x, r⟩] n q ⟨b, false, false⟩ i = ⟨u, b.purgedBy n q i, true⟩ := by
  simp [Progress.take, State.parties, hw, hx.leavesFree, hz.leavesFree, hx.rowEffect, hx.clearedBy_iff.2 hc]

/-- One ESTATE CLEAR discards the request of the decision ahead. -/
theorem RequestForm.serve_clears_both {F : RequestForm α} {z : Party} {b : State} (hx : x.mayMeet b i u)
    (hz : z.decision.mayMeet b i u) (hw : b.waiting = []) (hc : b.clears i) {m : SpaceNo} {q : Designator} :
    F.serve [z, ⟨x, r⟩] m q (.first i) (b.beginRequest [z, ⟨x, r⟩] m q (.first i)) = (u, .discarded) := by
  rw [RequestForm.serve_first, State.beginRequest_first, take_of_clears_both hx hz hw hc]
  exact RequestForm.serve_cleared rfl (hx.cache_of_clears hc)

/-- A request behind another: with the other's request answered or its decision ended, or both discarded by one ESTATE
CLEAR. -/
theorem RequestForm.Asks.servesBehind {F : RequestForm α} {resolve : State → State × Resolution α} (hF : F.Sound)
    (hA : F.Asks x n r resolve) (s : State) : s.servesBehind x resolve r := by
  intro e asks hw
  have hlen : s.waiting.length = 1 := by rw [hw]; rfl
  have ended : ∀ {t : State} {rights : Resolution (GrantSummary × OverlaySummary)}, t.meetings = [] →
      s.serveAhead [⟨x, r⟩] 1 = (t.conclude [⟨x, r⟩] e rights, false) →
      x.keeps r t (t.resume rights e) = true →
      resolve s = ({ (resolve { t.resume rights e with waiting := [] }).1 with waiting := (t.resume rights e).waiting },
        (resolve { t.resume rights e with waiting := [] }).2) := by
    intro t rights hm hone hk
    rw [State.conclude_of_keeps hk] at hone
    exact hA.behind hF hlen hone ((State.resume_meetings ..).trans hm)
  refine ⟨fun hm => ⟨?_, ?_⟩, fun i rest u hmeet hasks hc hx hz => ?_⟩
  · rintro rfl t
    obtain ⟨hserved, hmeeting⟩ := State.served_of_unmet hm
    have hfront : s.frontAsks = true := by simp [State.frontAsks, hw]
    have hgrant := serveGrant_ahead (e := e) (own := [⟨x, r⟩]) (s := { s with waiting := [] }) rfl hm
    have hkeeps := resolveGrant_keeps (x := e.party.decision) (n := e.space) (r := e.party.room)
      (s := { s with waiting := [] }) rfl hm
    have hone : s.serveAhead [⟨x, r⟩] 1 = s.serveFront [⟨x, r⟩] [⟨x, r⟩] .none := by
      rw [State.serveAhead_one, if_pos hfront, hserved, hmeeting]
    refine ⟨fun g hg => ?_, fun c hg => ?_⟩ <;> rw [hg] at hgrant hkeeps <;>
      simp only [State.serveFront, hw, hgrant] at hone
    · obtain ⟨hline, hbehind⟩ := State.wait_alone (e := e) (asks := .overlay g) hkeeps.2
      have h := hA.behind hF hlen hone hkeeps.1
      rwa [hline, hbehind] at h
    · exact fun hk => ended hkeeps.1 hone hk
  · rintro g rfl t
    obtain ⟨hserved, hmeeting⟩ := State.served_of_unmet hm
    have hfront : s.frontAsks = true := by simp [State.frontAsks, hw]
    have hoverlay := serveOverlay_ahead (e := e) (own := [⟨x, r⟩]) (s := { s with waiting := [] }) rfl hm
    have hkeeps := resolveOverlay_keeps (x := e.party.decision) (r := e.party.room) (s := { s with waiting := [] }) rfl hm
    have hone : s.serveAhead [⟨x, r⟩] 1 = s.serveFront [⟨x, r⟩] [⟨x, r⟩] .none := by
      rw [State.serveAhead_one, if_pos hfront, hserved, hmeeting]
    refine ⟨fun o ho => ?_, fun c ho => ?_⟩ <;> rw [ho] at hoverlay hkeeps <;>
      simp only [State.serveFront, hw, hoverlay] at hone
    · exact fun hk => ended hkeeps.1 hone hk
    · exact fun hk => ended hkeeps.1 hone hk
  · have hfront : s.frontAsks = true := by rcases hasks with rfl | ⟨g, rfl⟩ <;> simp [State.frontAsks, hw]
    have hmet : s.meeting = .first i := by simp [State.meeting, hmeet]
    have hserved : s.served = { s with meetings := rest } := by rw [State.served, hmeet, List.tail_cons]
    refine hA.discarded hlen ?_
    rw [State.serveAhead_one, if_pos hfront, hmet, hserved]
    rcases hasks with rfl | ⟨g, rfl⟩
    · simp only [State.serveFront, hw, serveGrant_eq]
      rw [RequestForm.serve_clears_both hx hz rfl hc]
    · simp only [State.serveFront, hw, serveOverlay_eq]
      rw [RequestForm.serve_clears_both hx hz rfl hc]

/-- Settles O17: the judgement of the rights from its two requests; a request behind another (`servesBehind`), of either
form; and the line, of which nothing is left behind a row. -/
theorem rightsAreJudgedInOrder : Obligations.RightsAreJudgedInOrder := by
  unfold Obligations.RightsAreJudgedInOrder
  refine ⟨fun s s1 s2 x n r w ow m g ov a c => ?_, fun s x n r =>
    ⟨(RequestForm.grant_asks x n r).servesBehind RequestForm.grant_sound s,
      (RequestForm.overlay_asks x r).servesBehind RequestForm.overlay_sound s⟩,
    fun s p => ⟨s.settle_waiting p, State.settle_of_nil p⟩⟩
  dsimp only
  simp only [← OverlayItem.active_iff, ← custodianPasses_eq_false, ← allContain_iff]
  refine ⟨fun hg => by simp [checkRights, hg], fun hg => by simp [checkRights, hg], fun hg => ⟨fun ho => by
    simp [checkRights, hg, ho], fun ho => by simp [checkRights, hg, ho], fun ho hown => ?_⟩, fun h => ?_, fun h1 h2 => ?_⟩
  · have hrights : checkRights x n r w ow m s = (s2, s2.judgeRights n w ow m g ov) := by simp [checkRights, hg, ho]
    rw [hrights]
    refine ⟨fun hbar => ?_, fun hbar => ?_⟩
    · rw [judgeRights_barred (OverlaySummary.bars_iff.2 hbar)]
    · have hbars : ov.bars m = false := Bool.eq_false_iff.2 fun h => by
        obtain ⟨k, hk, hb, ha⟩ := OverlaySummary.bars_iff.1 h
        exact hbar k hk hb ha
      simp only [Bool.not_eq_false]
      refine ⟨fun hc => ?_, fun hc ⟨v, hv, hout⟩ => ?_, fun hc hin => ?_⟩
      · rw [judgeRights_custodian hbars hown hc]
      · rw [judgeRights_outside hbars hown hc (Bool.eq_false_iff.2 fun hin => ?_)]
        rw [allContain_iff.1 hin v hv] at hout
        exact nomatch hout
      · rw [judgeRights_ok hbars hown hc hin]
  · have hforce : (g.escort || ov.forces m) = true := by
      rw [Bool.or_eq_true, OverlaySummary.forces_iff]
      exact h
    rw [requirementLevel, if_pos hforce]
  · have hforce : ¬ (g.escort || ov.forces m) = true := by
      rw [Bool.or_eq_true, OverlaySummary.forces_iff, h1]
      rintro (h | ⟨k, hk, hf, ha⟩)
      · exact nomatch h
      · exact h2 k hk hf ha
    rw [requirementLevel, if_neg hforce, Nat.max_zero]

end Sys2Proof.Machine

/-! SUPPORT. What an ESTATE CLEAR that discards a request leaves of the device, to the end of the decision (R38, R173). -/

namespace Sys2Proof.Machine

open State (changesOnly_refl)

variable {s t : State} {i : Instr} {x : Decision} {own kept : List Party} {n : SpaceNo} {r : Designator} {met : Meetings}
  {y : Progress} {w : WorkOrder} {now : Reading}

/-- Everything but what an ESTATE CLEAR keeps (R172) is as power-on leaves it; nothing waits. -/
def State.AsReset (s : State) : Prop := State.reset.changesOnly resetFields s

theorem State.AsReset.waiting (h : s.AsReset) : s.waiting = [] := h .waiting (by decide)

theorem State.AsReset.cache (h : s.AsReset) : s.cache = [] := h .cache (by decide)

theorem State.AsReset.of_ports (h : s.AsReset) (hc : s.changesOnly [.ports] t) : t.AsReset :=
  State.changesOnly.trans (t := s) h (hc.mono (by decide))

theorem State.cleared_asReset (s : State) : s.cleared.AsReset := by
  intro f hf
  cases f <;> first
    | rfl
    | exact absurd (by decide) hf

/-- A port that carries out an ESTATE CLEAR with no room occupied clears the device. -/
theorem carryOut_estateClear_asReset {p : Authority} {code : Byte} {a : NoArgs} (hr : ∀ j, s.record j = none) :
    (carryOut p code (judgePayload (.fields a) (estateClear .sec)) s).AsReset := by
  unfold carryOut
  dsimp only [judgePayload]
  rw [estateClear_cleared (s := s.reserveReply p) a hr]
  exact (State.cleared_asReset _).of_ports ((changesOnly_refl _ _).makeReply (by decide))

/-- The row that discards the decisions clears the device. -/
theorem rowEffect_asReset (ht : rowEffect i s = some t) (hc : s.clearedBy i = true) (hfree : x.leavesFree s i = true) :
    t.AsReset := by
  cases i with
  | estateClear p a =>
    cases a with
    | malformed bytes => exact Bool.noConfusion hc
    | fields a =>
      obtain ⟨hp, hr⟩ := Bool.and_eq_true_iff.1 hc
      obtain rfl := of_decide_eq_true hp
      have hport : s.portFree .sec = true :=
        (Bool.and_eq_true_iff.1 ((Option.all_eq_true ..).1 (Bool.and_eq_true_iff.1 hfree).1 _ rfl)).1
      obtain ⟨hbuffer, hreply⟩ := Bool.and_eq_true_iff.1 hport
      have hrow : execEstateClear .sec (.fields a) s = .next t := stateAfter_eq.1 ht
      have htakes : s.takes .sec 31 (NoArgs.encode a) :=
        ⟨.inl (of_decide_eq_true hbuffer), of_decide_eq_true hreply⟩
      have hrun : execEstateClear .sec (.fields a) s = .next (carryOut .sec 31 (estateClear .sec a) s) :=
        runCommand_fields htakes
      obtain rfl := Host.Outcome.next.inj (hrow.symm.trans hrun)
      exact carryOut_estateClear_asReset (a := a) (s.anyRecord_eq_false.1 ((Bool.not_eq_true' _).mp hr))
  | frameFinished p ready =>
    obtain rfl := Option.some.inj ht
    unfold State.clearedBy State.commandTaken at hc
    unfold State.beginFrameFinished
    cases hs : s.finishFrame p ready with
    | none => simp [hs] at hc
    | some u =>
      obtain ⟨z, rfl⟩ := State.finishFrame_eq hs
      cases hf : (s.setPort p z).frameToTake p with
      | none => simp [hs, hf] at hc
      | some f =>
        simp only [hs, hf, Option.bind_some, Option.map_some] at hc
        dsimp only
        split at hc
        · rename_i q a hq
          obtain ⟨hp, hr⟩ := Bool.and_eq_true_iff.1 hc
          obtain rfl := of_decide_eq_true hp
          rw [hf]
          dsimp only
          rw [Option.some.inj hq]
          exact carryOut_estateClear_asReset (s := s.setPort p z) (a := a)
            (s.anyRecord_eq_false.1 ((Bool.not_eq_true' _).mp hr))
        · exact nomatch hc
  | _ => exact Bool.noConfusion hc

/-! ### One request -/

/-- Where an ESTATE CLEAR has discarded the request, the device is as it leaves it. -/
def Progress.Reset (y : Progress) : Prop := y.cleared = true → y.state.AsReset

theorem Progress.Reset.take (h : y.Reset) (ho : own ≠ []) (i : Instr) : (y.take own n r i).Reset := by
  rcases y.take_cases own n r i with hy | ⟨t, ht, -, hfree, ⟨hclear, hy⟩ | ⟨-, -, hy⟩⟩ <;> rw [hy]
  · exact h
  · obtain ⟨p, hp⟩ := List.exists_mem_of_ne_nil own ho
    exact fun _ => foldl_keeps (I := State.AsReset)
      (rowEffect_asReset ht hclear (hfree p (List.mem_append_left _ hp)))
      fun u w _ hu => hu.of_ports (u.discard_changes w)
  · exact nofun

theorem Progress.Reset.takeAll (h : y.Reset) (ho : own ≠ []) (l : List Instr) :
    (l.foldl (Progress.take own n r) y).Reset :=
  foldl_keeps (I := Progress.Reset) h fun _ i _ hu => hu.take ho i

theorem Progress.Reset.meet (h : y.Reset) (ho : own ≠ []) : (y.meet own n r met).2.Reset :=
  (((h.takeAll ho _).takeAll ho _).takeAll ho _).takeAll ho _

theorem State.beginRequest_reset (ho : own ≠ []) : (s.beginRequest own n r met).Reset :=
  Progress.Reset.takeAll (y := ⟨s, false, false⟩) (fun hc => Bool.noConfusion hc) ho met.beforeLookup

/-- A lookup that hits is of a request that no ESTATE CLEAR has discarded: it leaves the cache empty. -/
theorem Progress.Reset.touch {g : BitVec 8} {b : Bool} {e e' : CacheEntry} (h : y.Reset)
    (he : cachePick n g b r y.state.cache = some e) : (y.touch e').Reset := fun hc => by
  rw [(h hc).cache] at he
  simp [cachePick] at he

theorem Progress.Reset.fill {e : CacheEntry} (h : y.Reset) : (y.fill e).Reset := by
  unfold Progress.fill
  split
  · exact h
  · rename_i hc
    exact fun hc' => absurd (Bool.or_eq_true_iff.2 (.inr hc')) hc

/-- The answer to a request says of a discarded one what the device is. -/
def Resolution.Reset {α : Type} (z : State × Resolution α) : Prop := z.2 = .discarded → z.1.AsReset

theorem Progress.Reset.handOver {α : Type} (h : y.Reset) (o : Except DenyCode α) : Resolution.Reset (y.handOver o) := by
  unfold Progress.handOver
  cases hc : y.cleared
  · cases o <;> exact nofun
  · exact fun _ => h hc

theorem serveGrant_reset (ho : own ≠ []) : Resolution.Reset (serveGrant own n r met s) := by
  have hb : (s.beginRequest own n r met).Reset := State.beginRequest_reset ho
  unfold serveGrant
  dsimp only
  split
  · exact (hb.meet ho).handOver _
  · split
    · rename_i he
      exact ((hb.touch he).meet ho).handOver _
    · split
      · exact (hb.meet ho).handOver _
      · exact (hb.meet ho).fill.handOver _

theorem serveOverlay_reset (ho : own ≠ []) : Resolution.Reset (serveOverlay own r met s) := by
  have hb : (s.beginRequest own 0 r met).Reset := State.beginRequest_reset ho
  unfold serveOverlay
  dsimp only
  split
  · exact (hb.meet ho).handOver _
  · split
    · rename_i he
      exact ((hb.touch he).meet ho).handOver _
    · split
      · exact (hb.meet ho).handOver _
      · exact (hb.meet ho).fill.handOver _

/-! ### The decisions ahead, and the checks -/

theorem State.serveFront_reset : (s.serveFront own kept met).2 = true → (s.serveFront own kept met).1.AsReset := by
  unfold State.serveFront
  split
  · exact nofun
  · rename_i w rest _
    dsimp only
    split
    · split
      · rename_i hq
        have h := serveGrant_reset (own := w.errand.party :: own) (n := w.errand.space) (r := w.errand.party.room)
          (met := met) (s := { s with waiting := rest }) (by simp)
        rw [hq] at h
        exact fun _ => (h rfl).of_ports (State.discard_changes _ w)
      · exact nofun
      · exact nofun
    · split
      · rename_i hq
        have h := serveOverlay_reset (own := w.errand.party :: own) (r := w.errand.party.room)
          (met := met) (s := { s with waiting := rest }) (by simp)
        rw [hq] at h
        exact fun _ => (h rfl).of_ports (State.discard_changes _ w)
      · exact nofun
      · exact nofun
    · exact nofun

theorem State.serveAhead_reset {k : Nat} : (s.serveAhead kept k).2 = true → (s.serveAhead kept k).1.AsReset := by
  induction k generalizing s with
  | zero => exact nofun
  | succ k ih =>
    unfold State.serveAhead
    have h : let f := if s.frontAsks then s.served.serveFront kept kept s.meeting else s.serveFront kept kept .none
        f.2 = true → f.1.AsReset := by
      dsimp only
      split
      · exact State.serveFront_reset
      · exact State.serveFront_reset
    split <;> rename_i hq <;> rw [hq] at h
    · exact fun _ => h rfl
    · exact ih

theorem resolveGrant_reset : Resolution.Reset (resolveGrant x n r s) := by
  have h := State.serveAhead_reset (s := s) (kept := [⟨x, r⟩]) (k := s.waiting.length)
  unfold resolveGrant
  split <;> rename_i hq <;> rw [hq] at h
  · exact fun _ => h rfl
  · exact serveGrant_reset (by simp)

theorem resolveOverlay_reset : Resolution.Reset (resolveOverlay x r s) := by
  have h := State.serveAhead_reset (s := s) (kept := [⟨x, r⟩]) (k := s.waiting.length)
  unfold resolveOverlay
  split <;> rename_i hq <;> rw [hq] at h
  · exact fun _ => h rfl
  · exact serveOverlay_reset (by simp)

/-- The checks of the rights to a room, discarded. -/
theorem checkRights_reset {ow : Option Window} {m : Nat} : Resolution.Reset (checkRights x n r w ow m s) := by
  have h1 := resolveGrant_reset (x := x) (n := n) (r := r) (s := s)
  unfold checkRights
  rcases hg : resolveGrant x n r s with ⟨s1, g | c | _⟩ <;> rw [hg] at h1
  · have h2 := resolveOverlay_reset (x := x) (r := r) (s := s1)
    rcases ho : resolveOverlay x r s1 with ⟨s2, ov | c | _⟩ <;> rw [ho] at h2 <;> simp only [ho]
    · exact fun hd => (State.judgeRights_ne_discarded _ _ _ _ _ _ _ hd).elim
    · exact nofun
    · exact fun _ => h2 rfl
  · exact nofun
  · exact fun _ => h1 rfl

theorem testOption_reset {j : Nat} {o : WorkOption} : Resolution.Reset (testOption x now w j o s) := by
  unfold testOption
  split
  · exact nofun
  · rename_i time home _
    intro hd
    refine checkRights_reset ?_
    dsimp only at hd
    unfold State.optionResult at hd
    split at hd
    · exact nomatch hd
    · exact nomatch hd
    · assumption

/-- A selection, discarded. -/
theorem testOptions_reset {j : Nat} {l : List WorkOption} (h : .discarded ∈ (testOptions x now w j l s).2) :
    (testOptions x now w j l s).1.AsReset := by
  induction l generalizing j s with
  | nil => exact absurd h List.not_mem_nil
  | cons o l ih =>
    unfold testOptions at h ⊢
    have h1 := testOption_reset (x := x) (now := now) (w := w) (j := j) (o := o) (s := s)
    rcases ht : testOption x now w j o s with ⟨s1, c | c | _⟩ <;> rw [ht] at h h1
    · exact ih ((List.mem_cons.1 h).resolve_left nofun)
    · exact ih ((List.mem_cons.1 h).resolve_left nofun)
    · exact h1 rfl

end Sys2Proof.Machine

/-! SUPPORT. An Enter presentation that is denied once its rights are judged, or at a door that is busy (R134, R138 to
R141). -/

namespace Sys2Proof.Machine

open State (changesOnly_refl)

variable {s t : State} {d : DoorId} {c : Credential} {code : DenyCode} {n : PermitNo} {q : Permit} {x : Decision}
  {r : Designator} {w : WorkOrder} {a b k : Nat}

/-! ### Denials -/

theorem State.addVerdict_permitOf (s : State) (d : DoorId) (v : Verdict) (c : Credential) :
    (s.addVerdict d v).permitOf c = s.permitOf c := rfl

/-- A presentation with a credential bound to a permit is denied (R141). -/
theorem State.denyPresentation_bound (hn : s.permitOf c = some n) (hq : s.permit n = some q) :
    s.denyPresentation d c code =
      (s.setDoor d { s.door d with outgoing := (s.door d).outgoing ++ [⟨.deny code, [c], false⟩] }).notifyBoth
        (s.issuer q.workOrder) (.denied d (s.door d).binding c code (some (n, q.workOrder))) := by
  have hn' : (s.addVerdict d ⟨.deny code, [c], false⟩).permitOf c = some n := hn
  have hq' : (s.addVerdict d ⟨.deny code, [c], false⟩).permit n = some q := hq
  have hb : ((s.addVerdict d ⟨.deny code, [c], false⟩).door d).binding = (s.door d).binding := by
    unfold State.addVerdict
    rw [State.setDoor_door_self]
  unfold State.denyPresentation State.notifyDenied
  rw [hn']
  simp only [hq', hb]
  rfl

/-- A presentation with a credential bound to no permit is denied (R141). -/
theorem State.denyPresentation_unbound (hn : s.permitOf c = none) :
    s.denyPresentation d c code =
      (s.setDoor d { s.door d with outgoing := (s.door d).outgoing ++ [⟨.deny code, [c], false⟩] }).notify
        .sec (.denied d (s.door d).binding c code none) := by
  have hn' : (s.addVerdict d ⟨.deny code, [c], false⟩).permitOf c = none := hn
  have hb : ((s.addVerdict d ⟨.deny code, [c], false⟩).door d).binding = (s.door d).binding := by
    unfold State.addVerdict
    rw [State.setDoor_door_self]
  unfold State.denyPresentation State.notifyDenied
  rw [hn']
  simp only [hb]
  rfl

/-! ### Place in party, room and table (R93, R113, R140) -/

theorem State.partyFault_eq {m : WorkOrderNo} (hw : s.workOrder m = some w) :
    s.partyFault m k = if w.party + k ≤ w.capInForce then none else some .partyFull := by
  simp [State.partyFault, hw]

/-- One permit is admitted where its party has place and then its room has. -/
theorem State.admissionFault_one (hq : s.permit n = some q) (hw : s.workOrder q.workOrder = some w) :
    s.admissionFault r a b [n] =
      if w.party + q.role.weight ≤ w.capInForce then s.roomFault r a b q.role.weight else some .partyFull := by
  unfold State.admissionFault
  by_cases h : w.party + q.role.weight ≤ w.capInForce
  · simp [hq, State.partyFault_eq hw, h, State.weight]
  · simp [hq, State.partyFault_eq hw, h]

theorem State.roomFault_full (h : s.allowanceAt r a b < s.loadOf r + k) : s.roomFault r a b k = some .roomFull :=
  if_pos h

/-- No record is the room's, and none is out of use (R92). -/
theorem State.roomFault_tableFull (h : s.loadOf r + k ≤ s.allowanceAt r a b)
    (hno : ∀ j o, s.record j = some o → o.room ≠ r) (hall : ∀ j, s.record j ≠ none) :
    s.roomFault r a b k = some .occupancyTableFull := by
  have hlow : lowest Option.isNone s.occupancy = none := lowest_eq_none.2 fun j => by
    rw [Option.isNone_eq_false_iff, Option.isSome_iff_ne_none]
    exact hall j
  have hrec : s.recordFor r = none := by
    unfold State.recordFor
    rw [State.recordOf_eq_none.2 hno, hlow]
  unfold State.roomFault
  rw [if_neg (by omega), hrec]
  rfl

theorem State.loadOf_eq (s : State) (r : Designator) :
    s.loadOf r = ((s.numberedRecordOf r).map fun p => p.2.load).getD 0 := by
  unfold State.loadOf State.numberedRecordOf
  cases s.recordOf r with
  | none => rfl
  | some j =>
    dsimp only
    cases s.record j <;> rfl

theorem Decision.keeps_loadOf (h : x.keeps r s t = true) (hx : x.room = some r) : t.loadOf r = s.loadOf r := by
  obtain ⟨-, -, -, hroom, -, -⟩ := Decision.keeps_iff.1 h
  rw [State.loadOf_eq, State.loadOf_eq, hroom r hx]

theorem Decision.keeps_allowanceAt (h : x.keeps r s t = true) : t.allowanceAt r a b = s.allowanceAt r a b := by
  obtain ⟨hpost, hsite, -, -, -, -⟩ := Decision.keeps_iff.1 h
  unfold State.allowanceAt
  rw [hpost, hsite]

/-- An Enter for which no escort is called for is denied where there is no place (R139, R140). -/
theorem State.endContractor_noPlace {e : ContractorEntry} {g : GrantSummary} {ov : OverlaySummary}
    (h : e.record.role = .escort ∨ requirementLevel g ov e.time.minute = 0 ∨
      (requirementLevel g ov e.time.minute = 1 ∧ s.escortInside e.room = true))
    (hf : s.admissionFault e.room g.guaranteed g.ceiling [e.permit] = some code) :
    s.endContractor e (.ok (g, ov)) = s.denyPresentation e.door e.credential code := by
  show s.enterWithRights e g ov = _
  unfold State.enterWithRights
  dsimp only
  rw [if_pos h, hf]

/-! ### The presentation -/

theorem exec_presentEnter_polled (hc : c ≠ 0) (hp : (s.lane d.lane).phase = .polling)
    (ha : (s.lane d.lane).position = d.address) :
    exec (.presentEnter d c) s = .next ((((s.endTurn d.lane).announce d).takeEnter d c).settle none) := by
  have hrow : exec (.presentEnter d c) s = thenSettle none (.next (s.answerPresent d c fun u => u.takeEnter d c)) := rfl
  rw [hrow, State.answerPresent_polled hc hp ha]
  rfl

theorem State.takeEnter_settled (h : s.enterStage d c = .settled t) : s.takeEnter d c = t := by
  unfold State.takeEnter
  rw [h]

theorem State.takeEnter_contractor {e : ContractorEntry} (h : s.enterStage d c = .contractor e) :
    s.takeEnter d c = s.enterContractor e := by
  unfold State.takeEnter
  rw [h]

theorem State.takeEnter_escort {e : EscortEntry} (h : s.enterStage d c = .escort e) :
    s.takeEnter d c = s.enterEscort e := by
  unfold State.takeEnter
  rw [h]

/-- The checks of a decision's rights leave no two permits bound to one credential (R118). -/
theorem checkRights_credentials {m : SpaceNo} {ow : Option Window} {minute : Nat} (h : s.credentialsDistinct) :
    (checkRights x m r w ow minute s).1.credentialsDistinct :=
  (TableLaw.keptByRequests (L := .credentials) (by decide)).checkRights h

theorem State.issuer_of_workOrder {m : WorkOrderNo} (h : t.workOrder m = s.workOrder m) : t.issuer m = s.issuer m := by
  unfold State.issuer
  rw [h]

/-- At a door in Awaiting Consent or Passage Open a presentation is denied DOOR_BUSY (R134). -/
theorem State.enterStage_busy
    (h : (s.door d).admission.state = .awaitingConsent ∨ (s.door d).admission.state = .passageOpen) :
    s.enterStage d c = .settled (s.denyPresentation d c .doorBusy) := by
  unfold State.enterStage
  cases ha : (s.door d).admission with
  | idle => simp [ha, Admission.state] at h
  | pairing n v => simp [ha, Admission.state] at h
  | awaitingConsent n v => rfl
  | openEnter l m => rfl
  | openExit l m => rfl

/-- An Enter that passes the checks of R136 and R137 goes on with the judgement of its rights. -/
theorem exec_presentEnter_contractor {b : Binding} {time : ClockTime} {o : WorkOption} (hc : c ≠ 0)
    (hdist : s.credentialsDistinct) (hphase : (s.lane d.lane).phase = .polling)
    (hpos : (s.lane d.lane).position = d.address) (hadm : (s.door d).admission = .idle)
    (hbind : (s.door d).binding = some b) (hheld : (s.lane d.lane).held = false) (hclock : s.clock = some time)
    (hposture : s.posture ≠ .lockdown) (hq : s.permit n = some q) (hcred : q.credential = c) (hrev : q.revoked = false)
    (hidle : q.state = .idle) (hslots : ∀ j y, s.slot j = some y → y.holds n = false)
    (hw : s.workOrder q.workOrder = some w) (hact : w.state = .active) (hday : w.dayPasses time.day = true)
    (hopt : w.selectedOption = some o) :
    exec (.presentEnter d c) s = .next ((((s.endTurn d.lane).announce d).enterContractor
      ⟨d, c, b.room, n, q, w, o, time, s.count⟩).settle none) := by
  rw [exec_presentEnter_polled hc hphase hpos]
  have hs1 := s.announce_polled_changes d
  have hdoor1 := s.announce_polled_door d
  have hheld1 := s.announce_polled_held d
  generalize (s.endTurn d.lane).announce d = s1 at *
  rw [State.takeEnter_contractor, ← hs1 .count (by decide)]
  have hper : s1.permit = s.permit := hs1.permit_eq (by decide)
  exact State.enterStage_contractor (by rw [hdoor1]; exact hadm) (by rw [hdoor1]; exact hbind) (hheld1.trans hheld)
    ((hs1 .clock (by decide)).trans hclock) (by rwa [hs1 .posture (by decide)])
    (State.permitOf_eq_of_distinct (q := q) (by rwa [State.credentialsDistinct, hper]) (by rwa [hper]) hcred)
    (by rwa [hper]) hrev hidle (State.slotHolding_eq_none (by rwa [hs1.slot_eq (by decide)]))
    (by rwa [hs1.workOrder_eq (by decide)]) hact hday hopt

/-- The checks of a contractor's rights, unless they are discarded, leave the door, the permit, its work order and the room
as they were, and no second permit bound to the credential. -/
theorem checkRights_contractor {room : Designator} {m : SpaceNo} {ow : Option Window} {minute : Nat}
    {rights : Resolution (GrantSummary × OverlaySummary)}
    (h : checkRights (.contractor d room n q) m room w ow minute s = (t, rights)) (hne : rights ≠ .discarded)
    (hdist : s.credentialsDistinct) (hq : s.permit n = some q) :
    (Decision.contractor d room n q).keeps room s t = true ∧ t.door d = s.door d ∧ t.permitOf q.credential = some n ∧
      t.permit n = some q ∧ t.workOrder q.workOrder = s.workOrder q.workOrder := by
  have hk := checkRights_keeps (x := .contractor d room n q) (n := m) (r := room) (w := w) (ow := ow) (m := minute)
    (s := s) (by rw [h]; exact hne)
  have hdist' := checkRights_credentials (x := .contractor d room n q) (m := m) (r := room) (w := w) (ow := ow)
    (minute := minute) hdist
  rw [h] at hk hdist'
  obtain ⟨-, -, hdoor, -, hper, hord⟩ := Decision.keeps_iff.1 hk
  have hq' : t.permit n = some q := (hper n (List.mem_singleton_self n)).trans hq
  exact ⟨hk, (State.sameDoor_iff.1 (hdoor d rfl)).1, State.permitOf_eq_of_distinct hdist' hq' rfl, hq',
    hord _ (List.mem_singleton_self _)⟩

/-- Settles O40: the checks of the rights leave the door, the permit, its work order and the room's record as they were,
and no second permit is bound to the credential behind them; so the denial answers the presentation alone. -/
theorem enterDeniedByRightsPartyOrRoom : Obligations.EnterDeniedByRightsPartyOrRoom := by
  unfold Obligations.EnterDeniedByRightsPartyOrRoom
  refine ⟨?_, ?_⟩
  · intro s s2 d c b time n q w o
    dsimp only
    intro hc _ hdist hphase hpos hadm hbind hheld hclock hposture hq hcred hrev hidle hslots hw hact hday hopt
    have hexec := exec_presentEnter_contractor hc hdist hphase hpos hadm hbind hheld hclock hposture hq hcred hrev hidle
      hslots hw hact hday hopt
    have hs1 := s.announce_polled_changes d
    have hdoor1 := s.announce_polled_door d
    generalize (s.endTurn d.lane).announce d = s1 at *
    have hper : s1.permit = s.permit := hs1.permit_eq (by decide)
    have hord : s1.workOrder = s.workOrder := hs1.workOrder_eq (by decide)
    have hdist1 : s1.credentialsDistinct := by rwa [State.credentialsDistinct, hper]
    have hq1 : s1.permit n = some q := by rwa [hper]
    unfold State.enterContractor at hexec
    have hdenied : ∀ code rights,
        checkRights (.contractor d b.room n q) o.space b.room w o.window time.minute s1 = (s2, rights) →
        rights ≠ .discarded → s2.denyPresentation d c code = (s2.setDoor d
          { s1.door d with outgoing := (s1.door d).outgoing ++ [⟨.deny code, [c], false⟩] }).notifyBoth
            (s.issuer q.workOrder) (.denied d (some b) c code (some (n, q.workOrder))) := by
      intro code rights h hne
      obtain ⟨-, hdoor, hc2, hq2, hw2⟩ := checkRights_contractor h hne hdist1 hq1
      rw [hcred] at hc2
      rw [State.denyPresentation_bound hc2 hq2, hdoor, State.issuer_of_workOrder (hw2.trans (congrFun hord _)),
        show (s1.door d).binding = some b by rw [hdoor1]; exact hbind]
    refine ⟨fun h => ?_, fun code h => ?_, fun g ov h hfree => ?_⟩
    · have hreset := checkRights_reset (x := .contractor d b.room n q) (n := o.space) (r := b.room) (w := w)
        (ow := o.window) (m := time.minute) (s := s1)
      simp only [h] at hreset hexec
      exact hexec.trans (congrArg _ (State.settle_of_nil _ (hreset rfl).waiting))
    · simp only [h] at hexec
      rw [hexec, ← hdenied code _ h nofun]
      rfl
    · obtain ⟨hk, -, -, hq2, hw2⟩ := checkRights_contractor h nofun hdist1 hq1
      rw [hord, hw] at hw2
      have hload : s2.loadOf b.room = s.loadOf b.room := (Decision.keeps_loadOf hk rfl).trans <| by
        unfold State.loadOf State.recordOf State.record
        rw [show s1.occupancy = s.occupancy from hs1 .occupancy (by decide)]
      have hallow : s2.allowanceAt b.room g.guaranteed g.ceiling = s.allowanceAt b.room g.guaranteed g.ceiling :=
        (Decision.keeps_allowanceAt hk).trans <| by
          unfold State.allowanceAt State.site
          rw [show s1.posture = s.posture from hs1 .posture (by decide),
            show s1.sites = s.sites from hs1 .sites (by decide)]
      have hfault : ∀ code, s2.admissionFault b.room g.guaranteed g.ceiling [n] = some code →
          exec (.presentEnter d c) s = .next (((s2.setDoor d
            { s1.door d with outgoing := (s1.door d).outgoing ++ [⟨.deny code, [c], false⟩] }).notifyBoth
              (s.issuer q.workOrder) (.denied d (some b) c code (some (n, q.workOrder)))).settle none) := by
        intro code hf
        simp only [h] at hexec
        rw [hexec, State.endContractor_noPlace (e := ⟨d, c, b.room, n, q, w, o, time, s.count⟩) hfree hf,
          ← hdenied code _ h nofun]
      rw [State.admissionFault_one hq2 hw2] at hfault
      refine ⟨fun hfull => hfault _ (if_neg (by omega)), fun hparty => ?_⟩
      rw [if_pos hparty] at hfault
      exact ⟨fun hroom => hfault _ (State.roomFault_full (by omega)),
        fun hroom hno hall => hfault _ (State.roomFault_tableFull (by omega) hno hall)⟩
  · intro s d c
    dsimp only
    intro hc hw hdist hphase hpos hbusy
    have hexec := exec_presentEnter_polled (s := s) (d := d) hc hphase hpos
    have hs1 := s.announce_polled_changes d
    have hdoor1 := s.announce_polled_door d
    generalize (s.endTurn d.lane).announce d = s1 at *
    have hper : s1.permit = s.permit := hs1.permit_eq (by decide)
    have hdist1 : s1.credentialsDistinct := by rwa [State.credentialsDistinct, hper]
    have hbusy1 : (s1.door d).admission.state = .awaitingConsent ∨ (s1.door d).admission.state = .passageOpen := by
      rwa [hdoor1]
    have hwait : (s1.denyPresentation d c .doorBusy).waiting = [] :=
      ((changesOnly_refl [.doors, .ports] s1).denyPresentation (by decide) .waiting (by decide)).trans
        ((hs1 .waiting (by decide)).trans hw)
    rw [hexec, State.takeEnter_settled (State.enterStage_busy hbusy1), State.settle_of_nil _ hwait]
    refine ⟨fun n q hq hcred => ?_, fun hno => ?_⟩
    · have hq1 : s1.permit n = some q := by rwa [hper]
      rw [State.denyPresentation_bound (State.permitOf_eq_of_distinct hdist1 hq1 hcred) hq1,
        State.issuer_of_workOrder (s := s) (congrFun (hs1.workOrder_eq (by decide)) _)]
    · rw [State.denyPresentation_unbound (State.permitOf_eq_none.2 (by rwa [hper]))]

end Sys2Proof.Machine

/-! SUPPORT. The steps of a pairing up to the escort's rights, and the denials that answer the escort alone (R152, R153,
R155). -/

namespace Sys2Proof.Machine

open State (changesOnly_refl)

variable {s t : State} {d : DoorId} {c : Credential} {code : DenyCode} {n m : PermitNo} {p q : Permit} {j : SlotNo}
  {x : Slot} {b : Binding} {v : DecisionValues} {room : Designator}

/-! ### The step that a presentation is judged against (R152) -/

theorem State.slotOf_eq_of_unique (hx : s.slot j = some x) (hd : x.door = d)
    (huniq : ∀ i y, s.slot i = some y → y.door = d → i = j) : s.slotOf d = some j :=
  State.slotOf_eq_some.2 ⟨⟨x, hx, hd⟩, fun i hi y hy hyd => absurd (huniq i y hy hyd) (ne_of_lt hi)⟩

theorem State.enterStage_pairing (ha : (s.door d).admission = .pairing m v) :
    s.enterStage d c = s.enterPairingDoor d v c := by
  unfold State.enterStage
  rw [ha]

/-- An escort step is expected of this credential: the first of any Escort-role permit, the last of the escort held. -/
def Slot.expectsEscort (x : Slot) (n : PermitNo) (c : Credential) : Prop :=
  x.expects = .escort ∨ (x.expects = .finalEscort ∧ ∃ ws, x.escort = some ⟨n, c, ws⟩)

theorem State.enterPairingDoor_escort (hk : s.slotOf d = some j) (hb : (s.door d).binding = some b)
    (hx : s.slot j = some x) (hn : s.permitOf c = some n) (hp : s.permit n = some p) (hr : p.role = .escort)
    (hstep : x.expectsEscort n c) : s.enterPairingDoor d v c = s.escortStep d j x b.room v c n p := by
  unfold State.enterPairingDoor
  simp only [hk, hb, hx]
  rcases hstep with he | ⟨he, ws, hws⟩
  · have hesc : s.escortOf c = some (n, p) := by simp [State.escortOf, hn, hp, hr]
    simp only [he, hesc]
  · simp only [he, hws, hp, if_true]

theorem State.enterPairingDoor_contractor (hk : s.slotOf d = some j) (hb : (s.door d).binding = some b)
    (hx : s.slot j = some x) (he : x.expects = .contractor) (hp : s.permit x.contractor = some p)
    (hc : p.credential = c) : s.enterPairingDoor d v c = .settled (s.contractorStep d j x c) := by
  have hcred : s.credentialOf x.contractor = c := by simp [State.credentialOf, hp, hc]
  unfold State.enterPairingDoor
  simp only [hk, hb, hx, he, hcred, if_true]

/-! ### An escort step up to the rights (R153) -/

theorem State.escortStep_held (hh : (s.lane d.lane).held = true) :
    s.escortStep d j x room v c n p = .settled (s.denyPresentation d c .held) := if_pos hh

theorem State.escortStep_revoked (hh : (s.lane d.lane).held = false) (hr : p.revoked = true) :
    s.escortStep d j x room v c n p = .settled (s.denyPresentation d c .revoked) := by
  unfold State.escortStep
  rw [if_neg (by simp [hh]), if_pos hr]
  rfl

/-- The escort's permit is Pending or Inside, or at the first step a slot holds it. -/
def State.escortBusy (s : State) (x : Slot) (n : PermitNo) (p : Permit) : Prop :=
  p.state ≠ .idle ∨ (x.expects ≠ .finalEscort ∧ ∃ i y, s.slot i = some y ∧ y.holds n = true)

theorem State.escortBusy_iff :
    (p.state.counted || (x.expects != .finalEscort && (s.slotHolding n).isSome)) = true ↔ s.escortBusy x n p := by
  have hcounted : p.state.counted = true ↔ p.state ≠ .idle := by cases p.state <;> simp [PermitState.counted]
  have hholding : (s.slotHolding n).isSome = true ↔ ∃ i y, s.slot i = some y ∧ y.holds n = true := by
    rw [Option.isSome_iff_exists]
    refine ⟨fun ⟨i, hi⟩ => ⟨i, State.slotHolding_eq_some hi⟩, fun ⟨i, y, hy, hn⟩ => ?_⟩
    by_contra hno
    have hnone : s.slotHolding n = none := Option.eq_none_iff_forall_ne_some.2 fun i hi => hno ⟨i, hi⟩
    have hi := lowest_eq_none.1 hnone i
    have hget : s.slots.get i = s.slot i := rfl
    rw [hget, hy] at hi
    exact absurd hn (by simpa using hi)
  rw [Bool.or_eq_true, Bool.and_eq_true, hcounted, hholding, bne_iff_ne]
  rfl

theorem State.escortStep_busy (hh : (s.lane d.lane).held = false) (hr : p.revoked = false)
    (hbusy : s.escortBusy x n p) : s.escortStep d j x room v c n p = .settled (s.denyPresentation d c .alreadyInside) := by
  unfold State.escortStep
  rw [if_neg (by simp [hh]), if_neg (by simp [hr]), if_pos (State.escortBusy_iff.2 hbusy)]
  rfl

theorem State.escortStep_clockUnset (hh : (s.lane d.lane).held = false) (hr : p.revoked = false)
    (hfree : ¬ s.escortBusy x n p) (hclock : s.clock = none) :
    s.escortStep d j x room v c n p = .settled (s.denyPresentation d c .clockUnset) := by
  unfold State.escortStep
  rw [if_neg (by simp [hh]), if_neg (by simp [hr]), if_neg (mt State.escortBusy_iff.1 hfree), hclock]
  rfl

theorem State.escortStep_asks {time : ClockTime} {w : WorkOrder} (hh : (s.lane d.lane).held = false)
    (hr : p.revoked = false) (hfree : ¬ s.escortBusy x n p) (hclock : s.clock = some time) (hw : s.workOrder 0 = some w)
    (hq : s.permit x.contractor = some q) :
    s.escortStep d j x room v c n p = .escort ⟨d, c, room, j, x, v, n, q.workOrder, w, time, s.count⟩ := by
  unfold State.escortStep
  rw [if_neg (by simp [hh]), if_neg (by simp [hr]), if_neg (mt State.escortBusy_iff.1 hfree), hclock, hw]
  simp only [hq]

/-! ### The escort's rights, and what follows -/

/-- The checks of an escort's rights, unless they are discarded, leave the door and the permit as they were, and no second
permit bound to the credential. -/
theorem checkRights_escort {k : WorkOrderNo} {a : SpaceNo} {w : WorkOrder} {ow : Option Window} {minute : Nat}
    {rights : Resolution (GrantSummary × OverlaySummary)}
    (h : checkRights (.escort d room x n k) a room w ow minute s = (t, rights)) (hne : rights ≠ .discarded)
    (hdist : s.credentialsDistinct) (hp : s.permit n = some p) :
    t.door d = s.door d ∧ t.permitOf p.credential = some n ∧ t.permit n = some p := by
  have hk := checkRights_keeps (x := .escort d room x n k) (n := a) (r := room) (w := w) (ow := ow) (m := minute)
    (s := s) (by rw [h]; exact hne)
  have hdist' := checkRights_credentials (x := .escort d room x n k) (m := a) (r := room) (w := w) (ow := ow)
    (minute := minute) hdist
  rw [h] at hk hdist'
  obtain ⟨-, -, hdoor, -, hper, -⟩ := Decision.keeps_iff.1 hk
  have hp' : t.permit n = some p := (hper n (by simp [Decision.escort])).trans hp
  exact ⟨(State.sameDoor_iff.1 (hdoor d rfl)).1, State.permitOf_eq_of_distinct hdist' hp' rfl, hp'⟩

/-- In the first of two rounds an escort that passes is held (R155). -/
theorem State.endEscort_first {e : EscortEntry} {g : GrantSummary} {ov : OverlaySummary} (hr : e.slot.rounds = 2)
    (he : e.slot.expects = .escort) : s.endEscort e (.ok (g, ov)) = s.setSlot e.slotNo (some { e.slot with
      escort := some ⟨e.permit, e.credential, g.windows⟩, expects := .contractor, timer := .running (e.count + 8) }) := by
  unfold State.endEscort
  dsimp only
  rw [if_neg (by simp [hr, he])]

theorem State.contractorStep_held (hh : (s.lane d.lane).held = true) :
    s.contractorStep d j x c = s.denyPresentation d c .held := if_pos hh

theorem State.contractorStep_taken (hh : (s.lane d.lane).held = false) : s.contractorStep d j x c =
    s.setSlot j (some { x with expects := .finalEscort, timer := .running (s.count + 8) }) := if_neg (by simp [hh])

/-- What a denial changes: the door's verdicts, and the queues of the ports (R141). -/
theorem State.denyPresentation_door (s : State) (d : DoorId) (c : Credential) (code : DenyCode) (e : DoorId) :
    (s.denyPresentation d c code).door e = if e = d then
      { s.door d with outgoing := (s.door d).outgoing ++ [⟨.deny code, [c], false⟩] } else s.door e := by
  have hd := ((changesOnly_refl [.ports] (s.addVerdict d ⟨.deny code, [c], false⟩)).notifyDenied
    (d := d) (c := c) (code := code) (by decide)).door_eq (by decide)
  unfold State.denyPresentation
  rw [hd]
  exact State.setDoor_door ..

/-- Settles O44: each step is routed by what the slot expects, and a denial at it answers the presentation alone. -/
theorem twoRoundPairingSteps : Obligations.TwoRoundPairingSteps := by
  unfold Obligations.TwoRoundPairingSteps
  intro s d c b j x v
  dsimp only
  intro hc hw hdist hphase hpos hbind hadm hx hxd huniq
  have hexec := exec_presentEnter_polled (s := s) (d := d) hc hphase hpos
  have hs1 := s.announce_polled_changes d
  have hdoor1 := s.announce_polled_door d
  have hheld1 := s.announce_polled_held d
  generalize (s.endTurn d.lane).announce d = s1 at *
  have hper : s1.permit = s.permit := hs1.permit_eq (by decide)
  have hslot : s1.slot = s.slot := hs1.slot_eq (by decide)
  have hclock : s1.clock = s.clock := hs1 .clock (by decide)
  have hcount : s1.count = s.count := hs1 .count (by decide)
  have hord : s1.workOrder = s.workOrder := hs1.workOrder_eq (by decide)
  have hw1 : s1.waiting = [] := (hs1 .waiting (by decide)).trans hw
  have hdist1 : s1.credentialsDistinct := by rwa [State.credentialsDistinct, hper]
  have hbind1 : (s1.door d).binding = some b := by rw [hdoor1]; exact hbind
  have hx1 : s1.slot j = some x := by rwa [hslot]
  have hk1 : s1.slotOf d = some j := State.slotOf_eq_of_unique hx1 hxd (by rwa [hslot])
  have hstage : s1.enterStage d c = s1.enterPairingDoor d v c :=
    State.enterStage_pairing (m := x.contractor) (by rw [hdoor1]; exact hadm)
  have hsettled : ∀ t, s1.enterStage d c = .settled t → t.waiting = [] → exec (.presentEnter d c) s = .next t :=
    fun t ht hwt => by rw [hexec, State.takeEnter_settled ht, State.settle_of_nil _ hwt]
  have hdenyWaiting : ∀ code, (s1.denyPresentation d c code).waiting = [] := fun code =>
    ((changesOnly_refl [.doors, .ports] s1).denyPresentation (by decide) .waiting (by decide)).trans hw1
  have hescort : ∀ {n pe}, s.permit n = some pe → pe.credential = c → pe.role = .escort → x.expectsEscort n c →
      s1.enterStage d c = s1.escortStep d j x b.room v c n pe := fun hp hcred hrole hstep =>
    hstage.trans (State.enterPairingDoor_escort hk1 hbind1 hx1
      (State.permitOf_eq_of_distinct hdist1 (hper ▸ hp) hcred) (hper ▸ hp) hrole hstep)
  refine ⟨?_, fun pc he hpc hcred => ?_, fun n pe hp hcred hrole hstep => ?_⟩
  · intro time n pc pe w0 s2 g ov htime he hrounds hheld hp hcred hrole hrev hidle hfree hw0 hpc hrights
    have hbusy : ¬ s1.escortBusy x n pe := by
      rintro (h | ⟨-, i, y, hy, hn⟩)
      · exact h hidle
      · rw [hslot] at hy
        exact absurd hn (by simp [hfree i y hy])
    have hask := (hescort hp hcred hrole (.inl he)).trans (State.escortStep_asks (hheld1.trans hheld) hrev hbusy
      (hclock.trans htime) (by rwa [hord]) (by rwa [hper]))
    rw [hexec, State.takeEnter_escort hask]
    unfold State.enterEscort
    simp only [hrights]
    rw [State.endEscort_first (s := s2) hrounds he, hcount]
  · have hstep := hstage.trans (State.enterPairingDoor_contractor (v := v) hk1 hbind1 hx1 he (by rwa [hper]) hcred)
    refine ⟨fun hheld => ?_, fun hheld => ?_⟩
    · rw [State.contractorStep_taken (hheld1.trans hheld), hcount] at hstep
      exact hsettled _ hstep hw1
    · rw [State.contractorStep_held (hheld1.trans hheld)] at hstep
      exact ⟨_, hsettled _ hstep (hdenyWaiting _), (changesOnly_refl _ s1).denyPresentation (by decide),
        (s1.denyPresentation_door ..).trans (if_pos rfl), fun e he => (s1.denyPresentation_door ..).trans (if_neg he)⟩
  · have hp1 : s1.permit n = some pe := hper ▸ hp
    have hn1 := State.permitOf_eq_of_distinct hdist1 hp1 hcred
    have hstage' := hescort hp hcred hrole hstep
    have hbusyIff : s1.escortBusy x n pe ↔
        pe.state ≠ .idle ∨ (x.expects = .escort ∧ ∃ i y, s.slot i = some y ∧ y.holds n = true) := by
      have hexp : x.expects ≠ .finalEscort ↔ x.expects = .escort := by
        rcases hstep with h | ⟨h, -⟩ <;> simp [h]
      unfold State.escortBusy
      rw [hslot, hexp]
    have hdenied : ∀ code, s1.enterStage d c = .settled (s1.denyPresentation d c code) →
        exec (.presentEnter d c) s = .next ((s1.setDoor d
          { s1.door d with outgoing := (s1.door d).outgoing ++ [⟨.deny code, [c], false⟩] }).notifyBoth
            (s1.issuer pe.workOrder) (.denied d (some b) c code (some (n, pe.workOrder)))) := fun code h => by
      rw [hsettled _ h (hdenyWaiting _), State.denyPresentation_bound hn1 hp1, hbind1]
    rw [← hbusyIff]
    refine ⟨fun hheld => hdenied _ (hstage'.trans (State.escortStep_held (hheld1.trans hheld))), fun hheld =>
      ⟨fun hrev => hdenied _ (hstage'.trans (State.escortStep_revoked (hheld1.trans hheld) hrev)),
      fun hrev hbusy => hdenied _ (hstage'.trans (State.escortStep_busy (hheld1.trans hheld) hrev hbusy)),
      fun hrev hfree => ⟨fun hno => hdenied _ (hstage'.trans
        (State.escortStep_clockUnset (hheld1.trans hheld) hrev hfree (hclock.trans hno))), ?_⟩⟩⟩
    intro time w0 pc s2 htime hw0 hpc
    have hask := hstage'.trans (State.escortStep_asks (hheld1.trans hheld) hrev hfree (hclock.trans htime) (by rwa [hord])
      (by rwa [hper]))
    rw [hexec, State.takeEnter_escort hask]
    unfold State.enterEscort
    refine ⟨fun code h => ?_, fun h => ?_⟩
    · obtain ⟨hdoor, hc2, hp2⟩ := checkRights_escort h nofun hdist1 hp1
      rw [hcred] at hc2
      have hdeny := State.denyPresentation_bound (d := d) (code := code) hc2 hp2
      rw [hdoor, hbind1] at hdeny
      simp only [h]
      rw [← hdeny]
      rfl
    · have hreset := checkRights_reset (x := .escort d b.room x n pc.workOrder) (n := 1) (r := b.room) (w := w0)
        (ow := none) (m := time.minute) (s := s1)
      simp only [h] at hreset ⊢
      exact congrArg _ (State.settle_of_nil _ (hreset rfl).waiting)

end Sys2Proof.Machine

/-! SUPPORT. What a selection comes to from the results of its tests (R105 to R111), and SELECTION_DEADLINE. -/

namespace Sys2Proof.Machine

variable {s t : State} {n : WorkOrderNo} {w : WorkOrder} {x : Decision} {now : Reading} {c b : Candidate}
  {results : List (Resolution Candidate)} {l : List Candidate} {k : Preference}

/-! ### The keys of R107 -/

theorem Candidate.before_iff : c.before k b = true ↔ c.precedes k b := by
  unfold Candidate.before Candidate.precedes
  cases k <;> split_ifs <;> simp <;> omega

theorem Candidate.precedes_asymm (h : c.precedes k b) : ¬ b.precedes k c := by
  unfold Candidate.precedes at *
  cases k <;> dsimp only at * <;> omega

theorem choose_mem (h : choose k l = some c) : c ∈ l := by
  induction l generalizing c with
  | nil => exact nomatch h
  | cons a l ih =>
    unfold choose at h
    split at h
    · obtain rfl := Option.some.inj h
      exact List.mem_cons_self
    · rename_i b hb
      obtain rfl := Option.some.inj h
      split_ifs
      · exact List.mem_cons_self
      · exact List.mem_cons_of_mem _ (ih hb)

/-- The candidate that comes before every other is the one chosen. -/
theorem choose_eq_some (hc : c ∈ l) (h : ∀ c' ∈ l, c' = c ∨ c.precedes k c') : choose k l = some c := by
  induction l with
  | nil => exact absurd hc List.not_mem_nil
  | cons a l ih =>
    have hl : ∀ c' ∈ l, c' = c ∨ c.precedes k c' := fun c' hc' => h c' (List.mem_cons_of_mem _ hc')
    unfold choose
    by_cases hcl : c ∈ l
    · rw [ih hcl hl]
      dsimp only
      split_ifs with ha
      · rcases h a List.mem_cons_self with rfl | hca
        · rfl
        · exact absurd (Candidate.before_iff.1 ha) (Candidate.precedes_asymm hca)
      · rfl
    · obtain rfl := (List.mem_cons.1 hc).resolve_right hcl
      cases hb : choose k l with
      | none => rfl
      | some b =>
        dsimp only
        have hbl := choose_mem hb
        rw [if_pos (Candidate.before_iff.2 ((hl b hbl).resolve_left fun hbc => hcl (hbc ▸ hbl)))]

theorem mem_candidates : c ∈ candidates results ↔ .ok c ∈ results := by
  unfold candidates
  rw [List.mem_filterMap]
  constructor
  · rintro ⟨r, hr, hc⟩
    cases r with
    | ok a => exact Option.some.inj hc ▸ hr
    | error e => exact nomatch hc
    | discarded => exact nomatch hc
  · exact fun h => ⟨_, h, rfl⟩

/-! ### The results of the tests -/

/-- The result of a selection from those of its tests (R38, R107, R108). -/
def selectionOf (w : WorkOrder) (results : List (Resolution Candidate)) : SelectionResult :=
  if results.contains .discarded then .discarded else judgeTests w results

theorem runSelection_eq (x : Decision) (now : Reading) (w : WorkOrder) (s : State) :
    runSelection x now w s =
      ((testOptions x now w 1 w.options s).1, selectionOf w (testOptions x now w 1 w.options s).2) := rfl

theorem selectionOf_discarded (h : .discarded ∈ results) : selectionOf w results = .discarded :=
  if_pos (List.contains_iff_mem.2 h)

theorem selectionOf_best (h : w.bestOf results c) : selectionOf w results =
    if w.requiredMinimum ≤ c.cap then .chosen c false
    else if w.refuseOnShortfall then .failed (.shortfall c.index c.cap) else .chosen c true := by
  obtain ⟨hd, hc, hbest⟩ := h
  unfold selectionOf judgeTests
  rw [if_neg (mt List.contains_iff_mem.1 hd), choose_eq_some (mem_candidates.2 hc) fun c' hc' =>
    hbest c' (mem_candidates.1 hc')]

theorem selectionOf_errors (codes : List DenyCode) : selectionOf w (codes.map .error) = .failed (.noOption codes) := by
  have hd : .discarded ∉ (codes.map .error : List (Resolution Candidate)) := by simp
  have hc : candidates (codes.map .error) = [] := by simp [candidates, List.filterMap_map]
  have hr : reasons (codes.map .error) = codes := by simp [reasons, List.filterMap_map]
  unfold selectionOf judgeTests
  rw [if_neg (mt List.contains_iff_mem.1 hd), hc, hr]
  rfl

/-- With the clock Unset no option is eligible, and no request is made (R105). -/
theorem testOptions_clockUnset (h : now.clock = none) (j : Nat) (os : List WorkOption) :
    testOptions x now w j os s = (s, os.map fun _ => .error .clockUnset) := by
  have hask : ∀ o, optionAsk now w o = .error .clockUnset := fun o => by
    unfold optionAsk
    rw [h]
  induction os generalizing j with
  | nil => rfl
  | cons o os ih =>
    have htest : testOption x now w j o s = (s, .error .clockUnset) := by
      unfold testOption
      rw [hask]
    unfold testOptions
    rw [htest]
    dsimp only
    rw [ih]
    rfl

/-! ### What the result does to the work order (R108 to R111) -/

theorem State.applyResult_chosen {time : ClockTime} {short : Bool} (h : now.clock = some time) :
    s.applyResult now n w (.chosen c short) =
      let stored := s.setWorkOrder n (some (w.withOption c short (minuteDeadline now.count time c.remaining)))
      (if short then stored.notify w.issuer (.shortfall n c.index c.cap w.requiredMinimum) else stored).notify w.issuer
        (.optionSelected n c.index c.cap c.remaining c.level short) := by
  simp only [State.applyResult, State.applySelection, h, Option.map_some]
  rfl

theorem State.applyResult_lapse {f : SelectionFailure} (h : w.state = .active) :
    s.applyResult now n w (.failed f) = (s.setWorkOrder n (some w.asLapsed)).notify w.issuer (.workOrderLapsed n f) :=
  if_pos h

theorem State.applyResult_failed {f : SelectionFailure} (h : w.state ≠ .active) :
    s.applyResult now n w (.failed f) = s := if_neg h

/-! ### SELECTION_DEADLINE -/

theorem exec_selectionDeadline_early (hwait : s.waiting = [])
    (h : ∀ w k, s.workOrder n = some w → w.state = .active → w.deadline = some k → s.count < k) :
    exec (.selectionDeadline n) s = .next s := by
  have hrow : exec (.selectionDeadline n) s = execSelectionDeadline n s := rfl
  rw [hrow]
  unfold execSelectionDeadline
  cases hw : s.workOrder n with
  | none => exact congrArg _ (State.settle_of_nil _ hwait)
  | some w =>
    dsimp only
    have hno : ¬ (w.state = .active ∧ s.reached w.deadline) := fun ⟨ha, hr⟩ => by
      cases hd : w.deadline with
      | none => simp [State.reached, hd] at hr
      | some k => exact absurd (h w k hw ha hd) (by simpa [State.reached, hd] using hr)
    rw [if_neg hno]
    exact congrArg _ (State.settle_of_nil _ hwait)

theorem exec_selectionDeadline_reached {k : Nat} (hw : s.workOrder n = some w) (ha : w.state = .active)
    (hd : w.deadline = some k) (hk : k ≤ s.count) :
    exec (.selectionDeadline n) s = .next ((s.select none [] s.reading n w).settle none) := by
  have hr : s.reached w.deadline := by simpa [State.reached, hd] using hk
  have hrow : exec (.selectionDeadline n) s = execSelectionDeadline n s := rfl
  rw [hrow]
  unfold execSelectionDeadline
  rw [hw]
  dsimp only
  rw [if_pos ⟨ha, hr⟩]
  rfl

/-- Settles O31: one selection runs, and what follows is what its result does to the work order. -/
theorem selectionDeadlineReselectsOrLapses : Obligations.SelectionDeadlineReselectsOrLapses := by
  unfold Obligations.SelectionDeadlineReselectsOrLapses
  intro s n hwait
  dsimp only
  refine ⟨exec_selectionDeadline_early hwait, fun w k hw ha hd hk => ?_⟩
  · rw [exec_selectionDeadline_reached hw ha hd hk]
    unfold State.select
    rw [runSelection_eq]
    dsimp only
    refine ⟨fun c time hclock hbest => ?_, fun codes hcodes => ?_, fun hdis => ?_, fun hclock => ?_⟩
    · have hnow : s.reading.clock = some time := hclock
      rw [selectionOf_best hbest]
      refine ⟨fun hmin => ?_, fun hshort hno => ?_, fun hshort hyes => ?_⟩
      · rw [if_pos hmin, State.applyResult_chosen hnow]
        rfl
      · rw [if_neg (by omega), hno, if_neg (by simp), State.applyResult_chosen hnow]
        rfl
      · rw [if_neg (by omega), if_pos hyes, State.applyResult_lapse ha]
    · rw [hcodes, selectionOf_errors, State.applyResult_lapse ha]
    · rw [selectionOf_discarded hdis]
      exact congrArg _ (State.settle_of_nil _ (testOptions_reset hdis).waiting)
    · have hnow : s.reading.clock = none := hclock
      rw [testOptions_clockUnset hnow]
      have hmap : (w.options.map fun _ => (.error .clockUnset : Resolution Candidate)) =
          (w.options.map fun _ => DenyCode.clockUnset).map .error := by simp
      dsimp only
      rw [hmap, selectionOf_errors, State.applyResult_lapse ha]

end Sys2Proof.Machine

/-! SUPPORT. The test of an option (R105, R106), in every selection. -/

namespace Sys2Proof.Machine

variable {s : State} {x : Decision} {now : Reading} {w : WorkOrder} {j m : Nat} {o : WorkOption} {time : ClockTime}
  {home : Designator} {g : GrantSummary} {ov : OverlaySummary} {ws : List Window}

/-! ### The effective remaining of a set of windows (R81) -/

theorem foldl_min_spec (m : Nat) (ws : List Window) (k : Nat) :
    let r := ws.foldl (fun r v => min r (v.remaining m)) k
    r ≤ k ∧ (∀ v ∈ ws, r ≤ v.remaining m) ∧ (r = k ∨ ∃ v ∈ ws, r = v.remaining m) := by
  induction ws generalizing k with
  | nil => simp
  | cons a ws ih =>
    obtain ⟨hle, hall, hor⟩ := ih (min k (a.remaining m))
    refine ⟨hle.trans (min_le_left ..), fun v hv => ?_, ?_⟩
    · rcases List.mem_cons.1 hv with rfl | hv
      · exact hle.trans (min_le_right ..)
      · exact hall v hv
    · rcases hor with h | ⟨v, hv, h⟩
      · rcases min_choice k (a.remaining m) with hk | hk
        · exact .inl (h.trans hk)
        · exact .inr ⟨a, List.mem_cons_self, h.trans hk⟩
      · exact .inr ⟨v, List.mem_cons_of_mem _ hv, h⟩

/-- The effective remaining is the least remaining of a window, and at most a day. -/
theorem effectiveRemaining_spec (ws : List Window) (m : Nat) :
    effectiveRemaining ws m ≤ 1440 ∧ (∀ v ∈ ws, effectiveRemaining ws m ≤ v.remaining m) ∧
      (effectiveRemaining ws m = 1440 ∨ ∃ v ∈ ws, effectiveRemaining ws m = v.remaining m) := foldl_min_spec m ws 1440

/-! ### The level (R61) -/

theorem requirementLevel_forced (h : g.escort = true ∨ ov.forces m = true) : requirementLevel g ov m = max g.category 1 := by
  unfold requirementLevel
  rcases h with h | h <;> simp [h]

theorem requirementLevel_plain (h : ¬ (g.escort = true ∨ ov.forces m = true)) : requirementLevel g ov m = g.category := by
  obtain ⟨h1, h2⟩ := not_or.1 h
  simp [requirementLevel, h1, h2]

theorem OverlaySummary.forces_iff_windows : ov.forces m = true ↔
    ∃ i ∈ ov.items, i.force = true ∧ ∀ v, i.window = some v → v.contains m = true := by
  simp only [OverlaySummary.forces_iff, OverlayItem.active_iff]

/-! ### The checks before the requests -/

theorem WorkOrder.dayPasses_iff {day : Nat} : w.dayPasses day = true ↔
    ∀ first last, w.days = some (first, last) → first ≤ day ∧ day ≤ last := by
  unfold WorkOrder.dayPasses
  cases w.days with
  | none => simp
  | some days =>
    obtain ⟨a, b⟩ := days
    simp only [Bool.and_eq_true, decide_eq_true_eq, Option.some.injEq, Prod.mk.injEq]
    exact ⟨fun h _ _ hd => hd.1 ▸ hd.2 ▸ h, fun h => h a b ⟨rfl, rfl⟩⟩

theorem allContain_option : allContain o.window.toList m = true ↔ ∀ v, o.window = some v → v.contains m = true := by
  rw [allContain_iff]
  simp

theorem testOption_unasked {c : DenyCode} (h : optionAsk now w o = .error c) :
    testOption x now w j o s = (s, .error c) := by
  unfold testOption
  rw [h]

theorem testOption_asks (h : optionAsk now w o = .ok (time, home)) :
    testOption x now w j o s =
      ((checkRights x o.space home w none time.minute s).1,
        (checkRights x o.space home w none time.minute s).1.optionResult j o home time
          (checkRights x o.space home w none time.minute s).2) := by
  unfold testOption
  rw [h]

theorem optionAsk_clockUnset (h : now.clock = none) : optionAsk now w o = .error .clockUnset := by
  unfold optionAsk
  rw [h]

theorem optionAsk_dayRange (h : now.clock = some time) (hd : w.dayPasses time.day = false) :
    optionAsk now w o = .error .dayRange := by
  unfold optionAsk
  rw [h]
  exact if_pos (by simp [hd])

theorem optionAsk_outside (h : now.clock = some time) (hd : w.dayPasses time.day = true)
    (ho : allContain o.window.toList time.minute = false) : optionAsk now w o = .error .outsideWindow := by
  unfold optionAsk
  rw [h]
  dsimp only
  rw [if_neg (by simp [hd]), if_pos (by simp [ho])]

theorem optionAsk_ok (h : now.clock = some time) (hd : w.dayPasses time.day = true)
    (ho : allContain o.window.toList time.minute = true) (hh : w.home = some home) :
    optionAsk now w o = .ok (time, home) := by
  unfold optionAsk
  rw [h]
  dsimp only
  rw [if_neg (by simp [hd]), if_neg (by simp [ho]), hh]

/-! ### The options in index order -/

theorem testOptions_discarded {l : List WorkOption} (h : (testOption x now w j o s).2 = .discarded) :
    testOptions x now w j (o :: l) s = ((testOption x now w j o s).1, [.discarded]) := by
  unfold testOptions
  cases ht : testOption x now w j o s with
  | mk t r =>
    obtain rfl : r = .discarded := by simpa [ht] using h
    rfl

theorem testOptions_cons {l : List WorkOption} (h : (testOption x now w j o s).2 ≠ .discarded) :
    testOptions x now w j (o :: l) s =
      ((testOptions x now w (j + 1) l (testOption x now w j o s).1).1,
        (testOption x now w j o s).2 :: (testOptions x now w (j + 1) l (testOption x now w j o s).1).2) := by
  conv_lhs => unfold testOptions
  cases ht : testOption x now w j o s with
  | mk t r =>
    cases r with
    | ok c => rfl
    | error c => rfl
    | discarded => exact absurd (by rw [ht]) h

/-- The cap of an option, from the posture and the site as its selection reads them (R90, R106). -/
theorem State.candidateOf_cap {t : State} (h : s.sameAllowances home t) :
    (t.candidateOf j o home time g ov).cap = min o.cap (s.allowanceAt home g.guaranteed g.ceiling) := by
  unfold State.candidateOf State.allowanceAt
  rw [h.1, h.2]

end Sys2Proof.Machine

/-! SUPPORT. ACTIVATE: a selection that nothing meets reads nothing of the ports, so that its reply comes before its
notices; and one that an ESTATE CLEAR discards is answered at its port all the same (R110, R169, R173). -/

namespace Sys2Proof.Machine

open State (changesOnly_refl)

variable {s t : State} {p : Authority} {x : Decision} {n : SpaceNo} {r : Designator} {w : WorkOrder} {now : Reading}
  {j : Nat} {a : NumberArgs} {code : Byte} {answer : Answer}

/-! ### Requests that nothing meets read nothing of the ports -/

/-- The state with other ports. -/
def State.withPorts (s : State) (v : Ports) : State := { s with ports := v }

/-- What a request does with other ports: the same, beside them. -/
def State.besidePorts {α : Type} (v : Ports) (z : State × α) : State × α := (z.1.withPorts v, z.2)

theorem serveGrant_withPorts (own : List Party) (n : SpaceNo) (r : Designator) (v : Ports) (s : State) :
    serveGrant own n r .none (s.withPorts v) = State.besidePorts v (serveGrant own n r .none s) := by
  have hspace : (s.withPorts v).space n = s.space n := rfl
  have hcache : (s.withPorts v).cache = s.cache := rfl
  unfold serveGrant
  simp only [State.beginRequest_none, Progress.meet_none, hspace, hcache]
  cases (s.space n).current with
  | none => rfl
  | some d =>
    dsimp only
    cases cachePick n (s.space n).generation d.isPrivate r s.cache with
    | some e => rfl
    | none =>
      have hwalk : grantWalk (fun _ => s.withPorts v) d r = grantWalk (fun _ => s) d r := rfl
      dsimp only
      rw [hwalk]
      cases grantWalk (fun _ => s) d r <;> rfl

theorem serveOverlay_withPorts (own : List Party) (r : Designator) (v : Ports) (s : State) :
    serveOverlay own r .none (s.withPorts v) = State.besidePorts v (serveOverlay own r .none s) := by
  have hspace : (s.withPorts v).space 0 = s.space 0 := rfl
  have hcache : (s.withPorts v).cache = s.cache := rfl
  unfold serveOverlay
  simp only [State.beginRequest_none, Progress.meet_none, hspace, hcache]
  cases (s.space 0).current with
  | none => rfl
  | some d =>
    dsimp only
    cases cachePick 0 (s.space 0).generation d.isPrivate r s.cache with
    | some e => rfl
    | none =>
      have hwalk : overlayWalk (fun _ => s.withPorts v) d r = overlayWalk (fun _ => s) d r := rfl
      dsimp only
      rw [hwalk]
      cases overlayWalk (fun _ => s) d r <;> rfl

section
variable (hw : s.waiting = []) (hm : s.meetings = [])
include hw hm

theorem resolveGrant_unmet : resolveGrant x n r s = serveGrant [⟨x, r⟩] n r .none s := by
  obtain ⟨h1, h2⟩ := State.served_of_unmet hm
  unfold resolveGrant
  rw [State.serveAhead_of_idle hw]
  dsimp only
  rw [h1, h2]

theorem resolveOverlay_unmet : resolveOverlay x r s = serveOverlay [⟨x, r⟩] r .none s := by
  obtain ⟨h1, h2⟩ := State.served_of_unmet hm
  unfold resolveOverlay
  rw [State.serveAhead_of_idle hw]
  dsimp only
  rw [h1, h2]

theorem checkRights_unmet {ow : Option Window} {m : Nat} (v : Ports) :
    checkRights x n r w ow m (s.withPorts v) = State.besidePorts v (checkRights x n r w ow m s) ∧
      s.changesOnly [.cache] (checkRights x n r w ow m s).1 ∧ (checkRights x n r w ow m s).2 ≠ .discarded := by
  have hg1 : resolveGrant x n r (s.withPorts v) = serveGrant [⟨x, r⟩] n r .none (s.withPorts v) :=
    resolveGrant_unmet hw hm
  have hg2 := resolveGrant_unmet (x := x) (n := n) (r := r) hw hm
  obtain ⟨hc1, hd1⟩ := serveGrant_none [⟨x, r⟩] n r s
  rw [serveGrant_withPorts] at hg1
  unfold checkRights
  rw [hg1, hg2]
  rcases hg : serveGrant [⟨x, r⟩] n r .none s with ⟨s1, g | c | _⟩ <;> rw [hg] at hc1 hd1
  · have hw1 : s1.waiting = [] := (hc1.same_waiting (by decide)).trans hw
    have hm1 : s1.meetings = [] := (hc1.same_meetings (by decide)).trans hm
    have ho1 : resolveOverlay x r (s1.withPorts v) = serveOverlay [⟨x, r⟩] r .none (s1.withPorts v) :=
      resolveOverlay_unmet hw1 hm1
    have ho2 := resolveOverlay_unmet (x := x) (r := r) hw1 hm1
    obtain ⟨hc2, hd2⟩ := serveOverlay_none [⟨x, r⟩] r s1
    rw [serveOverlay_withPorts] at ho1
    dsimp only [State.besidePorts]
    rw [ho1, ho2]
    rcases ho : serveOverlay [⟨x, r⟩] r .none s1 with ⟨s2, ov | c | _⟩ <;> rw [ho] at hc2 hd2
    · exact ⟨rfl, hc1.trans hc2, fun h => State.judgeRights_ne_discarded _ _ _ _ _ _ _ h⟩
    · exact ⟨rfl, hc1.trans hc2, nofun⟩
    · exact absurd rfl hd2
  · exact ⟨rfl, hc1, nofun⟩
  · exact absurd rfl hd1

theorem testOption_unmet {o : WorkOption} (v : Ports) :
    testOption x now w j o (s.withPorts v) = State.besidePorts v (testOption x now w j o s) ∧
      s.changesOnly [.cache] (testOption x now w j o s).1 ∧ (testOption x now w j o s).2 ≠ .discarded := by
  cases hask : optionAsk now w o with
  | error c =>
    rw [testOption_unasked hask, testOption_unasked hask]
    exact ⟨rfl, changesOnly_refl _ s, nofun⟩
  | ok z =>
    obtain ⟨time, home⟩ := z
    obtain ⟨hv, hc, hd⟩ := checkRights_unmet (x := x) (n := o.space) (r := home) (w := w) (ow := none)
      (m := time.minute) hw hm v
    rw [testOption_asks hask, testOption_asks hask, hv]
    refine ⟨rfl, hc, ?_⟩
    dsimp only
    rcases h : (checkRights x o.space home w none time.minute s).2 with g | c | _
    · exact nofun
    · exact nofun
    · exact absurd h hd

theorem testOptions_unmet {l : List WorkOption} (v : Ports) :
    testOptions x now w j l (s.withPorts v) = State.besidePorts v (testOptions x now w j l s) ∧
      s.changesOnly [.cache] (testOptions x now w j l s).1 := by
  induction l generalizing j s with
  | nil => exact ⟨rfl, changesOnly_refl _ s⟩
  | cons o l ih =>
    obtain ⟨hv, hc, hd⟩ := testOption_unmet (x := x) (now := now) (w := w) (j := j) (o := o) hw hm v
    obtain ⟨hv', hc'⟩ := ih (j := j + 1) ((hc.same_waiting (by decide)).trans hw)
      ((hc.same_meetings (by decide)).trans hm)
    rw [testOptions_cons hd, testOptions_cons (by rw [hv]; exact hd), hv]
    dsimp only [State.besidePorts]
    rw [hv']
    exact ⟨rfl, hc.trans hc'⟩

/-- A selection that nothing meets runs the same while the place of its command's reply is held. -/
theorem testOptions_reserveReply {l : List WorkOption} :
    testOptions x now w j l (s.reserveReply p) =
      ((testOptions x now w j l s).1.reserveReply p, (testOptions x now w j l s).2) := by
  obtain ⟨hv, hc⟩ := testOptions_unmet (x := x) (now := now) (w := w) (j := j) (l := l) hw hm (s.reserveReply p).ports
  have hports : (testOptions x now w j l s).1.ports = s.ports := hc .ports (by decide)
  have hres : (testOptions x now w j l s).1.withPorts (s.reserveReply p).ports =
      (testOptions x now w j l s).1.reserveReply p := by
    simp only [State.withPorts, State.reserveReply, State.setPort, State.port, hports]
  have hs : s.reserveReply p = s.withPorts (s.reserveReply p).ports := rfl
  rw [hs, hv]
  exact Prod.ext hres rfl

end

/-! ### What ACTIVATE does with its argument -/

theorem activateOf_badArgument (h : 63 < a.number.toNat) : activateOf p a s = .error .badArgument := by
  unfold activateOf
  rw [workOrder?_eq_none.2 h]

section
variable {k : WorkOrderNo} (hk : a.number.toNat = k.val)
include hk

theorem activateOf_notPermitted (h : k = 0 ∨ ∀ w, s.workOrder k = some w → w.issuer ≠ p) :
    activateOf p a s = .error .notPermitted := by
  unfold activateOf
  rw [workOrder?_eq_some.2 hk]
  dsimp only
  cases hw : s.workOrder k with
  | none => rfl
  | some w => exact if_pos (h.imp (fun h0 => congrArg Fin.val h0) fun hi => hi w hw)

theorem activateOf_issuer (h0 : k ≠ 0) (hw : s.workOrder k = some w) (hi : w.issuer = p) :
    activateOf p a s = if w.isClosing then .error .closing else .ok (k, w) := by
  unfold activateOf
  rw [workOrder?_eq_some.2 hk]
  dsimp only
  rw [hw]
  exact if_neg (not_or.2 ⟨fun h => h0 (Fin.ext h), not_not.2 hi⟩)

end

theorem exec_activate (h : s.takes p 17 a.encode) :
    exec (.activate p (.fields a)) s = .next ((carryOut p 17 (activate p a) s).settle (some p)) :=
  congrArg (thenSettle (some p)) (runCommand_fields h)

theorem exec_activate_refused {e : RefusalCode} (hwait : s.waiting = []) (h : s.takes p 17 a.encode)
    (he : activateOf p a s = .error e) :
    exec (.activate p (.fields a)) s = .next (s.answered p 17 (.refused e [])) := by
  have hbody : activate p a (s.reserveReply p) = (s.reserveReply p, .refused e []) := by
    unfold activate
    rw [show activateOf p a (s.reserveReply p) = activateOf p a s from rfl, he]
    rfl
  rw [exec_activate h, carryOut_read hbody]
  exact congrArg _ (State.settle_of_nil _ hwait)

/-- The selection of an accepted ACTIVATE, and what follows. -/
theorem activate_accepted {k : WorkOrderNo} {u : State} (h : activateOf p a u = .ok (k, w)) :
    activate p a u =
      let z := testOptions (.selection (some p) k []) u.reading w 1 w.options u
      (z.1.applyResult u.reading k w (selectionOf w z.2), z.1.activateAnswer (selectionOf w z.2)) := by
  unfold activate
  rw [h]
  rfl

/-! ### The reply before the notices -/

/-- Notices queued to one port, in order. -/
def State.notifyAll (s : State) (b : Authority) (ns : List Notice) : State := ns.foldl (fun u x => u.notify b x) s

theorem State.notify_transmitter (h : (s.port p).transmitter ≠ none) (b : Authority) (x : Notice) :
    ((s.notify b x).port p).transmitter ≠ none := by
  obtain ⟨f, hf⟩ := Option.ne_none_iff_exists'.1 h
  rw [State.notify_port]
  split_ifs with hb
  · subst hb
    have hj : ((s.port p).join x).transmitter = some f := by rw [Port.join_transmitter, hf]
    rw [Port.sample_of_busy hj, Port.choose_of_busy hj, hj]
    nofun
  · exact h

theorem State.makeReply_notifyAll {b : Authority} (ns : List Notice) (h : (s.port p).transmitter ≠ none) (c : Bool)
    (r : Reply) : (s.notifyAll b ns).makeReply p c r = (s.makeReply p c r).notifyAll b ns := by
  induction ns generalizing s with
  | nil => rfl
  | cons x ns ih =>
    exact (ih (State.notify_transmitter h b x)).trans
      (congrArg (State.notifyAll · b ns) (State.makeReply_notify h c r b x))

/-- A command that does its work without touching its port, and then queues notices: they come behind the reply. -/
theorem carryOut_notices {body : State → State × Answer} {b : Authority} (ns : List Notice) (hp : t.port p = s.port p)
    (hb : body (s.reserveReply p) = ((t.reserveReply p).notifyAll b ns, answer)) :
    carryOut p code body s = (t.answered p code answer).notifyAll b ns := by
  unfold carryOut
  simp only [hb, ← hp]
  rw [State.makeReply_notifyAll ns (t.reserveReply_transmitter p), State.makeReply_reserveReply t answer]

theorem State.notifyAll_waiting (ns : List Notice) (b : Authority) (s : State) :
    (s.notifyAll b ns).waiting = s.waiting := by
  induction ns generalizing s with
  | nil => rfl
  | cons x ns ih => exact ih _

/-- An ACTIVATE whose selection nothing meets: its reply, and behind it its notices. -/
theorem exec_activate_unmet {k : WorkOrderNo} {u : State} {ns : List Notice} (hwait : s.waiting = [])
    (hmeet : s.meetings = []) (h : s.takes p 17 a.encode) (hk : activateOf p a s = .ok (k, w))
    (hu : u.waiting = (testOptions (.selection (some p) k []) s.reading w 1 w.options s).1.waiting)
    (hport : u.port p = (testOptions (.selection (some p) k []) s.reading w 1 w.options s).1.port p)
    (hres : let z := testOptions (.selection (some p) k []) s.reading w 1 w.options s
      (z.1.reserveReply p).applyResult s.reading k w (selectionOf w z.2) = (u.reserveReply p).notifyAll p ns)
    (hans : ∀ v : State, v.activateAnswer
      (selectionOf w (testOptions (.selection (some p) k []) s.reading w 1 w.options s).2) = answer) :
    exec (.activate p (.fields a)) s = .next ((u.answered p 17 answer).notifyAll p ns) := by
  have htests := testOptions_reserveReply (x := .selection (some p) k []) (now := s.reading) (w := w) (j := 1) (p := p)
    (l := w.options) hwait hmeet
  have hc := (testOptions_unmet (x := .selection (some p) k []) (now := s.reading) (w := w) (j := 1)
    (l := w.options) hwait hmeet s.ports).2
  have hport' : (testOptions (.selection (some p) k []) s.reading w 1 w.options s).1.port p = s.port p := by
    unfold State.port
    rw [show _ = s.ports from hc .ports (by decide)]
  have hbody : activate p a (s.reserveReply p) = ((u.reserveReply p).notifyAll p ns, answer) := by
    rw [activate_accepted (u := s.reserveReply p) hk]
    dsimp only
    rw [show (s.reserveReply p).reading = s.reading from rfl, htests]
    exact Prod.ext hres (hans _)
  rw [exec_activate h, carryOut_notices ns (hport.trans hport') hbody]
  refine congrArg _ (State.settle_of_nil _ ?_)
  rw [State.notifyAll_waiting]
  exact hu.trans ((hc.same_waiting (by decide)).trans hwait)

end Sys2Proof.Machine

/-! SUPPORT. ACTIVATE (R105 to R111). -/

namespace Sys2Proof.Machine

open State (changesOnly_refl)

variable {s : State} {p : Authority} {w : WorkOrder} {a : NumberArgs} {k : WorkOrderNo}

/-- While the requests of a port's command are served, the port sends what it was sending (R169). -/
theorem testOptions_sends {later : List WorkOrderNo} (hwait : s.waiting = []) (now : Reading) (w : WorkOrder) (j : Nat)
    (l : List WorkOption) :
    ((testOptions (.selection (some p) k later) now w j l (s.reserveReply p)).1.port p).Sends
      ((s.port p).transmitter.getD []) := by
  have h : (DeviceLaw.sends p ((s.port p).transmitter.getD [])).Holds [] (s.reserveReply p) := by
    refine ⟨?_, ?_⟩
    · simp [State.carriers_of_idle (s := s.reserveReply p) hwait]
    · simp [State.reserveReply, Port.Sends]
  exact (h.testOptions (x := .selection (some p) k later) (now := now) (w := w) (l := l) (j := j) trivial
    (by simp [DeviceLaw.held, Decision.selection])).2

/-- A reply made at a port that was sending what it sent before its command was taken (R169). -/
theorem State.replied_makeReply {u : State} {code : Byte} {answer : Answer}
    (h : (u.port p).Sends ((s.port p).transmitter.getD [])) :
    s.replied (u.makeReply p (s.port p).transmitter.isNone ⟨code, answer⟩) p code answer := by
  obtain ⟨hbuffer, hsends⟩ := h
  unfold State.replied State.makeReply
  rw [State.setPort_port_self]
  cases ht : (s.port p).transmitter with
  | none => simp [hbuffer]
  | some f => simpa [hbuffer, ht] using hsends

/-- An ACTIVATE whose selection an ESTATE CLEAR discards: the reply, and the device as the clear leaves it. -/
theorem exec_activate_discarded (hwait : s.waiting = []) (h : s.takes p 17 a.encode)
    (hk : activateOf p a s = .ok (k, w))
    (hd : .discarded ∈ (testOptions (.selection (some p) k []) s.reading w 1 w.options (s.reserveReply p)).2) :
    ∃ t answer, exec (.activate p (.fields a)) s = .next t ∧ s.replied t p 17 answer ∧ t.AsReset := by
  have hreset := testOptions_reset hd
  have hsends := testOptions_sends (k := k) (p := p) (later := []) hwait s.reading w 1 w.options
  have hbody := activate_accepted (u := s.reserveReply p) hk
  dsimp only at hbody
  rw [show (s.reserveReply p).reading = s.reading from rfl, selectionOf_discarded hd] at hbody
  generalize (testOptions (.selection (some p) k []) s.reading w 1 w.options (s.reserveReply p)).1 = u at *
  refine ⟨u.makeReply p (s.port p).transmitter.isNone ⟨17, u.activateAnswer .discarded⟩, _, ?_,
    State.replied_makeReply hsends, hreset.of_ports ((changesOnly_refl _ u).makeReply (by decide))⟩
  rw [exec_activate h]
  unfold carryOut
  simp only [hbody]
  exact congrArg _ (State.settle_of_nil _ hreset.waiting)

/-- Settles O30: the checks of ACTIVATE come before its selection; the selection reads the same while the place of the
reply is held, so the reply and the notices behind it are those of its result. -/
theorem activateSelectsBestOption : Obligations.ActivateSelectsBestOption := by
  unfold Obligations.ActivateSelectsBestOption
  refine ⟨?_, ?_, ?_⟩
  · intro s p a hwait htakes
    dsimp only
    refine ⟨fun hbad => exec_activate_refused hwait htakes (activateOf_badArgument hbad), fun n hn => ⟨fun hno =>
      exec_activate_refused hwait htakes (activateOf_notPermitted hn hno), fun w h0 hw hi => ?_⟩⟩
    have hok := activateOf_issuer hn h0 hw hi
    refine ⟨fun hc => exec_activate_refused hwait htakes (hok.trans (if_pos hc)), fun hc hmeet => ?_, fun hc hd => ?_⟩
    · rw [if_neg (by simp [hc])] at hok
      subst hi
      have hunmet := fun {u ns answer} => exec_activate_unmet (u := u) (ns := ns) (answer := answer) hwait hmeet htakes hok
      generalize testOptions (.selection (some w.issuer) n []) s.reading w 1 w.options s = tested at *
      dsimp only at hunmet
      have hfailed : ∀ f answer, f.refusal = answer → selectionOf w tested.2 = .failed f →
          (w.state ≠ .active →
            exec (.activate w.issuer (.fields a)) s = .next (tested.1.answered w.issuer 17 answer)) ∧
          (w.state = .active → exec (.activate w.issuer (.fields a)) s =
            .next (((tested.1.setWorkOrder n (some w.asLapsed)).answered w.issuer 17 answer).notify w.issuer
              (.workOrderLapsed n f))) := by
        intro f answer hans hsel
        rw [hsel] at hunmet
        refine ⟨fun hst => hunmet (ns := []) rfl rfl (State.applyResult_failed hst) fun _ => hans, fun hst =>
          hunmet (ns := [.workOrderLapsed n f]) rfl rfl (State.applyResult_lapse hst) fun _ => hans⟩
      refine ⟨fun c time hclock hbest => ?_, fun codes hcodes => ?_⟩
      · have hnow : s.reading.clock = some time := hclock
        have hsel := selectionOf_best hbest
        refine ⟨fun hmin => ?_, fun hshort hno => ?_, fun hshort hyes => ?_⟩
        · rw [if_pos hmin] at hsel
          rw [hsel] at hunmet
          exact hunmet (ns := [.optionSelected n c.index c.cap c.remaining c.level false]) rfl rfl
            (State.applyResult_chosen hnow) fun _ => rfl
        · rw [if_neg (by omega), hno, if_neg (by simp)] at hsel
          rw [hsel] at hunmet
          exact hunmet (ns := [.shortfall n c.index c.cap w.requiredMinimum,
            .optionSelected n c.index c.cap c.remaining c.level true]) rfl rfl
            (State.applyResult_chosen hnow) fun _ => rfl
        · rw [if_neg (by omega), if_pos hyes] at hsel
          exact hfailed _ _ rfl hsel
      · refine hfailed _ _ ?_ (hcodes ▸ selectionOf_errors codes)
        simp [SelectionFailure.refusal, counted, List.map_eq_flatMap]
    · rw [if_neg (by simp [hc])] at hok
      obtain ⟨t, answer, ht, hrep, hreset⟩ := exec_activate_discarded hwait htakes hok hd
      exact ⟨t, answer, ht, hrep, fun f hf => hreset f (by revert f; decide)⟩
  · intro x now w index o s
    dsimp only
    refine ⟨fun h => testOption_unasked (optionAsk_clockUnset h), fun time hclock => ?_⟩
    rw [← WorkOrder.dayPasses_iff, ← allContain_option]
    refine ⟨fun hd => testOption_unasked (optionAsk_dayRange hclock (by simpa using hd)), fun hd ho =>
      testOption_unasked (optionAsk_outside hclock hd (by simpa using ho)), fun home hd ho hhome => ?_⟩
    have htest := testOption_asks (x := x) (j := index) (s := s) (optionAsk_ok hclock hd ho hhome)
    have hallow := checkRights_sameAllowances x o.space home w none time.minute s
    rw [htest]
    generalize checkRights x o.space home w none time.minute s = rights at *
    refine ⟨fun c hc => by rw [hc]; rfl, fun hdis => by rw [hdis]; rfl, fun g ov hok => ?_⟩
    obtain ⟨hle, hall, hleast⟩ := effectiveRemaining_spec (g.windows ++ o.window.toList) time.minute
    rw [← OverlaySummary.forces_iff_windows]
    refine ⟨rights.1.candidateOf index o home time g ov, by rw [hok]; rfl, rfl, ?_, requirementLevel_forced,
      requirementLevel_plain, fun hno => ?_, hle, hall, hleast⟩
    · rw [State.candidateOf_cap (hallow (by rw [hok]; nofun))]
      unfold State.allowanceAt allowance
      cases s.posture <;> rfl
    · show effectiveRemaining (g.windows ++ o.window.toList) time.minute = 1440
      rw [hno]
      rfl
  · intro x now w index o rest s
    exact ⟨rfl, testOptions_discarded, testOptions_cons⟩

end Sys2Proof.Machine

/-! SUPPORT. What the rows that meet requests may change while decisions wait, with the decisions that they begin (R38):
each row the parts of its own row of the table. -/

namespace Sys2Proof.Machine

open State (changesOnly_refl)

variable {s t u : State} {fs gs : List Field} {p : Authority} {i : Instr}

/-! ### How the line grows -/

/-- Nothing but these parts and the line changes, and a decision that comes into the line changes nothing but these. -/
def State.Grows (fs : List Field) (s t : State) : Prop :=
  s.changesOnly (.waiting :: fs) t ∧ ∀ w ∈ t.waiting, w ∈ s.waiting ∨ ∀ f ∈ w.errand.fields, f ∈ fs

/-- A change that leaves the line. -/
theorem State.changesOnly.grows (h : s.changesOnly gs t) (hw : Field.waiting ∉ gs) (hgs : ∀ f ∈ gs, f ∈ fs) :
    s.Grows fs t :=
  ⟨h.mono fun f hf => List.mem_cons_of_mem _ (hgs f hf), fun _ hm => .inl (h.same_waiting hw ▸ hm)⟩

theorem State.Grows.trans (h : s.Grows fs t) (h' : t.Grows fs u) : s.Grows fs u :=
  ⟨h.1.trans h'.1, fun w hw => (h'.2 w hw).elim (h.2 w) .inr⟩

theorem State.Grows.mono (h : s.Grows fs t) (hgs : ∀ f ∈ fs, f ∈ gs) : s.Grows gs t :=
  ⟨h.1.mono fun f hf => (List.mem_cons.1 hf).elim (fun h => h ▸ List.mem_cons_self)
    fun hf => List.mem_cons_of_mem _ (hgs f hf), fun w hw => (h.2 w hw).imp_right fun hall f hf => hgs f (hall f hf)⟩

theorem State.wait_grows {e : Errand} (asks : WaitingFor) (he : ∀ f ∈ e.fields, f ∈ fs) : s.Grows fs (s.wait e asks) := by
  refine ⟨(changesOnly_refl _ s).waiting_update List.mem_cons_self, fun w hw => ?_⟩
  rcases List.mem_append.1 hw with hw | hw
  · exact .inl hw
  · rw [List.mem_singleton] at hw
    exact .inr (hw ▸ he)

/-- The parts that selections change. -/
def selectionFields : List Field := [.workOrders, .ports]

theorem State.beginSelection_grows (s : State) (run : SelectionRun) (now : Reading) (n : WorkOrderNo) (w : WorkOrder) :
    s.Grows selectionFields (s.beginSelection run now n w).1 := by
  unfold State.beginSelection
  rcases s.selectFrom_cases run now n w 1 (w.options.take 7) [] with ⟨v, hv, hc⟩ | ⟨e, he, -, -⟩
  · rw [hv]
    exact hc.grows (by decide) fun _ hf => hf
  · rw [he]
    exact State.wait_grows _ fun _ hf => hf

/-- A change of the tables of selections, with at most one selection that comes into the line. -/
theorem State.grows_of_selection {m : Nat} (h : s.changesOnly [.waiting, .workOrders, .ports] t ∧
    (t.waiting = s.waiting ∨ ∃ e : SelectionEntry, t.waiting = s.waiting ++ [⟨.selection e, .grant⟩] ∧
      (Errand.selection e).work ≤ m)) : s.Grows selectionFields t := by
  obtain ⟨hc, hw⟩ := h
  refine ⟨hc, fun w hm => ?_⟩
  rcases hw with hw | ⟨e, hw, -⟩ <;> rw [hw] at hm
  · exact .inl hm
  · rcases List.mem_append.1 hm with hm | hm
    · exact .inl hm
    · rw [List.mem_singleton] at hm
      exact .inr fun f hf => by rwa [hm] at hf

/-! ### The commands -/

/-- ESTATE CLEAR, refused or not, leaves no decision in the line that was not there. -/
theorem estateClear_waiting (a : NoArgs) (s : State) :
    ∀ w ∈ (estateClear p a s).1.waiting, w ∈ s.waiting := by
  unfold estateClear
  split
  · exact fun _ hw => hw
  · split
    · exact fun _ hw => hw
    · intro w hw
      have hnone : w ∈ ([] : List Waiting) := hw
      exact absurd hnone List.not_mem_nil

/-- A command that makes no request leaves the line, or clears it. -/
theorem plainCommand_waiting {body : State → State × Answer} (hb : plainCommand i = some body) (s : State) :
    ∀ w ∈ (body s).1.waiting, w ∈ s.waiting := by
  have hc := plainCommand_changes hb s
  by_cases hclear : clearFields i = []
  · have hmem : Field.waiting ∉ clearFields i ++ mayChange i := by
      rw [hclear]
      cases i <;> simp [mayChange, laneFields, commandFields]
    exact fun w hw => hc.same_waiting hmem ▸ hw
  · cases i with
    | estateClear p a =>
      cases hb
      cases a with
      | fields a => exact estateClear_waiting a s
      | malformed bytes => exact fun _ hw => hw
    | _ => exact absurd rfl hclear

theorem plainCommand_grows {body : State → State × Answer} (hb : plainCommand i = some body) (s : State) :
    s.Grows (mayChange i) (body s).1 :=
  ⟨(plainCommand_changes hb s).mono fun f hf => (List.mem_append.1 hf).elim
    (fun h => by cases i <;> simp_all [clearFields]) (List.mem_cons_of_mem _),
    fun w hw => .inl (plainCommand_waiting hb s w hw)⟩

theorem State.reserveReply_grows (hf : Field.ports ∈ fs) : s.Grows fs (s.reserveReply p) :=
  State.changesOnly.grows (gs := [.ports]) ((changesOnly_refl _ s).reserveReply (by decide)) (by decide) (by simpa using hf)

theorem State.makeReply_grows {b : Bool} {r : Reply} (hf : Field.ports ∈ fs) : s.Grows fs (s.makeReply p b r) :=
  State.changesOnly.grows (gs := [.ports]) ((changesOnly_refl _ s).makeReply (by decide)) (by decide) (by simpa using hf)

theorem carryOut_grows {code : Byte} {body : State → State × Answer} (hf : Field.ports ∈ fs)
    (hb : ∀ v : State, v.Grows fs (body v).1) : s.Grows fs (carryOut p code body s) :=
  ((State.reserveReply_grows hf).trans (hb _)).trans (State.makeReply_grows hf)

theorem takeCommand_grows {code : Byte} {payload : List Byte} {body : State → State × Answer} (hf : Field.ports ∈ fs)
    (hb : ∀ v : State, v.Grows fs (body v).1) : s.Grows fs (takeCommand p code payload body s) := by
  unfold takeCommand
  dsimp only
  split
  · split
    · exact State.changesOnly.grows (gs := [.ports]) ((changesOnly_refl _ s).setPort (by decide)) (by decide)
        (by simpa using hf)
    · exact carryOut_grows hf hb
  · exact (changesOnly_refl [] s).grows (by decide) nofun

theorem State.beginActivate_grows (s : State) (a : NumberArgs) : s.Grows selectionFields (s.beginActivate p a) := by
  unfold State.beginActivate
  split
  · exact carryOut_grows (by decide) fun v => (changesOnly_refl [] v).grows (by decide) nofun
  · exact (State.reserveReply_grows (by decide)).trans (State.beginSelection_grows ..)

theorem State.beginSetClock_grows (s : State) (a : SetClockArgs) :
    s.Grows (.clock :: dayFields) (s.beginSetClock p a) := by
  unfold State.beginSetClock
  split
  · exact carryOut_grows (by decide) fun v => (changesOnly_refl [] v).grows (by decide) nofun
  · rename_i c _
    dsimp only
    exact ((State.reserveReply_grows (by decide)).trans
      ((State.setClockTo_changes _ c).grows (by decide) fun _ hf => hf)).trans
      ((State.grows_of_selection (State.goOn_cases ..)).mono (by decide))

theorem mayChange_subset_commandFields {body : State → State × Answer} (hb : plainCommand i = some body) :
    ∀ f ∈ mayChange i, f ∈ commandFields := by
  cases i <;> first
    | (simp only [mayChange]; decide)
    | exact nomatch hb

theorem State.beginCommand_grows (s : State) (p : Authority) (code : Byte) (i : Instr) :
    s.Grows commandFields (s.beginCommand p code i) := by
  unfold State.beginCommand
  split
  · exact (s.beginSetClock_grows _).mono (by decide)
  · exact (s.beginActivate_grows _).mono (by decide)
  · refine carryOut_grows (by decide) fun v => ?_
    cases hb : plainCommand i with
    | none => exact (changesOnly_refl [] v).grows (by decide) nofun
    | some body => exact (plainCommand_grows hb v).mono (mayChange_subset_commandFields hb)

/-! ### The rows -/

theorem State.beginEnter_grows (s : State) (d : DoorId) (c : Credential) : s.Grows laneFields (s.beginEnter d c) := by
  have h := s.enterStage_changes d c
  unfold State.beginEnter
  split <;> rename_i hq
  · rw [hq] at h
    exact State.changesOnly.grows h (by decide) fun _ hf => hf
  · exact State.wait_grows _ (by simp [Errand.fields]; decide)
  · exact State.wait_grows _ (by simp [Errand.fields]; decide)

theorem State.beginTick_grows (s : State) : s.Grows (.count :: .clock :: dayFields) s.beginTick := by
  have h := s.advanceClock_changes
  unfold State.beginTick
  split <;> rename_i hq <;> rw [hq] at h
  · exact (h.grows (by decide) fun _ hf => hf).trans
      ((State.grows_of_selection (State.takeTurns_cases false (fun _ => rfl) ..)).mono (by decide))
  · exact h.grows (by decide) fun _ hf => hf

theorem State.beginDeadline_grows (s : State) (n : WorkOrderNo) : s.Grows selectionFields (s.beginDeadline n) := by
  unfold State.beginDeadline
  split
  · exact (changesOnly_refl [] s).grows (by decide) nofun
  · split
    · exact State.beginSelection_grows ..
    · exact (changesOnly_refl [] s).grows (by decide) nofun

theorem State.beginFrameFinished_grows (s : State) (p : Authority) (ready : Bool) :
    s.Grows commandFields (s.beginFrameFinished p ready) := by
  unfold State.beginFrameFinished
  cases hf : s.finishFrame p ready with
  | none => exact (changesOnly_refl [] s).grows (by decide) nofun
  | some t =>
    obtain ⟨y, rfl⟩ := State.finishFrame_eq hf
    have ht : s.Grows commandFields (s.setPort p y) :=
      State.changesOnly.grows (gs := [.ports]) ((changesOnly_refl _ s).setPort (by decide)) (by decide) (by decide)
    dsimp only
    split
    · exact ht
    · exact ht.trans (State.beginCommand_grows ..)

/-- A presentation that answers a poll. -/
theorem State.answerPresent_grows {d : DoorId} {c : Credential} {report : State → State}
    (h : ∀ v : State, v.Grows laneFields (report v)) : s.Grows laneFields (s.answerPresent d c report) := by
  unfold State.answerPresent
  split
  · split
    · exact (State.missPoll_changes s d.lane).grows (by decide) fun _ hf => hf
    · exact (changesOnly_refl [] s).grows (by decide) nofun
  · unfold State.answerPoll
    split
    · split
      · have h1 : s.changesOnly laneFields ((s.endTurn d.lane).announce d) :=
          (s.announce_polled_changes d).mono (by decide)
        exact (h1.grows (by decide) fun _ hf => hf).trans (h _)
      · exact (State.missPoll_changes s d.lane).grows (by decide) fun _ hf => hf
    · exact (changesOnly_refl [] s).grows (by decide) nofun

/-- A row taken while decisions wait changes the parts of its row alone, beside the line, and so does the decision that it
begins. -/
theorem rowEffect_grows (ht : rowEffect i s = some t) : s.Grows (mayChange i) t := by
  cases hr : makesRequests i with
  | false =>
    have hexec := exec_of_rowEffect hr ht
    have hi : i ≠ .powerOn := by rintro rfl; exact nomatch ht
    cases hb : plainCommand i with
    | none =>
      exact (exec_event_changes hb hr hi hexec).grows (by cases i <;> simp [mayChange, laneFields, commandFields])
        fun _ hf => hf
    | some body =>
      rcases rowEffect_takes hb hr ht with rfl | ⟨p, code, payload, -, rfl⟩
      · exact (changesOnly_refl [] _).grows (by decide) nofun
      · refine takeCommand_grows ?_ fun v => plainCommand_grows hb v
        cases i <;> first
          | (simp [mayChange, laneFields]; done)
          | exact nomatch hb
  | true =>
    cases i with
    | setClock p a =>
      obtain rfl := Option.some.inj ht
      cases a with
      | fields a => exact (s.beginSetClock_grows a).mono (by simp only [mayChange]; decide)
      | malformed bytes =>
        exact carryOut_grows (by simp [mayChange]) fun v => (changesOnly_refl [] v).grows (by decide) nofun
    | activate p a =>
      obtain rfl := Option.some.inj ht
      cases a with
      | fields a => exact (s.beginActivate_grows a).mono (by simp only [mayChange]; decide)
      | malformed bytes =>
        exact carryOut_grows (by simp [mayChange]) fun v => (changesOnly_refl [] v).grows (by decide) nofun
    | secondTick =>
      obtain rfl := Option.some.inj ht
      exact s.beginTick_grows.mono (by simp only [mayChange]; decide)
    | selectionDeadline n =>
      obtain rfl := Option.some.inj ht
      exact (s.beginDeadline_grows n).mono (by simp only [mayChange]; decide)
    | frameFinished p ready =>
      obtain rfl := Option.some.inj ht
      exact s.beginFrameFinished_grows p ready
    | presentEnter d c =>
      obtain rfl := Option.some.inj ht
      exact (State.answerPresent_grows fun v => v.beginEnter_grows d c).mono fun f hf => List.mem_cons_of_mem _ hf
    | commandFrameReceived p bytes => exact nomatch ht
    | _ => exact Bool.noConfusion hr

/-! ### What is to meet requests -/

theorem rowWithin_of_mayChange (hw : Field.waiting ∈ fs) (hi : ∀ f ∈ mayChange i, f ∈ fs) : rowWithin fs i := by
  intro u v hu hv
  obtain ⟨hc, hline⟩ := (rowEffect_grows hv).mono hi
  refine ⟨hc.mono fun f hf => (List.mem_cons.1 hf).elim (fun h => h ▸ hw) id, ?_, fun w hm => ?_⟩
  · exact TableLaw.Holds.rowEffect (L := .met u.meetings) rfl hv
  · exact (hline w hm).elim (hu w) id

/-- What is to meet requests changes the parts of its rows alone. -/
theorem State.meetsWithin_of_mayMeet (hw : Field.waiting ∈ fs) (hm : ∀ f ∈ s.mayMeet, f ∈ fs) : s.meetsWithin fs :=
  fun m hms i hi => rowWithin_of_mayChange hw fun f hf => hm f
    (List.mem_cons_of_mem _ (List.mem_flatMap.2 ⟨m, hms, List.mem_flatMap.2 ⟨i, hi, hf⟩⟩))

/-- With nothing waiting, a chain begins: what is to meet requests changes the parts of its rows alone. -/
theorem State.within_of_mayMeet (hline : s.waiting = []) (hw : Field.waiting ∈ fs) (hm : ∀ f ∈ s.mayMeet, f ∈ fs) :
    Within fs s s :=
  ⟨changesOnly_refl fs s, fun _ h => absurd (hline ▸ h) List.not_mem_nil, State.meetsWithin_of_mayMeet hw hm⟩

end Sys2Proof.Machine

/-! SUPPORT. The turns of the Lapsed work orders at the entry of a minute (R75, R112), and SECOND_TICK. -/

namespace Sys2Proof.Machine

open State (changesOnly_refl)

variable {s t u v : State} {fs : List Field} {p : Option Authority} {now : Reading} {l later : List WorkOrderNo}
  {n m : WorkOrderNo} {w : WorkOrder} {r : SelectionResult} {c : ClockTime}

/-! ### What the turns change, with what meets their requests -/

theorem State.applyResult_changes (s : State) (now : Reading) (n : WorkOrderNo) (w : WorkOrder) (r : SelectionResult) :
    s.changesOnly selectionFields (s.applyResult now n w r) := (changesOnly_refl _ s).applyResult fun _ hf => hf

theorem Within.runTurns (h : Within fs s t) (hf : ∀ f ∈ requestFields, f ∈ fs) (ho : Field.workOrders ∈ fs) :
    Within fs s (t.runTurns p now l) := by
  have hp : Field.ports ∈ fs := hf _ (by decide)
  induction l generalizing t with
  | nil => exact h
  | cons n rest ih =>
    refine ih ?_
    split
    · exact h
    · rename_i s1 w ht
      have h1 : Within fs s s1 := h.of_changes (State.turnOf_changes ht) (by simpa using ho) (by decide) (by decide)
      have h2 := h1.runSelection (x := Decision.selection p n rest) (now := now) (w := w) hf
      have hc : State.changesOnly selectionFields _ (s1.select p rest now n w) :=
        State.applyResult_changes (Machine.runSelection (.selection p n rest) now w s1).1 now n w _
      exact h2.of_changes hc (by simp [selectionFields, ho, hp]) (by decide) (by decide)

/-! ### Turns that nothing meets -/

theorem State.select_unmet (hw : s.waiting = []) (hm : s.meetings = []) :
    s.changesOnly [.cache, .workOrders, .ports] (s.select p later now n w) := by
  have hc := (testOptions_unmet (x := .selection p n later) (now := now) (w := w) (j := 1) (l := w.options) hw hm
    s.ports).2
  have hr : State.changesOnly selectionFields _ (s.select p later now n w) :=
    State.applyResult_changes (runSelection (.selection p n later) now w s).1 now n w _
  exact State.changesOnly.trans (t := (testOptions (.selection p n later) now w 1 w.options s).1)
    (hc.mono (by decide)) (hr.mono (by decide))

theorem State.runTurns_unmet (hw : s.waiting = []) (hm : s.meetings = []) :
    s.changesOnly [.cache, .workOrders, .ports] (s.runTurns p now l) := by
  induction l generalizing s with
  | nil => exact changesOnly_refl _ s
  | cons n rest ih =>
    unfold State.runTurns
    cases ht : s.turnOf p.isSome n with
    | none => exact ih hw hm
    | some z =>
      obtain ⟨s1, w⟩ := z
      have h1 : s.changesOnly [.cache, .workOrders, .ports] s1 := (State.turnOf_changes ht).mono (by decide)
      have h2 : s.changesOnly [.cache, .workOrders, .ports] (s1.select p rest now n w) :=
        h1.trans (State.select_unmet ((h1.same_waiting (by decide)).trans hw) ((h1.same_meetings (by decide)).trans hm))
      exact h2.trans (ih ((h2.same_waiting (by decide)).trans hw) ((h2.same_meetings (by decide)).trans hm))

/-! ### Turns by advance, where what meets their requests spares the work orders -/

/-- A work order is as it was, or was Lapsed and is Active (R112). -/
def State.retested (s t : State) (m : WorkOrderNo) : Prop :=
  t.workOrder m = s.workOrder m ∨
    ∃ w w', s.workOrder m = some w ∧ w.state = .lapsed ∧ t.workOrder m = some w' ∧ w'.state = .active

theorem State.retested.trans (h : s.retested t m) (h' : t.retested u m) : s.retested u m := by
  rcases h with h | ⟨w, w1, hw, hl, hw1, ha⟩
  · unfold State.retested at *
    rwa [h] at h'
  · rcases h' with h' | ⟨w2, w3, hw2, hl2, -, -⟩
    · exact .inr ⟨w, w1, hw, hl, h'.trans hw1, ha⟩
    · rw [hw1, Option.some.injEq] at hw2
      rw [hw2, hl2] at ha
      exact nomatch ha

/-- Lapsed work orders are tested again, and no other part changes but these. -/
structure Retests (fs : List Field) (s t : State) : Prop where
  changes : s.changesOnly (.workOrders :: fs) t
  line : t.lineWithin fs
  meets : t.meetsWithin fs
  orders : ∀ m, s.retested t m

theorem Retests.of_within (h : Retests fs s t) (ho : Field.workOrders ∉ fs) (hw : Within fs t u) : Retests fs s u where
  changes := h.changes.trans (hw.changes.mono fun _ => List.mem_cons_of_mem _)
  line := hw.line
  meets := hw.meets
  orders m := (h.orders m).trans (.inl (by rw [hw.changes.workOrder_eq ho]))

theorem Retests.within (h : Retests fs s t) : Within fs t t := ⟨changesOnly_refl fs t, h.line, h.meets⟩

/-- A Lapsed work order that is selected becomes Active, or stays as it is. -/
theorem State.applyResult_retested (hw : s.workOrder n = some w) (hl : w.state = .lapsed) (m : WorkOrderNo) :
    s.retested (s.applyResult now n w r) m := by
  cases r with
  | failed f =>
    rw [State.applyResult_failed (by simp [hl])]
    exact .inl rfl
  | discarded => exact .inl rfl
  | chosen k short =>
    have hset : ∀ w' : WorkOrder, (s.applyResult now n w (.chosen k short)).workOrder m =
        (s.setWorkOrder n (some { w with
          state := .active, selected := some k.index, capInForce := k.cap, shortfall := short,
          deadline := now.clock.map fun t => minuteDeadline now.count t k.remaining })).workOrder m := fun _ => by
      unfold State.applyResult State.applySelection
      dsimp only
      split <;> rfl
    unfold State.retested
    rw [hset w, State.setWorkOrder_workOrder]
    split_ifs with hmn
    · exact .inr ⟨w, _, hmn ▸ hw, hl, rfl, rfl⟩
    · exact .inl rfl

theorem State.turnOf_advance (h : s.turnOf false n = some (t, w)) :
    t = s ∧ s.workOrder n = some w ∧ w.state = .lapsed := by
  unfold State.turnOf at h
  split at h
  · rename_i w' hw'
    simp only [Bool.false_eq_true, and_false, if_false] at h
    split_ifs at h with hl
    simp only [Option.some.injEq, Prod.mk.injEq] at h
    obtain ⟨rfl, rfl⟩ := h
    exact ⟨rfl, hw', hl⟩
  · exact nomatch h

theorem Retests.runTurns (h : Retests fs s t) (hf : ∀ f ∈ requestFields, f ∈ fs) (ho : Field.workOrders ∉ fs) :
    Retests fs s (t.runTurns none now l) := by
  induction l generalizing t with
  | nil => exact h
  | cons n rest ih =>
    refine ih ?_
    split
    · exact h
    · rename_i s1 w ht
      obtain ⟨rfl, hw, hl⟩ := State.turnOf_advance ht
      have h1 := h.of_within ho (h.within.runSelection (x := Decision.selection none n rest) (now := now) (w := w) hf)
      have hw1 : (runSelection (.selection none n rest) now w s1).1.workOrder n = some w := by
        rw [(h.within.runSelection (x := Decision.selection none n rest) (now := now) (w := w) hf).changes.workOrder_eq ho, hw]
      unfold State.select
      generalize runSelection (.selection none n rest) now w s1 = z at *
      have hc : z.1.changesOnly selectionFields (z.1.applyResult now n w z.2) := z.1.applyResult_changes now n w z.2
      have hp : Field.ports ∈ fs := hf _ (by decide)
      refine ⟨h1.changes.trans (hc.mono fun f hf => ?_), ?_, ?_, fun m =>
        (h1.orders m).trans (State.applyResult_retested hw1 hl m)⟩
      · simp only [selectionFields, List.mem_cons, List.not_mem_nil, or_false] at hf
        rcases hf with rfl | rfl
        · exact List.mem_cons_self
        · exact List.mem_cons_of_mem _ hp
      · simpa [State.lineWithin, hc.same_waiting (by decide)] using h1.line
      · simpa [State.meetsWithin, hc.same_meetings (by decide)] using h1.meets

/-- The entry of a minute by advance, to the end of the step. -/
theorem Retests.enterMinute (h : Retests fs s t) (hf : ∀ f ∈ requestFields, f ∈ fs) (ho : Field.workOrders ∉ fs) :
    Retests fs s ((t.enterMinute none).settle none) :=
  have h1 := h.runTurns (now := t.reading) (l := t.turnsDue false) hf ho
  h1.of_within ho (h1.within.settle hf)

/-! ### The entry of a minute, to the end of the step -/

/-- The parts that the entry of a minute may change, with what meets its requests. -/
def State.minuteFields (s : State) : List Field := [.waiting, .cache, .ports] ++ s.mayMeet

theorem State.requestFields_minuteFields (s : State) : ∀ f ∈ requestFields, f ∈ s.minuteFields := by
  simp [requestFields, State.minuteFields, State.mayMeet]

theorem State.mem_minuteFields {f : Field} : f ∈ s.minuteFields ↔ f ∈ ([.waiting, .cache, .ports] : List Field) ∨
    f ∈ s.mayMeet := List.mem_append

/-- What an entry of a minute, from which nothing waits, may change. -/
theorem State.enterMinute_changes (hw : s.waiting = []) :
    s.changesOnly (.workOrders :: ([.cache, .ports] ++ s.mayMeet)) ((s.enterMinute none).settle none) := by
  have hf : ∀ f ∈ requestFields, f ∈ Field.workOrders :: s.minuteFields := fun f hf =>
    List.mem_cons_of_mem _ (s.requestFields_minuteFields f hf)
  have h : Within (.workOrders :: s.minuteFields) s s := State.within_of_mayMeet hw (by simp [State.minuteFields])
    fun f hf => List.mem_cons_of_mem _ (State.mem_minuteFields.2 (.inr hf))
  have h1 := (h.runTurns (p := none) (now := s.reading) (l := s.turnsDue false) hf List.mem_cons_self).settle
    (p := none) hf
  refine State.changesOnly.of_waiting (h1.changes.mono fun f hf => ?_) ((State.settle_waiting ..).trans hw.symm)
  simp only [State.minuteFields, List.mem_cons, List.mem_append, List.not_mem_nil] at hf ⊢
  tauto

theorem State.enterMinute_unmet (hw : s.waiting = []) (hm : s.meetings = []) :
    s.changesOnly [.cache, .workOrders, .ports] ((s.enterMinute none).settle none) := by
  have hc : s.changesOnly [.cache, .workOrders, .ports] (s.enterMinute none) := State.runTurns_unmet hw hm
  rwa [State.settle_of_nil _ ((hc.same_waiting (by decide)).trans hw)]

/-- Where what meets its requests spares the work orders, the entry of a minute tests Lapsed ones again, and changes no
other (R112). -/
theorem State.enterMinute_retests (hw : s.waiting = []) (hs : s.meetingsSpare [.workOrders]) :
    Retests s.minuteFields s ((s.enterMinute none).settle none) := by
  have h : Within s.minuteFields s s := State.within_of_mayMeet hw (by simp [State.minuteFields])
    fun f hf => State.mem_minuteFields.2 (.inr hf)
  refine Retests.enterMinute ⟨changesOnly_refl _ s, h.line, h.meets, fun _ => .inl rfl⟩ s.requestFields_minuteFields ?_
  rw [State.mem_minuteFields, not_or]
  exact ⟨by decide, hs _ List.mem_cons_self⟩

/-- With no work order Lapsed the entry of a minute does nothing. -/
theorem State.enterMinute_idle (hw : s.waiting = []) (h : ∀ n w, s.workOrder n = some w → w.state ≠ .lapsed) :
    (s.enterMinute none).settle none = s := by
  have hdue : s.turnsDue false = [] := by
    refine List.filter_eq_nil_iff.2 fun n _ => ?_
    cases hn : s.workOrder n with
    | none => simp
    | some w => simpa using h n w hn
  have hidle : s.enterMinute none = s := by
    show s.runTurns none s.reading (s.turnsDue false) = s
    rw [hdue]
    rfl
  rw [hidle, State.settle_of_nil _ hw]

theorem generalWorkOrders_nodup : generalWorkOrders.Nodup := (List.nodup_finRange 64).filter _

/-- One Lapsed work order alone takes its turn. -/
theorem State.enterMinute_single (h0 : n ≠ 0) (hn : s.workOrder n = some w) (hl : w.state = .lapsed)
    (hall : ∀ m v, m ≠ n → s.workOrder m = some v → v.state ≠ .lapsed) :
    s.enterMinute none = s.select none [] s.reading n w := by
  have hdue : s.turnsDue false = [n] := by
    refine List.perm_singleton.1 ((List.perm_ext_iff_of_nodup (generalWorkOrders_nodup.filter _)
      (List.nodup_singleton n)).2 fun m => ?_)
    rw [List.mem_filter, mem_generalWorkOrders, List.mem_singleton]
    constructor
    · rintro ⟨-, hm⟩
      by_contra hmn
      cases hv : s.workOrder m with
      | none => simp [hv] at hm
      | some v => exact hall m v hmn hv (by simpa [hv] using hm)
    · rintro rfl
      exact ⟨h0, by simp [hn, hl]⟩
  have hturn : s.turnOf false n = some (s, w) := by
    unfold State.turnOf
    rw [hn]
    simp [hl]
  show s.runTurns none s.reading (s.turnsDue false) = _
  rw [hdue]
  unfold State.runTurns State.runTurns
  simp only [Option.isSome_none, hturn]

/-! ### The advance of the clock (R74, R75) -/

theorem State.advanceClock_unset (h : s.clock = none) :
    s.advanceClock = ({ s with count := s.count + 1 }, false) := by
  unfold State.advanceClock advance
  simp only [h]

theorem State.advanceClock_second (h : s.clock = some c) (hc : c.second ≤ 58) : s.advanceClock =
    ({ s with count := s.count + 1, clock := some { c with second := c.second + 1 } }, false) := by
  unfold State.advanceClock advance
  simp only [h]
  rw [if_pos (by omega)]

theorem State.advanceClock_minute (h : s.clock = some c) (hs : c.second = 59) (hm : c.minute ≤ 1438) :
    s.advanceClock = ({ s with count := s.count + 1, clock := some ⟨c.day, c.minute + 1, 0⟩ }, true) := by
  unfold State.advanceClock advance
  simp only [h]
  rw [if_neg (by omega), if_pos (by omega)]

theorem State.advanceClock_day (h : s.clock = some c) (hs : c.second = 59) (hm : c.minute = 1439) (hd : c.day < 65535) :
    s.advanceClock = (({ s with count := s.count + 1, clock := some ⟨c.day + 1, 0, 0⟩ } : State).dayChange (c.day + 1),
      true) := by
  unfold State.advanceClock advance
  simp only [h]
  rw [if_neg (by omega), if_neg (by omega), if_pos hd]

theorem State.advanceClock_ends (h : s.clock = some c) (hs : c.second = 59) (hm : c.minute = 1439) (hd : c.day = 65535) :
    s.advanceClock = ({ s with count := s.count + 1, clock := none }, false) := by
  unfold State.advanceClock advance
  simp only [h]
  rw [if_neg (by omega), if_neg (by omega), if_neg (by omega)]

theorem State.clockOn_changes (s : State) (k : Nat) (v : Option ClockTime) :
    s.changesOnly [.count, .clock] { s with count := k, clock := v } := by
  intro f hf
  cases f <;> first
    | rfl
    | exact absurd (by decide) hf

theorem exec_secondTick_within (h : s.advanceClock = (t, false)) (hw : t.waiting = []) :
    exec .secondTick s = .next t := by
  have hrow : exec .secondTick s = .next (s.tick.settle none) := rfl
  rw [hrow]
  unfold State.tick
  rw [h]
  exact congrArg _ (State.settle_of_nil _ hw)

theorem exec_secondTick_minute (h : s.advanceClock = (t, true)) :
    exec .secondTick s = .next ((t.enterMinute none).settle none) := by
  have hrow : exec .secondTick s = .next (s.tick.settle none) := rfl
  rw [hrow]
  unfold State.tick
  rw [h]

/-- What a new minute does for every work order (R112). -/
theorem enterMinute_clauses (hw : s.waiting = []) :
    (s.meetings = [] → s.changesOnly [.cache, .workOrders, .ports] ((s.enterMinute none).settle none)) ∧
    s.changesOnly (.workOrders :: ([.cache, .ports] ++ s.mayMeet)) ((s.enterMinute none).settle none) ∧
    (s.meetingsSpare [.workOrders] → ∀ n w, s.workOrder n = some w → w.state ≠ .lapsed →
      ((s.enterMinute none).settle none).workOrder n = some w) := by
  refine ⟨State.enterMinute_unmet hw, State.enterMinute_changes hw, fun hs n w hn hl => ?_⟩
  rcases (State.enterMinute_retests hw hs).orders n with h | ⟨w', -, hn', hl', -, -⟩
  · rw [h, hn]
  · rw [hn, Option.some.injEq] at hn'
    exact absurd (hn' ▸ hl') hl

/-- A part that neither the entry of a minute nor what meets its requests changes. -/
theorem State.enterMinute_same {f : Field} (hw : s.waiting = []) (hs : s.meetingsSpare [f])
    (hf : f ∉ ([.workOrders, .cache, .ports] : List Field)) : s.same ((s.enterMinute none).settle none) f := by
  refine State.enterMinute_changes hw f ?_
  have hf' : f ∉ s.mayMeet := hs f (List.mem_singleton_self f)
  simp only [List.mem_cons, List.mem_append, List.not_mem_nil, or_false] at hf ⊢
  tauto

/-- The one Lapsed work order is tested again at the new minute, which its second begins (R82, R112). -/
theorem enterMinute_selects (h0 : n ≠ 0) (hn : s.workOrder n = some w) (hl : w.state = .lapsed)
    (hall : ∀ m v, m ≠ n → s.workOrder m = some v → v.state ≠ .lapsed) (hc : s.clock = some c) (hz : c.second = 0) :
    let tested := testOptions (.selection none n []) s.reading w 1 w.options s
    let out := (s.enterMinute none).settle none
    let chosen := fun (k : Candidate) (short : Bool) =>
      tested.1.setWorkOrder n (some (w.withOption k short (s.count + 60 * k.remaining)))
    (∀ k, w.bestOf tested.2 k →
      (w.requiredMinimum ≤ k.cap → out = ((chosen k false).notify w.issuer
        (.optionSelected n k.index k.cap k.remaining k.level false)).settle none) ∧
      (k.cap < w.requiredMinimum → w.refuseOnShortfall = false → out = (((chosen k true).notify w.issuer
        (.shortfall n k.index k.cap w.requiredMinimum)).notify w.issuer
          (.optionSelected n k.index k.cap k.remaining k.level true)).settle none) ∧
      (k.cap < w.requiredMinimum → w.refuseOnShortfall = true → out = tested.1.settle none)) ∧
    (∀ codes : List DenyCode, tested.2 = codes.map .error → out = tested.1.settle none) ∧
    (.discarded ∈ tested.2 → out = tested.1) := by
  have hlapsed : w.state ≠ .active := by simp [hl]
  have hnow : s.reading.clock = some c := hc
  have hdeadline : ∀ k : Nat, minuteDeadline s.reading.count c k = s.count + 60 * k := fun k => by
    unfold minuteDeadline
    rw [hz]
    rfl
  dsimp only
  rw [State.enterMinute_single h0 hn hl hall]
  unfold State.select
  rw [runSelection_eq]
  dsimp only
  refine ⟨fun k hbest => ?_, fun codes hcodes => ?_, fun hdis => ?_⟩
  · rw [selectionOf_best hbest]
    refine ⟨fun hmin => ?_, fun hshort hno => ?_, fun hshort hyes => ?_⟩
    · rw [if_pos hmin, State.applyResult_chosen hnow, hdeadline]
      rfl
    · rw [if_neg (by omega), hno, if_neg (by simp), State.applyResult_chosen hnow, hdeadline]
      rfl
    · rw [if_neg (by omega), if_pos hyes, State.applyResult_failed hlapsed]
  · rw [hcodes, selectionOf_errors, State.applyResult_failed hlapsed]
  · rw [selectionOf_discarded hdis]
    exact State.settle_of_nil _ (testOptions_reset hdis).waiting

/-- Settles O20: the clock's advance by its cases, and behind a new minute the turns of the Lapsed work orders. -/
theorem tickAdvancesClock : Obligations.TickAdvancesClock := by
  unfold Obligations.TickAdvancesClock
  intro s hwait
  dsimp only
  refine ⟨fun hno => exec_secondTick_within (State.advanceClock_unset hno) hwait, fun c hclock _ _ =>
    ⟨fun hsec => exec_secondTick_within (State.advanceClock_second hclock hsec) hwait, fun hsec hmin => ?_,
    fun hsec hmin hday => exec_secondTick_within (State.advanceClock_ends hclock hsec hmin hday) hwait⟩⟩
  rw [exec_secondTick_minute (State.advanceClock_minute hclock hsec hmin)]
  have hs1 : s.changesOnly [.count, .clock] { s with count := s.count + 1, clock := some ⟨c.day, c.minute + 1, 0⟩ } :=
    s.clockOn_changes _ _
  have hclock1 : ({ s with count := s.count + 1, clock := some ⟨c.day, c.minute + 1, 0⟩ } : State).clock =
    some ⟨c.day, c.minute + 1, 0⟩ := rfl
  have hcount1 : ({ s with count := s.count + 1, clock := some ⟨c.day, c.minute + 1, 0⟩ } : State).count =
    s.count + 1 := rfl
  generalize ({ s with count := s.count + 1, clock := some ⟨c.day, c.minute + 1, 0⟩ } : State) = s1 at *
  have hw1 : s1.waiting = [] := (hs1.same_waiting (by decide)).trans hwait
  have hord1 : s1.workOrder = s.workOrder := hs1.workOrder_eq (by decide)
  have hmeetings1 : s1.meetings = s.meetings := hs1.same_meetings (by decide)
  have hmeet1 : s1.mayMeet = s.mayMeet := by
    unfold State.mayMeet
    rw [hmeetings1]
  have hspare : ∀ f, s.meetingsSpare [f] → s1.meetingsSpare [f] := fun f h => by
    unfold State.meetingsSpare at *
    rwa [hmeet1]
  obtain ⟨hunmet, hchanges, horders⟩ := enterMinute_clauses hw1
  refine ⟨⟨_, rfl, fun hs => ?_, fun hs => ?_, fun hm => ?_, ?_, fun hs n w hn hl => ?_, fun hno => ?_⟩,
    fun n w h0 hn hl hall => ?_⟩
  · exact (State.enterMinute_same hw1 (hspare _ hs) (by decide)).trans hcount1
  · exact (State.enterMinute_same hw1 (hspare _ hs) (by decide)).trans hclock1
  · exact (hs1.mono (by decide)).trans ((hunmet (hmeetings1.trans hm)).mono (by decide))
  · refine (hs1.mono (by simp)).trans (hchanges.mono fun f hf => ?_)
    rw [hmeet1] at hf
    simp only [List.mem_cons, List.mem_append, List.not_mem_nil, or_false] at hf ⊢
    tauto
  · exact horders (hspare _ hs) n w (by rwa [hord1]) hl
  · exact State.enterMinute_idle hw1 (by rwa [hord1])
  · rw [← hcount1]
    obtain ⟨hbest, herrors, hdis⟩ := enterMinute_selects h0 (by rwa [hord1]) hl (by rwa [hord1]) hclock1 rfl
    refine ⟨fun k hk => ?_, fun codes hcodes => congrArg _ (herrors codes hcodes), fun hd => congrArg _ (hdis hd)⟩
    obtain ⟨h1, h2, h3⟩ := hbest k hk
    exact ⟨fun hmin => congrArg _ (h1 hmin), fun hshort hno => congrArg _ (h2 hshort hno),
      fun hshort hyes => congrArg _ (h3 hshort hyes)⟩

end Sys2Proof.Machine

/-! SUPPORT. The closing of work orders at a day change (R115, R116, R129), and SECOND_TICK there. -/

namespace Sys2Proof.Machine

open State (changesOnly_refl)

variable {s t u : State} {n k : WorkOrderNo} {m : PermitNo} {q : Permit} {w : WorkOrder} {c : ClosingCause} {day : Nat}

/-! ### The permits of a work order that closes (R129) -/

/-- What becomes of a permit whose work order closes: it is marked revoked where it is Pending or Inside, and else freed. -/
def Permit.closed (q : Permit) : Option Permit := if q.state.counted = true then some { q with revoked := true } else none

theorem Permit.closed_closed (x : Option Permit) : (x.bind Permit.closed).bind Permit.closed = x.bind Permit.closed := by
  cases x with
  | none => rfl
  | some q =>
    by_cases hc : q.state.counted = true <;> simp [Permit.closed, hc]

theorem foldl_closePermit_permit (c : ClosingCause) (ns : List PermitNo) (s : State) (m : PermitNo) :
    (ns.foldl (State.closePermit c) s).permit m = if m ∈ ns then (s.permit m).bind Permit.closed else s.permit m := by
  induction ns generalizing s with
  | nil => simp
  | cons a ns ih =>
    have ha : (State.closePermit c s a).permit m = if m = a then (s.permit a).bind Permit.closed else s.permit m :=
      State.closePermit_permit ..
    rw [List.foldl_cons, ih, ha]
    by_cases hm : m = a
    · subst hm
      simp [Permit.closed_closed]
    · simp [hm]

theorem State.mem_permitsOf : m ∈ s.permitsOf n ↔ ∃ q, s.permit m = some q ∧ q.workOrder = n := by
  unfold State.permitsOf
  rw [mem_numbersWhere, show s.permits.get m = s.permit m from rfl]
  cases s.permit m <;> simp

theorem State.hasCounted_iff : s.hasCounted n = true ↔ ∃ m q, s.permit m = some q ∧ q.workOrder = n ∧ q.state.counted = true := by
  unfold State.hasCounted
  rw [← Bool.not_eq_false, Option.isSome_eq_false_iff, Option.isNone_iff_eq_none, lowest_eq_none]
  simp only [not_forall, Bool.not_eq_false]
  refine exists_congr fun m => ?_
  rw [show s.permits.get m = s.permit m from rfl]
  cases s.permit m <;> simp

/-- A work order as its closing leaves it (R114, R115). -/
def WorkOrder.closed (w : WorkOrder) (c : ClosingCause) : WorkOrder :=
  { w with state := .closing c, selected := none, capInForce := 0, deadline := none }

/-- What the closing of a work order in use does to the work orders and the permits. -/
structure Closes (s t : State) (n : WorkOrderNo) (w : WorkOrder) (c : ClosingCause) : Prop where
  others : ∀ v, v ≠ n → t.workOrder v = s.workOrder v
  own : t.workOrder n = if s.hasCounted n = true then some (w.closed c) else none
  permits : ∀ m, t.permit m = if m ∈ s.permitsOf n then (s.permit m).bind Permit.closed else s.permit m

theorem State.closeWorkOrder_closes (hw : s.workOrder n = some w) : Closes s (s.closeWorkOrder n c) n w c := by
  have hper := foldl_closePermit_permit c (s.permitsOf n) s
  have hc : s.changesOnly [.spaces, .permits, .doors, .slots, .ports] ((s.permitsOf n).foldl (State.closePermit c) s) :=
    (changesOnly_refl _ s).foldl fun v _ _ => (changesOnly_refl _ v).closePermit fun _ hf => hf
  have hord := hc.workOrder_eq (by decide)
  unfold State.closeWorkOrder
  dsimp only
  generalize (s.permitsOf n).foldl (State.closePermit c) s = u at *
  rw [hord, hw]
  dsimp only
  have hset : (u.setWorkOrder n (some (w.closed c))).workOrder n = some (w.closed c) := State.setWorkOrder_workOrder_self ..
  have hcounted : (u.setWorkOrder n (some (w.closed c))).hasCounted n = s.hasCounted n := by
    rw [Bool.eq_iff_iff, State.hasCounted_iff, State.hasCounted_iff]
    refine exists_congr fun m => ⟨fun ⟨q, hq, hqn, hqc⟩ => ?_, fun ⟨q, hq, hqn, hqc⟩ => ?_⟩
    · have hq' : u.permit m = some q := hq
      rw [hper] at hq'
      split_ifs at hq' with hm
      · obtain ⟨r, hr, hclosed⟩ := Option.bind_eq_some_iff.1 hq'
        obtain ⟨r', hr', hrn⟩ := State.mem_permitsOf.1 hm
        rw [hr, Option.some.injEq] at hr'
        unfold Permit.closed at hclosed
        split_ifs at hclosed with hrc
        exact ⟨r, hr, hr' ▸ hrn, hrc⟩
      · exact ⟨q, hq', hqn, hqc⟩
    · refine ⟨{ q with revoked := true }, (hper m).trans ?_, hqn, hqc⟩
      rw [if_pos (State.mem_permitsOf.2 ⟨q, hq, hqn⟩), hq]
      simp [Permit.closed, hqc]
  unfold State.freeWorkOrderIfDone
  rw [show ({ w with state := .closing c, selected := none, capInForce := 0, deadline := none } : WorkOrder) = w.closed c
    from rfl, hset]
  dsimp only [WorkOrder.closed]
  rw [show ({ w with state := .closing c, selected := none, capInForce := 0, deadline := none } : WorkOrder) = w.closed c
    from rfl, hcounted]
  split_ifs with hhas
  · refine ⟨fun v hv => ?_, ?_, hper⟩
    · rw [State.setWorkOrder_workOrder, if_neg hv, hord]
    · rw [hset, if_pos hhas]
  · have hnone : (u.setWorkOrder n (some (w.closed c))).permitsOf n = [] := by
      refine List.eq_nil_iff_forall_not_mem.2 fun m hm => hhas ?_
      obtain ⟨q, hq, hqn⟩ := State.mem_permitsOf.1 hm
      have hq' : u.permit m = some q := hq
      rw [hper] at hq'
      split_ifs at hq' with hms
      · obtain ⟨r, hr, hclosed⟩ := Option.bind_eq_some_iff.1 hq'
        unfold Permit.closed at hclosed
        split_ifs at hclosed with hrc
        obtain rfl := Option.some.inj hclosed
        exact State.hasCounted_iff.2 ⟨m, r, hr, hqn, hrc⟩
      · exact absurd (State.mem_permitsOf.2 ⟨q, hq', hqn⟩) hms
    rw [hnone]
    refine ⟨fun v hv => ?_, ?_, hper⟩
    · rw [List.foldl_nil, State.setWorkOrder_workOrder, if_neg hv, State.setWorkOrder_workOrder, if_neg hv, hord]
    · rw [List.foldl_nil, State.setWorkOrder_workOrder_self, if_neg hhas]

/-! ### A work order while others expire -/

/-- A work order and its permits are as they were, and no permit has come into use. -/
structure KeepsOrder (n : WorkOrderNo) (s t : State) : Prop where
  order : t.workOrder n = s.workOrder n
  permits : ∀ m q, q.workOrder = n → (t.permit m = some q ↔ s.permit m = some q)
  free : ∀ m, s.permit m = none → t.permit m = none

theorem KeepsOrder.refl (n : WorkOrderNo) (s : State) : KeepsOrder n s s := ⟨rfl, fun _ _ _ => Iff.rfl, fun _ h => h⟩

theorem KeepsOrder.trans (h : KeepsOrder n s t) (h' : KeepsOrder n t u) : KeepsOrder n s u :=
  ⟨h'.order.trans h.order, fun m q hq => (h'.permits m q hq).trans (h.permits m q hq), fun m hm => h'.free m (h.free m hm)⟩

theorem KeepsOrder.hasCounted (h : KeepsOrder n s t) : t.hasCounted n = s.hasCounted n := by
  rw [Bool.eq_iff_iff, State.hasCounted_iff, State.hasCounted_iff]
  exact exists_congr fun m => exists_congr fun q =>
    ⟨fun ⟨hq, hn, hc⟩ => ⟨(h.permits m q hn).1 hq, hn, hc⟩, fun ⟨hq, hn, hc⟩ => ⟨(h.permits m q hn).2 hq, hn, hc⟩⟩

/-- The closing of another work order. -/
theorem Closes.keeps (h : Closes s t k w c) (hk : k ≠ n) : KeepsOrder n s t := by
  refine ⟨h.others n hk.symm, fun m q hq => ?_, fun m hm => ?_⟩
  · rw [h.permits]
    split_ifs with hmem
    · obtain ⟨r, hr, hrk⟩ := State.mem_permitsOf.1 hmem
      rw [hr, Option.bind_some, Option.some.injEq]
      unfold Permit.closed
      split_ifs
      · constructor
        · rintro h
          obtain rfl := Option.some.inj h
          exact absurd (hrk.symm.trans hq) hk
        · rintro rfl
          exact absurd (hrk.symm.trans hq) hk
      · exact ⟨nofun, fun hrq => absurd (hrk.symm.trans (hrq ▸ hq)) hk⟩
    · rfl
  · rw [h.permits, hm]
    split_ifs <;> rfl

/-- The last day of a work order is before a day. -/
def WorkOrder.late (w : WorkOrder) (day : Nat) : Prop := ∃ first last, w.days = some (first, last) ∧ last < day

theorem expireOf_late (hw : s.workOrder n = some w) (hc : w.isClosing = false) (hl : w.late day) :
    expireOf day s n = s.closeWorkOrder n .expired := by
  obtain ⟨first, last, hd, hlt⟩ := hl
  unfold expireOf
  rw [hw]
  dsimp only
  split
  · rename_i hst
    simp [WorkOrder.isClosing, hst] at hc
  · rename_i hd' _
    rw [hd, Option.some.injEq, Prod.mk.injEq] at hd'
    rw [← hd'.2, if_pos hlt]
  · rename_i hd' _
    rw [hd] at hd'
    exact nomatch hd'

theorem expireOf_kept (hw : s.workOrder n = some w) (hl : ¬ w.late day) : expireOf day s n = s := by
  unfold expireOf
  rw [hw]
  dsimp only
  split
  · rfl
  · rename_i first last hd _
    exact if_neg fun hlt => hl ⟨first, last, hd, hlt⟩
  · rfl

theorem expireOf_cases (day : Nat) (s : State) (k : WorkOrderNo) :
    expireOf day s k = s ∨ ∃ w, s.workOrder k = some w ∧ expireOf day s k = s.closeWorkOrder k .expired := by
  unfold expireOf
  split
  · rename_i w hw
    split
    · exact .inl rfl
    · split_ifs
      · exact .inr ⟨w, hw, rfl⟩
      · exact .inl rfl
    · exact .inl rfl
  · exact .inl rfl

theorem expireOf_keeps (day : Nat) (s : State) (hk : k ≠ n) : KeepsOrder n s (expireOf day s k) := by
  rcases expireOf_cases day s k with h | ⟨w, hw, h⟩ <;> rw [h]
  · exact .refl n s
  · exact (State.closeWorkOrder_closes hw).keeps hk

theorem foldl_expireOf_keeps (day : Nat) {l : List WorkOrderNo} (hn : n ∉ l) (s : State) :
    KeepsOrder n s (l.foldl (expireOf day) s) := by
  induction l generalizing s with
  | nil => exact .refl n s
  | cons k l ih =>
    rw [List.mem_cons, not_or] at hn
    exact (expireOf_keeps day s (Ne.symm hn.1)).trans (ih hn.2 _)

/-- At a day change each general work order is treated once, and nothing else of the day change is about it. -/
theorem State.dayChange_treats (day : Nat) (s : State) (hn : n ≠ 0) :
    ∃ a, KeepsOrder n s a ∧ KeepsOrder n (expireOf day a n) (s.dayChange day) := by
  obtain ⟨l1, l2, hl⟩ := List.append_of_mem (mem_generalWorkOrders.2 hn)
  have hnodup := generalWorkOrders_nodup
  rw [hl, List.nodup_append] at hnodup
  obtain ⟨-, hnodup2, hdisjoint⟩ := hnodup
  have h1 : n ∉ l1 := fun hmem => hdisjoint n hmem n List.mem_cons_self rfl
  have h2 : n ∉ l2 := (List.nodup_cons.1 hnodup2).1
  refine ⟨l1.foldl (expireOf day) s, foldl_expireOf_keeps day h1 s, ?_⟩
  unfold State.dayChange
  rw [hl, List.foldl_append, List.foldl_cons]
  exact foldl_expireOf_keeps day h2 _

/-- A work order whose last day is before the new day is closed, with its permits (R115, R129). -/
theorem State.dayChange_late (hn : n ≠ 0) (hw : s.workOrder n = some w) (hc : w.isClosing = false) (hl : w.late day) :
    (s.dayChange day).workOrder n = (if s.hasCounted n = true then some (w.closed .expired) else none) ∧
      ∀ m q, s.permit m = some q → q.workOrder = n → (s.dayChange day).permit m = q.closed := by
  obtain ⟨a, ha, hb⟩ := s.dayChange_treats day hn
  have haw : a.workOrder n = some w := ha.order.trans hw
  rw [expireOf_late haw hc hl] at hb
  have hcl := State.closeWorkOrder_closes (c := .expired) haw
  refine ⟨by rw [hb.order, hcl.own, ha.hasCounted], fun m q hq hqn => ?_⟩
  have haq := (ha.permits m q hqn).2 hq
  have hbm := hcl.permits m
  rw [if_pos (State.mem_permitsOf.2 ⟨q, haq, hqn⟩), haq, Option.bind_some] at hbm
  unfold Permit.closed at hbm ⊢
  split_ifs at hbm ⊢
  · exact (hb.permits m { q with revoked := true } hqn).2 hbm
  · exact hb.free m hbm

theorem State.dayChange_kept (hn : n ≠ 0) (hw : s.workOrder n = some w) (hl : ¬ w.late day) :
    KeepsOrder n s (s.dayChange day) := by
  obtain ⟨a, ha, hb⟩ := s.dayChange_treats day hn
  rw [expireOf_kept (ha.order.trans hw) hl] at hb
  exact ha.trans hb

/-- Settles O21: the day change treats each work order once, and the entry of the minute behind it tests Lapsed ones again
and leaves the permits. -/
theorem dayChangeExpiresWorkOrders : Obligations.DayChangeExpiresWorkOrders := by
  unfold Obligations.DayChangeExpiresWorkOrders
  intro s c hwait hclock hsec hmin hday
  have hs0 := s.clockOn_changes (s.count + 1) (some ⟨c.day + 1, 0, 0⟩)
  have hday := State.advanceClock_day hclock hsec hmin hday
  have hcount : ({ s with count := s.count + 1, clock := some ⟨c.day + 1, 0, 0⟩ } : State).count = s.count + 1 := rfl
  have hclk : ({ s with count := s.count + 1, clock := some ⟨c.day + 1, 0, 0⟩ } : State).clock =
    some ⟨c.day + 1, 0, 0⟩ := rfl
  generalize ({ s with count := s.count + 1, clock := some ⟨c.day + 1, 0, 0⟩ } : State) = s0 at *
  have hs1 := s0.dayChange_changes (c.day + 1)
  have hwait1 : (s0.dayChange (c.day + 1)).waiting = [] :=
    (hs1.same_waiting (by decide)).trans ((hs0.same_waiting (by decide)).trans hwait)
  have hmeet1 : (s0.dayChange (c.day + 1)).mayMeet = s.mayMeet := by
    unfold State.mayMeet
    rw [hs1.same_meetings (by decide), hs0.same_meetings (by decide)]
  have hspare : ∀ f, f ∉ s.mayMeet → (s0.dayChange (c.day + 1)).meetingsSpare [f] := by
    intro f hf g hg
    rw [List.mem_singleton.1 hg, hmeet1]
    exact hf
  refine ⟨_, exec_secondTick_minute hday, fun hs => ?_, fun hs => ?_, ?_⟩
  · exact (State.enterMinute_same (f := .count) hwait1 (hspare _ (hs _ List.mem_cons_self)) (by decide)).trans
      ((hs1 .count (by decide)).trans hcount)
  · exact (State.enterMinute_same (f := .clock) hwait1 (hspare _ (hs _ List.mem_cons_self)) (by decide)).trans
      ((hs1 .clock (by decide)).trans hclk)
  · intro n w hs hn hw hcl
    have hw0 : s0.workOrder n = some w := by rw [hs0.workOrder_eq (by decide), hw]
    have hper0 : s0.permit = s.permit := hs0.permit_eq (by decide)
    have hcounted0 : s0.hasCounted n = s.hasCounted n := by
      unfold State.hasCounted
      rw [show s0.permits = s.permits from hs0 .permits (by decide)]
    have hper1 : ((s0.dayChange (c.day + 1)).enterMinute none |>.settle none).permits =
        (s0.dayChange (c.day + 1)).permits :=
      State.enterMinute_same (f := .permits) hwait1 (hspare _ (hs _ (by simp))) (by decide)
    have hper1' : ∀ m, ((s0.dayChange (c.day + 1)).enterMinute none |>.settle none).permit m =
        (s0.dayChange (c.day + 1)).permit m := fun m => by
      unfold State.permit
      rw [hper1]
    have horders := (State.enterMinute_retests hwait1 (hspare _ (hs _ (by simp)))).orders n
    generalize ((s0.dayChange (c.day + 1)).enterMinute none).settle none = t at *
    dsimp only
    by_cases hl : w.late (c.day + 1)
    · obtain ⟨hown, hpermits⟩ := State.dayChange_late hn hw0 hcl hl
      rw [hcounted0] at hown
      have hsame : t.workOrder n = (s0.dayChange (c.day + 1)).workOrder n := by
        rcases horders with h | ⟨v, -, hv, hvl, -, -⟩
        · exact h
        · rw [hown] at hv
          split_ifs at hv
          obtain rfl := Option.some.inj hv
          exact nomatch hvl
      rw [hsame, hown]
      refine ⟨fun _ hc => if_pos hc, fun _ hc => if_neg (by simp [hc]), fun hno => absurd hl hno, fun m q hq hqn => ?_⟩
      rw [hper1', hpermits m q (by rwa [hper0]) hqn]
      exact ⟨fun _ hqc => if_pos hqc, fun _ hqc => if_neg (by simp [hqc]), fun hno => absurd hl hno⟩
    · have hkeep := State.dayChange_kept hn hw0 hl
      refine ⟨fun h => absurd h hl, fun h => absurd h hl, fun _ => ?_, fun m q hq hqn =>
        ⟨fun h => absurd h hl, fun h => absurd h hl, fun _ => ?_⟩⟩
      · rcases horders with h | ⟨v, v', hv, hvl, hv', hva⟩
        · exact ⟨w, h.trans (hkeep.order.trans hw0), hcl, fun _ => rfl⟩
        · rw [hkeep.order, hw0, Option.some.injEq] at hv
          subst hv
          exact ⟨v', hv', by simp [WorkOrder.isClosing, hva], fun hno => absurd hvl hno⟩
      · rw [hper1']
        exact (hkeep.permits m q hqn).2 (by rwa [hper0])

end Sys2Proof.Machine
